-- ==== Sys2Proof/Word.lean ====
section
/-! DEFINITION. Words, bytes, the fixed names of the module's parts, and the type of the one sparse
keyed table (`KV`) on which registers, memories and record stores of the model are built. Every number written
`R<n>` in this package is a rule of spec/. -/

namespace Sys2Proof

/-- A byte of a buffer, an image, a message or a memory. -/
abbrev Byte := BitVec 8
/-- A register word of the control space and of a Kwalia core (R31, R322). -/
abbrev Word := BitVec 32
/-- A 64-bit value: a map entry, a token's VALUE or AUX, a counter. -/
abbrev Dword := BitVec 64

/-- The four quadrants, numbered Q0 to Q3 (R9). -/
inductive Quad where
  | spr | sum | aut | win
deriving DecidableEq, Repr

/-- The quadrant's number (R9). -/
def Quad.ix : Quad → Nat
  | .spr => 0 | .sum => 1 | .aut => 2 | .win => 3

/-- The quadrant of a number modulo 4. -/
def Quad.ofIx (n : Nat) : Quad :=
  match n % 4 with
  | 0 => .spr | 1 => .sum | 2 => .aut | _ => .win

/-- The partner quadrant: Spring with Autumn, Summer with Winter (R15). -/
def Quad.partner : Quad → Quad
  | .spr => .aut | .sum => .win | .aut => .spr | .win => .sum

/-- All four, in ascending number. -/
def Quad.all : List Quad := [.spr, .sum, .aut, .win]

/-- A path that reaches the control space (R36). -/
inductive Path where
  | mp | manager | tenant (i : Fin 256)
deriving DecidableEq, Repr

/-- The path's number in PAGE_STATUS.OWNER (R36). -/
def Path.num : Path → Nat
  | .mp => 1 | .manager => 2 | .tenant _ => 3

/-- The instance a path acts for; the MP and the manager act for instance 0 (event 0x0211). -/
def Path.inst : Path → Nat
  | .mp => 0 | .manager => 0 | .tenant i => i.val

/-- A tenant core: its quadrant and its number in the quadrant (R320). -/
structure CoreId where
  quad : Quad
  core : Fin 64
deriving DecidableEq, Repr

/-- The cluster of a core (R320). -/
def CoreId.cluster (c : CoreId) : Nat := c.core.val / 16
/-- The key of a core in the model's core table. -/
def CoreId.key (c : CoreId) : Nat := c.quad.ix * 64 + c.core.val

/-- A table from numbers to values: a list of pairs whose keys strictly rise. -/
abbrev KV (α : Type) := List (Nat × α)

/-- A memory of bytes: unlisted addresses read zero (the scratch is cleared before a task, R293; a
freed buffer is zeroed before reuse, R307; Subsystem Local Memory is zeroed before reuse, R143). -/
abbrev Mem := List (Nat × Byte)

end Sys2Proof
end

