-- ==== Sys2Proof/Syntax.lean ====
section
/-! DEFINITION. The commands of the module: one constructor of `Instr` for each row of
spec/opcode_table.json, in the table's order, with the operands the rules give the command. Where an
event of the module's own hardware comes out one way or another, how it came out is an operand. -/

namespace Sys2Proof

/-- A page of the control space, by the number of its 4 KiB frame: address bits [25:12] (R29). -/
abbrev PageNo := Fin 16384

/-- Where a capsule came from: the association (a number the model gives it at Connect), the queue
and the command identifier (R116, R118). `roundNow`: an arbitration round starts as the command is
admitted; R125 leaves the start of a round open within 50 µs. -/
structure Cap where
  ctrl : Nat
  qid : Nat
  cid : BitVec 16
  roundNow : Bool
deriving DecidableEq, Repr

/-- The kinds of engine unit that are fenced one by one (R23, R369, R417, R439). -/
inductive EngineKind where
  | scan | compressor | decompressor | digest | xts | index
deriving DecidableEq, Repr

/-- Why a tenant core reports a fault (R321). -/
inductive CoreFault where
  | selfCheck | uncorrectable
deriving DecidableEq, Repr

/-- IEEE 1149.1 instructions of the TAP (R452). -/
inductive JtagOp where
  | idcode | bypass | samplePreload | extest | debug
deriving DecidableEq, Repr

/-- What a transport packet carries besides data, as far as R84, R86 to R91 speak of it. -/
structure PktFlags where
  ce : Bool      -- CE-marked (R88)
  ece : Bool     -- TCP: the segment echoes congestion (R91)
  dupAck : Bool  -- TCP: a duplicate acknowledgement (R84)
  rttHigh : Bool -- the measured round-trip time is above RC4.RTT_HIGH (R91)
deriving DecidableEq, Repr

/-- What a RoCEv2 packet of a queue pair is (R84, R88). -/
inductive RocePkt where
  | data (ce : Bool) | ack | nakSequence | rnrNak | cnp
deriving DecidableEq, Repr

/-- An Ethernet frame as the receive checks of R79, R82, R89 and R92 see it. -/
structure Frame where
  len : Nat            -- bytes, header and FCS included
  prio : Fin 8         -- priority by PCP, or DSCP[5:3] where untagged (R89)
  vlan : BitVec 12     -- 0 where untagged
  dst : List Byte      -- destination address, 16 bytes as ADDR of R81
  ipv6 : Bool
  fcsOk : Bool
  fecOk : Bool         -- no uncorrectable codeword
  fragment : Bool      -- an IP fragment
  macsec : Bool        -- protected
  macsecOk : Bool      -- validates under a valid receive SA
  macControl : Bool    -- PFC or another MAC control frame
  conn : Nat           -- the connection it belongs to, by the model's number; 0 for none
  ce : Bool            -- CE-marked
  draw : Fin 100       -- the draw of the marking of R86 step 2, per cent
deriving DecidableEq, Repr

/-- A connection attempt as the rule table sees it (R96, R97). -/
structure Attempt where
  port : Fin 2
  sub : Fin 4
  vlan : BitVec 12
  roce : Bool
  ipv6 : Bool
  src : List Byte      -- source address, 16 bytes as ADDR of R81
  dstIndex : Fin 512
  dstPort : BitVec 16
  ecn : Bool           -- TCP: the initiator offers ECN (R88)
  timestamps : Bool    -- TCP: the SYN carries the timestamp option (R100)
deriving DecidableEq, Repr

/-- Protection information of an NVM command (R165): PRACT, the three bits of PRCHK, the initial reference
tag, the application tag and its mask. -/
structure PiArgs where
  pract : Bool
  guard : Bool
  app : Bool
  ref : Bool
  ilbrt : Nat
  lbat : Nat
  lbatm : Nat
deriving DecidableEq, Repr

/-- The range of an NVM command (R121) and its protection information. -/
structure NvmRange where
  nsid : Nat
  slba : Nat
  nlb : Nat            -- sectors, not 0's based
  pi : PiArgs
deriving DecidableEq, Repr

/-- FDP directive of a write: the placement handle of DSPEC with DTYPE 2h, if any (R190). -/
abbrev Fdp := Option Nat

/-- Guard of a Kwalia instruction (R327). -/
structure Guard where
  neg : Bool
  p : Fin 8
deriving DecidableEq, Repr

/-- Format R of a Kwalia instruction: the core, the guard and the three register fields (R333). -/
structure RArgs where
  core : CoreId
  g : Guard
  d : Fin 32
  a : Fin 32
  b : Fin 32
deriving DecidableEq, Repr

/-- Format I (R333). -/
structure IArgs where
  core : CoreId
  g : Guard
  d : Fin 32
  a : Fin 32
  imm : BitVec 12
deriving DecidableEq, Repr

/-- Format U (R333). -/
structure UArgs where
  core : CoreId
  g : Guard
  d : Fin 32
  imm : BitVec 17
deriving DecidableEq, Repr

/-- Format M: `post` is the bit P (R333). -/
structure MArgs where
  core : CoreId
  g : Guard
  d : Fin 32
  a : Fin 32
  post : Bool
  imm : BitVec 11
deriving DecidableEq, Repr

/-- Format B (R333). -/
structure BArgs where
  core : CoreId
  g : Guard
  off : BitVec 22
deriving DecidableEq, Repr

/-- Operands of a vector instruction of OP 0x38: all three name vector registers (R338). -/
structure VArgs where
  core : CoreId
  g : Guard
  d : Fin 16
  a : Fin 16
  b : Fin 16
deriving DecidableEq, Repr

/-- Operands of a predicate logic instruction (R338). -/
structure PArgs where
  core : CoreId
  g : Guard
  d : Fin 8
  a : Fin 8
  b : Fin 8
deriving DecidableEq, Repr

/-- A core and a guard alone. -/
structure CArgs where
  core : CoreId
  g : Guard
deriving DecidableEq, Repr

/-- How the COUNT of a REP prefix is given (R331). -/
inductive RepCount where
  | imm (n : BitVec 16) | reg (a : Fin 32)
deriving DecidableEq, Repr

/-- The 128-byte invocation descriptor of Execute Program (R282). -/
structure ExecDesc where
  inNsid : Nat
  stopOnError : Bool
  emitAll : Bool
  readUnmapped : Bool
  outKind : BitVec 4
  reservedZero : Bool  -- every reserved bit is zero
  inSlba : Nat
  inNlb : Nat
  startSeq : Nat
  outNsid : Nat
  waitUs : Nat
  outStart : Nat
  outLen : Nat
  outMrs : BitVec 16
  errMrs : BitVec 16
  errLen : Nat
  params : List Byte   -- 64 bytes
deriving DecidableEq, Repr

/-- A token as R289 lays it out. -/
structure Token where
  flow : Nat           -- 14 bits: quadrant in [13:12], slot in [11:0] (R283)
  seq : Nat            -- 40 bits
  port : Nat           -- 10 bits
  kind : Nat           -- 1 READ, 2 DATA, 3 VOID, 4 ERROR
  buf : Bool
  last : Bool
  attempt : Nat
  inst : Nat
  node : Nat           -- 0xFF for a token the module sends
  gen : Nat
  err : Nat
  value : Dword
  aux : Dword
deriving DecidableEq, Repr

/-- An engine task item, named by the flow, sequence and node that fired it (R293), and the unit
that finished it. -/
structure TaskRef where
  quad : Quad
  flow : Nat
  seq : Nat
  node : Nat
  unit : Fin 8
deriving DecidableEq, Repr

/-- The two directions of a quadrant's compression complex (R388). -/
inductive CmpDir where
  | compress | decompress
deriving DecidableEq, Repr

/-- The copies of the retained settings store (R67). -/
inductive StoreCopy where
  | a | b
deriving DecidableEq, Repr

/-- A stage method's report of failure: the error code on its unit's page and that page's PAGE_ID
low half (R65). -/
structure MethodEnd where
  ok : Bool
  failCode : BitVec 16
  failPage : BitVec 16
  /-- AUG: the replay met HOLDUP_BEGIN without HOLDUP_END (R270). -/
  flushCut : Bool
  /-- MAR: a restored record refused, or lost in both copies, by page number (R47, R70). -/
  refusedPages : List PageNo
deriving DecidableEq, Repr

/-- One page read and its hard decode (R17, R181, R240). -/
inductive DecodeResult where
  | ok (margin : Nat) | fail
deriving DecidableEq, Repr

/-- The commands. -/
inductive Instr where
  -- Control space (R29 to R52)
  /-- R40: a write of one word whose register has no row of its own. -/
  | registerWrite (path : Path) (addr : BitVec 26) (value : Word)
  /-- R41: a write of one word of staged fields. -/
  | stagedWrite (path : Path) (addr : BitVec 26) (value : Word)
  /-- R120: admin Control Read. -/
  | controlRead (cap : Cap) (addr : BitVec 26) (nwords : BitVec 11)
  /-- R38, R120: admin Control Write. -/
  | controlWrite (cap : Cap) (addr : BitVec 26) (nwords : BitVec 11) (words : List Word) (commitAfter : Bool)
  /-- R42: a write of COMMIT.GO. -/
  | commit (path : Path) (page : PageNo)
  /-- R42: the checks of a COMMIT end; `ecc`: a word of the staging image was uncorrectable. -/
  | commitDone (page : PageNo) (ecc : Bool)
  /-- R41. -/
  | pageCtrlAbort (path : Path) (page : PageNo)
  /-- R41. -/
  | pageCtrlFactory (path : Path) (page : PageNo)
  /-- R44. -/
  | expertKeyWrite (path : Path) (page : PageNo) (value : Word)
  /-- R45. -/
  | expertRegionExpiry (path : Path) (page : PageNo)
  /-- R44. -/
  | keyLockoutEnd (page : PageNo)
  /-- R41. -/
  | stagingOwnerTimeout (page : PageNo)
  /-- R34. -/
  | evSetWrite (path : Path) (page : PageNo) (value : Word)
  /-- R34. -/
  | evClrWrite (path : Path) (page : PageNo) (value : Word)
  /-- R31. -/
  | timeLoRead (path : Path)
  /-- R51: `corrected` and `uncorrectable`: the words of powered pages the scrub finds so. -/
  | registerScrub (corrected uncorrectable : List (BitVec 26))
  /-- R52: `ok`: the second read of the restored word is good; `source` the restored value. -/
  | registerWordRestored (addr : BitVec 26) (ok : Bool)
  /-- R48. -/
  | settingSaveDone (page : PageNo)
  /-- R68. -/
  | storeCompactionDone (copy : StoreCopy)
  /-- R462. -/
  | storeCopyReformat (copy : StoreCopy)
  -- Modes and start (R53 to R77)
  /-- R69: `imageOk`: the SI verifies the standby image; `aOk`, `bOk`: the copies pass their header
  check; `lostA`, `lostB`: the system records whose newest record fails CRC in that copy (R71). -/
  | mgmtDomainRise (imageOk aOk bOk : Bool) (lostA lostB : List Nat)
  | startRequest (path : Path)
  | shutdownRequest (path : Path)
  | diagnosticRequest (path : Path)
  | leaveDiagnosticRequest (path : Path)
  | preserveEnterRequest (path : Path)
  | preserveReleaseRequest (path : Path)
  | autoStart
  | autoReturnStart
  | stageMethodEnd (r : MethodEnd)
  | stageMethodTimeout
  | skipLatchClear (path : Path) (value : Word)
  | orderlyShutdownStepEnd
  | drainLimitExpiry
  | shutdownStepOverrun
  | vmainInRange (mv : BitVec 16)
  | vauxInRange (mv : BitVec 16)
  | vauxLost (mv : BitVec 16)
  | inputsRemoved
  | powerFailWarning
  | pwrdisAssert
  | pwrdisRelease
  | resetAssert
  | resetLow10ms
  | resetRelease
  | ppsEdge (falling : Bool)
  -- Connectors, clocks and links (R10, R443 to R456)
  /-- `deciWatt`: the transceiver's declared maximum power. -/
  | transceiverInsert (port : Fin 2) (deciWatt : Nat)
  | transceiverRemove (port : Fin 2)
  /-- `dom`: clock domain 1 to 25 of R20, from 0. -/
  | pllLockLoss (dom : Fin 25)
  | pllRelockDone (dom : Fin 25) (ok : Bool)
  | jtagInstruction (op : JtagOp)
  /-- A response to the SI's challenge: the vendor fuse slot of its key and the signed bytes. -/
  | debugChallenge (slot : Fin 4) (response : List Byte)
  /-- Links 0 to 3 hub to quadrant, 4 hub to network, 5 to 8 the ring (R439). -/
  | flitReceive (link : Fin 9) (crcOk : Bool) (badWire : Fin 68)
  | wireSpareRepair (link : Fin 9) (wire : Fin 68)
  | wireRepairDone (link : Fin 9)
  -- Failures (R23)
  | dieFailure (lane : Fin 64) (die : Fin 16)
  | laneFailure (lane : Fin 64)
  | dramChannelLoss (quad : Quad) (channel : Fin 5)
  | clusterFailure (quad : Quad) (cluster : Fin 4)
  | mediaCoreFailure (quad : Quad) (core : Fin 8)
  | engineUnitFault (quad : Quad) (kind : EngineKind) (unit : Fin 8)
  | tenantCoreFault (core : CoreId) (cause : CoreFault)
  | mpLockstepMismatch
  | mpRestartDone
  | quadrantChipletLoss (quad : Quad)
  | hcFault
  | trngHealthFailure
  -- The network edge (R78 to R110)
  | frameReceive (port : Fin 2) (sub : Fin 4) (f : Frame)
  /-- The scheduler sends `bytes` of a connection's waiting data. -/
  | frameTransmit (conn : Nat) (bytes : Nat)
  | pfcPauseReceive (port : Fin 2) (sub : Fin 4) (prios : BitVec 8)
  | pfcWatchdogFire (port : Fin 2) (sub : Fin 4) (prio : Fin 8)
  | pfcWatchdogRearm (port : Fin 2) (sub : Fin 4) (prio : Fin 8)
  /-- A request for a local address: address bytes and VLAN. -/
  | arpNdRequest (port : Fin 2) (sub : Fin 4) (vlan : BitVec 12) (ipv6 : Bool) (addr : List Byte)
  | icmpEchoRequest (port : Fin 2) (sub : Fin 4) (vlan : BitVec 12) (ipv6 : Bool) (addr : List Byte)
  | sublinkDegradedSet (port : Fin 2) (sub : Fin 4)
  | sublinkDegradedClear (port : Fin 2) (sub : Fin 4)
  | uncorrectableThreshold (port : Fin 2) (sub : Fin 4)
  | laneLockTimeout (port : Fin 2) (sub : Fin 4) (lane : Fin 8)
  | portSelftestEnd (port : Fin 2) (sub : Fin 4) (pass : Bool)
  | sublinkRetrain (port : Fin 2) (sub : Fin 4) (up : Bool)
  /-- A sub-link comes up; `eq`: the trained equalisation of its lanes (R104). -/
  | sublinkLinkUp (port : Fin 2) (sub : Fin 4) (eq : List Word)
  | sublinkLinkDown (port : Fin 2) (sub : Fin 4)
  | tcpSegmentReceive (conn : Nat) (seg : PktFlags) (bytes : Nat)
  | tcpRetransmitTimeout (conn : Nat)
  | rocePacketReceive (conn : Nat) (pkt : RocePkt)
  | roceAckTimeout (conn : Nat)
  | alphaTimerExpiry (conn : Nat)
  | incTimerExpiry (conn : Nat)
  | receivePauseBreach (inst : Fin 256) (ms : BitVec 32)
  | readyToTransferSend (ctx : Nat)
  | rdmaReadIssue (ctx : Nat)
  /-- Write data for a context: the offset the data names, the data, whether the PDU is well formed. -/
  | writeDataReceive (ctx : Nat) (offset : Nat) (data : List Byte) (wellFormed : Bool)
  /-- ICReq: PFV, HPDA, digests asked for, MAXR2T. -/
  | icreqReceive (conn : Nat) (pfv : Nat) (hpda : Nat) (hdgst ddgst : Bool) (maxr2t : Nat)
  | tcpSynReceive (a : Attempt)
  | roceConnectRequest (a : Attempt)
  /-- An ACK that carries a SYN cookie value. -/
  | synCookieAck (a : Attempt) (cookie : BitVec 32)
  | cookieKeyRotate
  | ruleRevoke (path : Path) (index : BitVec 13)
  /-- A ClientHello; what it offers, and whether the handshake that follows ends well. -/
  | tlsClientHello (conn : Nat) (aes256 aes128 x25519 secp384 pskDhe : Bool) (ends : Option Bool)
  | tlsHandshakeTimeout (conn : Nat)
  | tlsKeyUpdate (conn : Nat)
  | holdoffExpiry (src : List Byte)
  | eqClear (path : Path) (port : Fin 2)
  -- Fabrics and admin commands (R95, R111 to R135)
  /-- Connect on a connection: instance its subsystem NQN names (`none`: no instance's NQN), queue
  identifier, entries, KATO in ms, the host (by a number of its NQN). For an I/O queue, the
  controller the host names. -/
  | connect (conn : Nat) (subnqn : Option (Fin 256)) (qid : Nat) (entries : Nat) (katoMs : Nat) (hostnqn : Nat) (ctrl : Nat)
  | propertyGet (cap : Cap) (offset : Nat)
  | propertySet (cap : Cap) (offset : Nat) (value : Dword)
  /-- DH-HMAC-CHAP message: kind 0 negotiate, 1 reply, 2 success2; the hash (1 to 3) and DH group (0 to 3) chosen,
  the response value, and the number of the host's own challenge where it asks for one. -/
  | authenticationSend (cap : Cap) (kind : Nat) (hash : Nat) (group : Nat) (response : List Byte) (challenge : Option Nat)
  | authenticationReceive (cap : Cap)
  | disconnect (cap : Cap)
  | getLogPage (cap : Cap) (lid : BitVec 8) (offset length : Nat) (rae : Bool)
  | identify (cap : Cap) (cns : BitVec 8) (nsid : Nat)
  | abort (cap : Cap) (sqid : Nat) (cid : BitVec 16)
  | setFeatures (cap : Cap) (fid : BitVec 8) (cdw11 cdw12 : Word) (sv : Bool)
  | getFeatures (cap : Cap) (fid : BitVec 8) (cdw11 : Word) (sel : BitVec 3)
  | asynchronousEventRequest (cap : Cap)
  /-- Create: size in sectors, LBA format, grain code byte 3840, protection information type and place (DPS), key
  value or not, its reclaim unit handles. Delete names the namespace. -/
  | namespaceManagement (cap : Cap) (create : Bool) (nsid : Nat) (nsze : Nat) (lbaf : BitVec 8) (grain : BitVec 8) (piType : Nat) (piFirst : Bool) (kv : Bool) (ruh : List Nat)
  | namespaceAttachment (cap : Cap) (nsid : Nat) (attach : Bool) (ctrls : List Nat)
  | keepAlive (cap : Cap)
  | formatNvm (cap : Cap) (nsid : Nat) (lbaf : BitVec 8) (ses : BitVec 3) (piType : Nat) (piFirst : Bool)
  | securitySend (cap : Cap) (secp : BitVec 8) (spsp : BitVec 16) (data : List Byte)
  | securityReceive (cap : Cap) (secp : BitVec 8) (spsp : BitVec 16) (alloc : Nat)
  | sanitize (cap : Cap) (action : BitVec 3) (noDealloc : Bool)
  /-- The step of the erase of an instance ends (R409). -/
  | cryptoEraseStepDone (inst : Fin 256)
  | firmwareImageDownload (cap : Cap) (offset : Nat) (declared : Nat) (data : List Byte)
  | firmwareCommit (cap : Cap) (action : BitVec 3) (slot : BitVec 3)
  | unsupportedOpcode (cap : Cap) (opcode : BitVec 8)
  -- I/O commands (R121)
  /-- `seqReq`: Sequential Request; `oneTime`: Access Frequency 6h; `sglBytes`: what the SGL
  describes; `incapsule`: a PRP was used instead of an SGL. -/
  | read (cap : Cap) (r : NvmRange) (seqReq oneTime prp : Bool) (sglBytes : Nat)
  /-- `data`: the bytes the capsule carries; the rest is pulled. -/
  | write (cap : Cap) (r : NvmRange) (fua seqReq : Bool) (fdp : Fdp) (prp : Bool) (data : List Byte)
  | flush (cap : Cap) (nsid : Nat)
  | writeUncorrectable (cap : Cap) (r : NvmRange)
  | compare (cap : Cap) (r : NvmRange) (seqReq prp : Bool) (data : List Byte)
  | writeZeroes (cap : Cap) (r : NvmRange) (deallocate : Bool)
  | datasetManagement (cap : Cap) (nsid : Nat) (deallocate : Bool) (ranges : List (Nat × Nat))
  | verify (cap : Cap) (r : NvmRange) (seqReq : Bool)
  /-- Source ranges, and the first destination LBA. -/
  | copy (cap : Cap) (nsid : Nat) (format : Nat) (src : List (Nat × Nat)) (dst : Nat)
  | ioManagementReceive (cap : Cap) (nsid : Nat)
  | ioManagementSend (cap : Cap) (nsid : Nat) (handles : List Nat)
  | store (cap : Cap) (nsid : Nat) (key : List Byte) (noOverwrite mustExist : Bool) (declared : Nat) (value : List Byte)
  | retrieve (cap : Cap) (nsid : Nat) (key : List Byte) (bufLen : Nat)
  | delete (cap : Cap) (nsid : Nat) (key : List Byte)
  | exist (cap : Cap) (nsid : Nat) (key : List Byte)
  | list (cap : Cap) (nsid : Nat) (key : List Byte) (maxKeys : Nat)
  | loadProgram (cap : Cap) (index : Fin 16) (declared : Nat) (image : List Byte)
  | programActivation (cap : Cap) (index : Fin 16) (activate : Bool)
  | executeProgram (cap : Cap) (index : Fin 16) (d : ExecDesc) (bufferBytes : Nat)
  /-- Define (or, with no length, delete) a memory range set. -/
  | memoryRangeSetManagement (cap : Cap) (rsid : BitVec 16) (length : Option Nat)
  | memoryRead (cap : Cap) (rsid : BitVec 16) (offset length : Nat)
  | memoryWrite (cap : Cap) (rsid : BitVec 16) (offset declared : Nat) (data : List Byte)
  /-- Copy from a range set to a namespace range, or from a namespace range into a range set. -/
  | memoryCopy (cap : Cap) (rsid : BitVec 16) (offset : Nat) (r : NvmRange) (toNamespace : Bool)
  | memoryFill (cap : Cap) (rsid : BitVec 16) (offset length : Nat) (value : Byte)
  -- Command path (R114 to R136)
  /-- The oldest waiting command of a queue is admitted. `bad`: a word of a context of the association was
  uncorrectable in one bank (`some false`) or in both (R138). -/
  | commandAdmit (ctrl qid : Nat) (bad : Option Bool)
  | arbRound
  | keepAliveExpiry (ctrl : Nat)
  | connectionLoss (conn : Nat)
  | transferTimeout (ctx : Nat)
  | resetCutTimeout (ctx : Nat)
  | controllerResetDone (ctrl : Nat)
  | activationDrainLimit
  | imageSwapDone (ok : Bool)
  -- Instances (R141 to R164)
  | instanceReset (path : Path) (inst : Fin 256)
  | instanceResetDone (inst : Fin 256)
  | instancePurge (path : Path) (inst : Fin 256)
  | t2mRing (path : Path) (inst : Fin 256)
  | mbiAck (path : Path) (inst : Fin 256)
  | mboSend (path : Path)
  | m2tAck (path : Path) (inst : Fin 256)
  | m2tClearLost (path : Path) (inst : Fin 256)
  | windowBreachEnd (inst : Fin 256)
  -- Media (R165 to R196)
  /-- The committed version of one grain of a write has been read (`ok`) for its merge. -/
  | grainMerge (ctx : Nat) (grain : Nat) (ok : Bool)
  | mapCommit (ctx : Nat)
  /-- The compression of a version in the write buffer ends; whether the verification decoder and
  the XTS check disagreed. -/
  | compressionDone (version : Nat) (verifyMismatch xtsMismatch : Bool)
  | bandOpen (stream : Fin 7) (slc : Bool)
  | rowCloseWaitExpiry (band : Nat)
  | rowCloseIdleExpiry (band : Nat)
  /-- The row being programmed ends; the member whose program failed, if one did. -/
  | rowProgramDone (band : Nat) (failed : Option (Fin 34))
  | pageReadDone (readId : Nat) (r : DecodeResult)
  | escalationStepDone (readId : Nat) (ok : Bool)
  | inlineInflateDone (readId : Nat) (ok : Bool)
  | memberRebuildCommit (band : Nat) (member : Fin 34)
  | foldStart (band : Nat)
  | checkGo (path : Path)
  | parityCheckDone (mismatchRow : Option (Fin 4096))
  -- Map cache (R197 to R220)
  | mapFillDone (quad : Quad) (nsx seg : Nat) (readable : Bool)
  | hintGo (path : Path)
  | dirtyLineAgeExpiry (quad : Quad) (nsx seg : Nat)
  | checkpointIntervalExpiry
  | checkpointDone (ok : Bool)
  | mapCacheDrainDone (quad : Quad)
  | mapCacheResize (quad : Quad)
  -- Media lifecycle (R221 to R254)
  | reclaimLevelChange
  | gcVictimSelect
  | blockEraseDone (band : Nat) (member : Fin 34) (ok : Bool)
  | patrolDue (lane : Fin 64) (die : Fin 16) (plane : Fin 4) (block : Fin 2048)
  | catchupPatrolEnd
  | retentionClockSave
  -- Hold-up (R255 to R273)
  /-- The store voltage in mV that the HC reads. -/
  | windowUpdate (mv : BitVec 16)
  | holdupMeasurementDue
  | measGo (path : Path)
  /-- A run ends: the time of its timed part in µs. -/
  | measurementRunDone (us : Nat)
  | measurementRunTimeout
  | chargerTimeout (mv : BitVec 16)
  /-- A flush step ends: time and energy since the warning, in µs and mJ. -/
  | holdupFlushStepDone (us mj : Nat)
  | flushPass2Limit
  -- Programs and flows (R274 to R304)
  | flowOpen (ctx : Nat)
  | walkerGrain (flow : Fin 16384) (quad : Quad)
  | baseBroadcast (flow : Fin 16384)
  | readTokenReceive (quad : Quad) (flow : Fin 16384) (seq : Nat)
  | tokenArrive (quad : Quad) (t : Token)
  | heldTokenGrant (quad : Quad)
  | partialMatchTimeout (quad : Quad) (flow : Fin 16384) (seq node : Nat)
  | taskDispatch (quad : Quad)
  | taskWatchdogExpiry (core : CoreId)
  | resultArrive (t : Token)
  | retireMessage (quad : Quad) (flow : Fin 16384) (seq : Nat)
  | outputSegmentTimer (flow : Fin 16384)
  | errorTokenArrive (t : Token)
  -- Buffer pools (R305 to R319)
  | bufferZeroed (handle : BitVec 41)
  | referenceIncrement (handle : BitVec 41)
  | referenceDecrement (handle : BitVec 41)
  | writePoolFullTimeout (quad : Quad)
  -- Kwalia register ALU, format R (R334); NEG to BSWAP use no B, CMP no D
  | kAdd (x : RArgs)
  | kAdc (x : RArgs)
  | kSub (x : RArgs)
  | kSbc (x : RArgs)
  | kAnd (x : RArgs)
  | kOr (x : RArgs)
  | kXor (x : RArgs)
  | kAndn (x : RArgs)
  | kShl (x : RArgs)
  | kShr (x : RArgs)
  | kSar (x : RArgs)
  | kRor (x : RArgs)
  | kRol (x : RArgs)
  | kMin (x : RArgs)
  | kMax (x : RArgs)
  | kMinu (x : RArgs)
  | kMaxu (x : RArgs)
  | kMul (x : RArgs)
  | kMulhs (x : RArgs)
  | kMulhu (x : RArgs)
  | kDivs (x : RArgs)
  | kDivu (x : RArgs)
  | kRems (x : RArgs)
  | kRemu (x : RArgs)
  | kNeg (x : RArgs)
  | kNot (x : RArgs)
  | kClz (x : RArgs)
  | kPopc (x : RArgs)
  | kBswap (x : RArgs)
  | kCmp (x : RArgs)
  -- Kwalia immediates (R335)
  | kAddi (x : IArgs)
  | kAndi (x : IArgs)
  | kOri (x : IArgs)
  | kXori (x : IArgs)
  | kShli (x : IArgs)
  | kShri (x : IArgs)
  | kSari (x : IArgs)
  | kRori (x : IArgs)
  | kCmpi (x : IArgs)
  | kMovi (x : UArgs)
  | kMovh (x : UArgs)
  -- Kwalia memory (R336)
  | kLdw (x : MArgs)
  | kLdh (x : MArgs)
  | kLdhu (x : MArgs)
  | kLdb (x : MArgs)
  | kLdbu (x : MArgs)
  | kStw (x : MArgs)
  | kSth (x : MArgs)
  | kStb (x : MArgs)
  | kVld (x : MArgs)
  | kVst (x : MArgs)
  -- Kwalia control (R337)
  | kBr (x : BArgs)
  | kCall (x : BArgs)
  | kJr (x : CArgs) (a : Fin 32)
  | kCallr (x : CArgs) (a : Fin 32)
  | kRet (x : CArgs)
  | kLoop (x : CArgs) (a : Fin 32) (off : BitVec 12)
  | kLoopi (x : CArgs) (count : BitVec 10) (off : BitVec 12)
  | kRep (x : CArgs) (count : RepCount)
  | kEnd (x : CArgs)
  | kNop (x : CArgs)
  | kMfsr (x : CArgs) (d : Fin 32) (sr : BitVec 12)
  | kMtsr (x : CArgs) (a : Fin 32) (sr : BitVec 12)
  -- Kwalia predicates and vectors (R338); `cond` is the FN field, `sh`/`lane` as named
  | kPcmp (x : CArgs) (d : Fin 8) (a b : Fin 32) (cond : BitVec 7)
  | kPflag (x : CArgs) (d : Fin 8) (cond : BitVec 7)
  | kPlogAnd (x : PArgs)
  | kPlogOr (x : PArgs)
  | kPlogXor (x : PArgs)
  | kPlogAndn (x : PArgs)
  | kPlogNot (x : PArgs)
  | kPset (x : CArgs) (d : Fin 8) (imm : BitVec 16)
  | kPmov (x : CArgs) (d : Fin 8) (a : Fin 32)
  | kPget (x : CArgs) (d : Fin 32) (a : Fin 8)
  | kPcnt (x : CArgs) (d : Fin 32) (a : Fin 8)
  | kVadd (x : VArgs)
  | kVsub (x : VArgs)
  | kVmul (x : VArgs)
  | kVand (x : VArgs)
  | kVor (x : VArgs)
  | kVxor (x : VArgs)
  | kVshl (x : VArgs)
  | kVshr (x : VArgs)
  | kVsar (x : VArgs)
  | kVmin (x : VArgs)
  | kVmax (x : VArgs)
  | kVminu (x : VArgs)
  | kVmaxu (x : VArgs)
  | kVmov (x : VArgs)
  | kVcmp (x : CArgs) (d : Fin 8) (a b : Fin 16) (cond : BitVec 7)
  | kVbcast (x : CArgs) (d : Fin 16) (a : Fin 32)
  | kVext (x : CArgs) (d : Fin 32) (a : Fin 16) (lane : Fin 16)
  | kVins (x : CArgs) (d : Fin 16) (a : Fin 32) (lane : Fin 16)
  | kVsum (x : CArgs) (d : Fin 32) (a : Fin 16)
  -- Kwalia task instructions (R339)
  | kSendv (x : CArgs) (arc : Fin 4) (a : Fin 32)
  | kSendb (x : CArgs) (arc : Fin 4) (a b : Fin 32)
  | kSendn (x : CArgs) (arc : Fin 4)
  | kSendh (x : CArgs) (a : Fin 32)
  | kBalloc (x : CArgs) (d a : Fin 32)
  | kBrel (x : CArgs) (a : Fin 32)
  | kL2pf (x : CArgs) (a b : Fin 32)
  | kL2rel (x : CArgs) (a b : Fin 32)
  | kL2wb (x : CArgs) (a b : Fin 32)
  -- Clusters and their cores (R345, R346)
  | l2DrainDone (quad : Quad) (cluster : Fin 4)
  | coreTestGo (path : Path) (quad : Quad) (cluster : Fin 4) (core : Fin 16)
  | coreTestDone (core : CoreId) (pass : Bool)
  -- Match engine (R350 to R372)
  | matchTaskDone (t : TaskRef)
  | probeGo (path : Path) (quad : Quad)
  | probeStep (path : Path) (quad : Quad)
  | probeDone (quad : Quad)
  /-- The search, or update, of a context takes the pipeline slot of its bucket's home quadrant. -/
  | indexSearchSlot (ctx : Nat)
  | indexUpdateSlot (ctx : Nat)
  /-- The reload of an automaton section (instance, program index, section) ends. -/
  | sectionReloadDone (quad : Quad) (inst : Fin 256) (prog : Fin 16) (sect : Fin 4) (ok : Bool)
  -- Compression (R373 to R393)
  | deflateTaskDone (t : TaskRef) (verifyMismatch : Bool)
  | inflateTaskDone (t : TaskRef)
  | taskItemYield (quad : Quad) (dir : CmpDir) (unit : Fin 4)
  -- Digests and keys (R394 to R419)
  /-- What the two comparators wrote, where they compared (R399). -/
  | digestTaskDone (t : TaskRef) (eqFault neqFault : Bool)
  | digestUnitSwitch (quad : Quad) (unit : Fin 4)
  | digOpen (path : Path) (quad : Quad) (cmd : Word)
  | digUpdate (path : Path) (quad : Quad) (cmd : Word)
  | digFinal (path : Path) (quad : Quad) (cmd : Word)
  | digOneshot (path : Path) (quad : Quad) (cmd : Word)
  | digHkdf (path : Path) (quad : Quad) (cmd : Word)
  | digClose (path : Path) (quad : Quad) (cmd : Word)
  | digestContextGrant (quad : Quad)
  | engineBusyTimeout (quad : Quad)
  | digestRequestDone (quad : Quad) (eqFault neqFault : Bool)
  | sessionIdleTimeout (quad : Quad)
  /-- KEY_OP with OP 1 and GO. -/
  | keyLoad (path : Path)
  | keyLoadWrapped (path : Path) (wrapSlot : BitVec 10)
  /-- `trngOk`: the TRNG supplies the material. -/
  | keyGenerate (path : Path) (trngOk : Bool)
  | keyDestroy (path : Path)
  -- Management (R420 to R435)
  /-- One reading for each of the sensors named, in the units of SENS.VALUE. -/
  | sensorSample (readings : List (Fin 128 × BitVec 24))
  | sensorStaleTimeout (sensor : Fin 128)
  | cageOvercurrent (port : Fin 2)
  | throttleStep
  | throttleRecover
  | logMirrorCopy (ok : Bool)
  | ptpMessageReceive (entry : Fin 512) (domain : BitVec 8) (offsetNs : Int)
  | ptpLock
  | timeSetGo (path : Path)
  | mctpSetEndpointId (eid : BitVec 8)
  | mctpGetEndpointId
  | mctpGetVersionSupport (msgType : BitVec 8)
  | mctpGetMessageTypeSupport
  | mctpGetVendorMessageSupport
  | miReadDataStructure (dtyp : BitVec 8)
  | miSubsystemHealthPoll (clear : Bool)
  | miControllerHealthPoll (first : Nat)
  | miConfigurationGet (id : BitVec 8)
  | miConfigurationSet (id : BitVec 8) (value : Nat)
  | mctpControlRead (tag : Byte) (addr : BitVec 26) (nwords : BitVec 11)
  | mctpControlWrite (tag : Byte) (addr : BitVec 26) (nwords : BitVec 11) (words : List Word) (commitAfter : Bool)
  | mctpAttestNonce (tag : Byte) (nonce : List Byte)
  | mctpAttestReport (tag : Byte) (offset : Nat)
  | mctpLogRead (tag : Byte) (first : BitVec 32) (count : Nat)
  | mctpTimeSet (tag : Byte) (ns : Dword)
  | mctpSensorRead (tag : Byte) (first : Nat) (count : Nat)
  -- Diagnostics (R436 to R442)
  | testGo (path : Path) (domainsRise : Bool)
  | testStop (path : Path)
  | testInject (path : Path)
  /-- A test's duration ends: errors counted, whether the depth's other criteria hold, bits
  compared, and the failed wires. -/
  | testEnd (errors : Nat) (criterion : Bool) (bits : Nat) (wires : List (Fin 68)) (firstErr : Word)
  -- Rows at the table's end
  | ppsLoss
  | laneRetrain (lane : Fin 64) (ok : Bool)
  | engineUnitTestDone (quad : Quad) (kind : EngineKind) (unit : Fin 8) (pass : Bool)
  | memoryRebuildDone (quad : Quad)
  /-- Spilled frames of `mib` MiB return to processing. -/
  | spillReturn (mib : Nat)
  /-- A word fetched by a core that the encoding rules refuse (R333). -/
  | kUnassigned (core : CoreId) (word : Word)
deriving DecidableEq, Repr

end Sys2Proof
end

