-- ==== Sys2Proof/Decode.lean ====
section
/-! DEFINITION. The words of spec/opcode_table.json: no row of the table has bits, so no word spells a
command. (The instruction words of the Kwalia cores are data of a program's CODE; their encoding is in
Machine/Encoding.lean.) -/

namespace Sys2Proof

/-- The command that a word of the table spells: none, for no row gives bits. -/
def decodeTableWord (_nbits _w : Nat) : Option Instr := none

end Sys2Proof
end

