-- ==== Sys2Proof/Machine/Bits.lean ====
section
/-! DEFINITION. Tables, byte strings and bit fields: the operations on `KV` tables and memories, the
byte orders, and the reading and writing of bit fields. -/

namespace Sys2Proof

variable {α : Type}

/-- The value under a key, if the table lists it. -/
def KV.get? : List (Nat × α) → Nat → Option α
  | [], _ => none
  | (k, v) :: m, a => if a = k then some v else KV.get? m a

/-- The value under a key, or `d` where the table lists none. -/
def KV.getD (d : α) (m : List (Nat × α)) (a : Nat) : α := (KV.get? m a).getD d

/-- The table without a key. -/
def KV.del : List (Nat × α) → Nat → List (Nat × α)
  | [], _ => []
  | (k, v) :: m, a => if a = k then KV.del m a else (k, v) :: KV.del m a

/-- The table with `v` under key `a`, the keys still rising. -/
def KV.put : List (Nat × α) → Nat → α → List (Nat × α)
  | [], a, v => [(a, v)]
  | (k, w) :: m, a, v =>
    if a < k then (a, v) :: (k, w) :: m
    else if a = k then (a, v) :: m
    else (k, w) :: KV.put m a v

/-- Write under the convention that an unlisted key reads as `d`: writing `d` removes the entry. -/
def KV.set [DecidableEq α] (d : α) (m : List (Nat × α)) (a : Nat) (v : α) : List (Nat × α) :=
  if v = d then KV.del m a else KV.put m a v

/-- Change the value under a key, reading `d` where none is listed. -/
def KV.modify (d : α) (m : List (Nat × α)) (a : Nat) (f : α → α) : List (Nat × α) :=
  KV.put m a (f (KV.getD d m a))

/-- Change the value under a key that is listed; nothing otherwise. -/
def KV.adjust : List (Nat × α) → Nat → (α → α) → List (Nat × α)
  | [], _, _ => []
  | (k, v) :: m, a, f => if a = k then (k, f v) :: m else (k, v) :: KV.adjust m a f

/-- The values, in ascending key. -/
def KV.vals (m : List (Nat × α)) : List α := m.map Prod.snd

/-- The keys strictly rise from `lo` on. -/
def KV.risingFrom (lo : Nat) : List (Nat × α) → Bool
  | [] => true
  | (k, _) :: m => decide (lo ≤ k) && KV.risingFrom (k + 1) m

/-- No entry equals what an unlisted key reads as. -/
def KV.noDefault [DecidableEq α] (d : α) (m : List (Nat × α)) : Bool :=
  m.all fun p => decide (p.2 ≠ d)

/-- The canonical form of a table with default `d`. -/
def KV.wf [DecidableEq α] (d : α) (m : List (Nat × α)) : Bool :=
  KV.risingFrom 0 m && KV.noDefault d m


/-- One byte. -/
def Mem.read (m : Mem) (a : Nat) : Byte := KV.getD 0 m a
/-- Write one byte. -/
def Mem.write (m : Mem) (a : Nat) (v : Byte) : Mem := KV.set 0 m a v
/-- `n` bytes from address `a`. -/
def Mem.readBytes (m : Mem) (a : Nat) : Nat → List Byte
  | 0 => []
  | n + 1 => Mem.read m a :: Mem.readBytes m (a + 1) n
/-- Write a list of bytes from address `a`. -/
def Mem.writeBytes (m : Mem) (a : Nat) : List Byte → Mem
  | [] => m
  | b :: bs => Mem.writeBytes (Mem.write m a b) (a + 1) bs
/-- The canonical form: addresses strictly rise and no byte listed is zero. -/
abbrev Mem.wf (m : Mem) : Bool := KV.wf 0 m

/-- Little-endian value of a list of bytes. -/
def leNat : List Byte → Nat
  | [] => 0
  | b :: bs => b.toNat + 256 * leNat bs

/-- `n` bytes of a number, low byte first. -/
def leBytes : Nat → Nat → List Byte
  | 0, _ => []
  | n + 1, v => BitVec.ofNat 8 v :: leBytes n (v / 256)

/-- Big-endian value of a list of bytes. -/
def beNat (l : List Byte) : Nat := l.foldl (fun a b => a * 256 + b.toNat) 0

/-- `n` zero bytes. -/
def zeros (n : Nat) : List Byte := List.replicate n 0

/-- Bits `hi` down to `lo` of a number. -/
def bitsOf (w hi lo : Nat) : Nat := (w / 2 ^ lo) % 2 ^ (hi + 1 - lo)

/-- The number `w` with bits `hi` down to `lo` replaced by `v`. -/
def setBits (w hi lo v : Nat) : Nat :=
  w - bitsOf w hi lo * 2 ^ lo + (v % 2 ^ (hi + 1 - lo)) * 2 ^ lo

/-- Ceiling division. -/
def cdiv (a b : Nat) : Nat := (a + b - 1) / b

/-- Bytes `off` to `off + n - 1` of a list, padded with zeros where it ends early. -/
def sliceB (l : List Byte) (off n : Nat) : List Byte :=
  let t := (l.drop off).take n
  t ++ zeros (n - t.length)

/-- Put bytes into a list at an offset, with zeros before it where the list is shorter. -/
def putB (l : List Byte) (off : Nat) (bs : List Byte) : List Byte :=
  sliceB l 0 off ++ bs ++ l.drop (off + bs.length)

end Sys2Proof
end

