-- ==== Sys2Proof/Config.lean ====
section
/-! DEFINITION. What the spec leaves to a value it does not give, and the functions of the public standards it
names without restating (R3, R5). Each is an opaque constant: nothing can evaluate it, so what is proved
holds for whatever it is. -/

namespace Sys2Proof.Config

/-- The free values: draw `n` of the TRNG, of a counter in a clock the model does not keep, or of a result
the spec does not state. -/
opaque freeValue : Nat → Nat

/-! FIPS 180-4 and FIPS 202 (R394). -/
opaque sha256 : List Byte → List Byte
opaque sha384 : List Byte → List Byte
opaque sha512 : List Byte → List Byte
opaque sha3x256 : List Byte → List Byte
opaque sha3x384 : List Byte → List Byte
/-- The NVMe 64-bit CRC (R394). -/
opaque crc64 : List Byte → Nat
/-- RFC 3394 unwrap of the second argument under the first: the material where the integrity check passes. -/
opaque keyUnwrap : List Byte → List Byte → Option (List Byte)
/-- 97 bytes are an uncompressed point of brainpoolP384r1 (RFC 5639). -/
opaque onCurve : List Byte → Bool
/-- ECDSA on brainpoolP384r1 over a digest: public key, digest, r and s. -/
opaque ecdsaOk : List Byte → List Byte → List Byte → Bool
/-- The ECDSA signature of a digest under the device identity key (R413): r then s, 96 bytes. -/
opaque identitySign : List Byte → List Byte
/-- Digest of the vendor key in fuse slot `n` (R410). -/
opaque fuseDigest : Nat → List Byte
/-- The device certificate and its intermediates, leaf first (R413). -/
opaque certificates : List Byte
/-- The module's eight-character serial number (R111). -/
opaque serial : List Byte
/-- The fuse slot that verified the running image of a class (one byte) and the image's digest (R415): 8 × firmware slot + class. -/
opaque measure : Nat → List Byte
/-- Compressed form of data: format of R374, level, width code and delta (TRL), flush point (R375). Of DEFLATE,
zlib, gzip and Zstandard the standard fixes what the output decodes to, not its bytes. -/
opaque compress : Nat → Nat → Nat → List Byte → List Byte
/-- Decoding of formats 0 to 3 (R375, R386): a status code of R386, 0 for success, and the decoded data. -/
opaque inflate : Nat → List Byte → Nat → Nat × List Byte
/-- The content size that a Zstandard frame declares (RFC 8878). -/
opaque zstdContent : List Byte → Option Nat
/-- The cookie of a connection attempt under a key (R100). -/
opaque synCookie : Nat → List Byte → BitVec 32
/-- The DH-HMAC-CHAP response to a challenge: hash, group, key, challenge number (R102). -/
opaque chapResponse : Nat → Nat → List Byte → Nat → List Byte
/-- Protection information of a sector agrees with its data and the reference (R165): type, guard width,
sector and metadata, expected reference tag, application tag. -/
opaque guardOf : Nat → List Byte → Nat
/-- SHA-256 of a host NQN, by the number the model gives the host (R404). -/
opaque hostDigest : Nat → List Byte
/-- Bits [39:6] of the DRAM address of a line of a program's copy or of an overflow-pool buffer, by the model's number
of the line (R216). -/
opaque dramLine : Nat → Nat
/-- MINOR of a page type's layout in the firmware of a slot (R32): slot, page type. -/
opaque minor : Nat → Nat → Nat
/-- Identify data where the spec gives no value: CNS, NSID, instance. -/
opaque identify : Nat → Nat → Nat → List Byte
/-- Log page data where the spec gives no value: number of the draw, log page. -/
opaque logPage : Nat → Nat → List Byte
/-- A controller property where the spec gives no value (R461). -/
opaque property : Nat → Nat
/-- NVMe-MI response data where the spec gives no value: number of the draw, what is asked. -/
opaque miData : Nat → Nat → List Byte

/-- The MAC address of sub-link 0 of a port (R78). -/
opaque mac : Nat → Nat
/-- Present frequency of a quadrant's tenant clusters under DVFS (R20): quadrant and time. -/
opaque cpuMhz : Nat → Nat → Nat
/-- Codewords that a sub-link's FEC has corrected (NET.CNT 0): 4 × port + sub-link, and time. -/
opaque corrected : Nat → Nat → Nat

end Sys2Proof.Config
end

