-- ==== Sys2Proof/Machine/RegMap.lean ====
section
/-! DEFINITION. The register maps of spec/: one `Field` for each defined field of each page type, with
its offset, bits, access code, start or factory value, whether it is kept, and the values a COMMIT
accepts in it (R32, R40, R42, R46, and each page's own map). Reserved bits and registers have no entry
(R6). A field's name is PAGE_REGISTER_FIELD of the spec. -/

namespace Sys2Proof

/-- The access codes (R40). -/
inductive Access where
  | ro | rw | rws | w1c | w1s | wo
deriving DecidableEq, Repr

/-- A field of a page's register map. An array of `cnt` like words stands at `off`, `off + 4`, and so
on. `start` is the start value, or the factory value where `kept` (R46). A COMMIT accepts staged values
from `min` to `max` (R43, reason RANGE). -/
structure Field where
  off : Nat
  cnt : Nat
  hi : Nat
  lo : Nat
  acc : Access
  start : Nat
  kept : Bool
  min : Nat
  max : Nat
deriving DecidableEq, Repr

/-! The type codes of the pages (R29). -/

def PT.DEV : Nat := 0x1
def PT.MODE : Nat := 0x2
def PT.CLK : Nat := 0x3
def PT.PWR : Nat := 0x4
def PT.HOLD : Nat := 0x5
def PT.SENS : Nat := 0x6
def PT.LOG : Nat := 0x7
def PT.SEC : Nat := 0x8
def PT.NET : Nat := 0x10
def PT.NETX : Nat := 0x12
def PT.CLS : Nat := 0x13
def PT.CMD : Nat := 0x18
def PT.ARB : Nat := 0x19
def PT.INSTM : Nat := 0x1a
def PT.MEDIA : Nat := 0x20
def PT.MAPC : Nat := 0x21
def PT.PAR : Nat := 0x22
def PT.TEST : Nat := 0x30
def PT.QCTL : Nat := 0x40
def PT.LANE : Nat := 0x41
def PT.MEM : Nat := 0x42
def PT.CLU : Nat := 0x43
def PT.TSK : Nat := 0x48
def PT.BUF : Nat := 0x49
def PT.MAT : Nat := 0x4a
def PT.CMP : Nat := 0x4b
def PT.DIG : Nat := 0x4c
def PT.XTS : Nat := 0x4d
def PT.INST : Nat := 0x80


/-! MODE (spec/03_modes_and_start.md) -/

def Fd.MODE_MODE_CUR_MODE : Field := ⟨0x40, 1, 2, 0, .ro, 1, false, 0, 7⟩
def Fd.MODE_MODE_CUR_STAGE : Field := ⟨0x40, 1, 7, 4, .ro, 0, false, 0, 15⟩
def Fd.MODE_MODE_CUR_METHOD : Field := ⟨0x40, 1, 9, 8, .ro, 0, false, 0, 3⟩
def Fd.MODE_MODE_CUR_PREV : Field := ⟨0x40, 1, 14, 12, .ro, 0, false, 0, 7⟩
def Fd.MODE_MODE_CUR_START_HOLD : Field := ⟨0x40, 1, 16, 16, .ro, 0, true, 0, 1⟩
def Fd.MODE_MODE_REQ_REQ : Field := ⟨0x44, 1, 3, 0, .wo, 0, false, 0, 15⟩
def Fd.MODE_REDUCED_CAUSE_BANDS : Field := ⟨0x48, 1, 0, 0, .ro, 0, false, 0, 1⟩
def Fd.MODE_REDUCED_CAUSE_CORES : Field := ⟨0x48, 1, 1, 1, .ro, 0, false, 0, 1⟩
def Fd.MODE_REDUCED_CAUSE_CLUSTER : Field := ⟨0x48, 1, 2, 2, .ro, 0, false, 0, 1⟩
def Fd.MODE_REDUCED_CAUSE_MEDIA_CORES : Field := ⟨0x48, 1, 3, 3, .ro, 0, false, 0, 1⟩
def Fd.MODE_REDUCED_CAUSE_ENGINES : Field := ⟨0x48, 1, 4, 4, .ro, 0, false, 0, 1⟩
def Fd.MODE_REDUCED_CAUSE_LINK : Field := ⟨0x48, 1, 5, 5, .ro, 0, false, 0, 1⟩
def Fd.MODE_REDUCED_CAUSE_MP : Field := ⟨0x48, 1, 6, 6, .ro, 0, false, 0, 1⟩
def Fd.MODE_PRESERVE_CAUSE_SPARES : Field := ⟨0x4c, 1, 0, 0, .ro, 0, true, 0, 1⟩
def Fd.MODE_PRESERVE_CAUSE_MEDIA : Field := ⟨0x4c, 1, 1, 1, .ro, 0, true, 0, 1⟩
def Fd.MODE_PRESERVE_CAUSE_DRAM : Field := ⟨0x4c, 1, 2, 2, .ro, 0, true, 0, 1⟩
def Fd.MODE_PRESERVE_CAUSE_PORTS : Field := ⟨0x4c, 1, 3, 3, .ro, 0, true, 0, 1⟩
def Fd.MODE_PRESERVE_CAUSE_HOLDUP : Field := ⟨0x4c, 1, 4, 4, .ro, 0, true, 0, 1⟩
def Fd.MODE_PRESERVE_CAUSE_QUADRANT : Field := ⟨0x4c, 1, 5, 5, .ro, 0, true, 0, 1⟩
def Fd.MODE_PRESERVE_CAUSE_FLUSH : Field := ⟨0x4c, 1, 6, 6, .ro, 0, true, 0, 1⟩
def Fd.MODE_PRESERVE_CAUSE_MANAGER : Field := ⟨0x4c, 1, 7, 7, .ro, 0, true, 0, 1⟩
def Fd.MODE_PRESERVE_CAUSE_STORE : Field := ⟨0x4c, 1, 8, 8, .ro, 0, true, 0, 1⟩
def Fd.MODE_PRESERVE_CAUSE_REGS : Field := ⟨0x4c, 1, 9, 9, .ro, 0, true, 0, 1⟩
def Fd.MODE_START_CTRL_AUTO : Field := ⟨0x50, 1, 0, 0, .rws, 1, true, 0, 1⟩
def Fd.MODE_START_CTRL_AUTO_RETURN : Field := ⟨0x50, 1, 1, 1, .rws, 1, true, 0, 1⟩
def Fd.MODE_START_CTRL_DRAIN_LIMIT : Field := ⟨0x50, 1, 15, 8, .rws, 5, true, 1, 60⟩
def Fd.MODE_STAGE_TIME_MS : Field := ⟨0x54, 1, 31, 0, .ro, 0, false, 0, 4294967295⟩
def Fd.MODE_SKIP_LATCH_SEP : Field := ⟨0x58, 1, 8, 8, .w1c, 0, true, 0, 1⟩
def Fd.MODE_SKIP_LATCH_OCT : Field := ⟨0x58, 1, 9, 9, .w1c, 0, true, 0, 1⟩
def Fd.MODE_SKIP_LATCH_NOV_P0 : Field := ⟨0x58, 1, 11, 11, .w1c, 0, true, 0, 1⟩
def Fd.MODE_SKIP_LATCH_NOV_P1 : Field := ⟨0x58, 1, 12, 12, .w1c, 0, true, 0, 1⟩
def Fd.MODE_LEDGER_SEL_INDEX : Field := ⟨0x60, 1, 3, 0, .rw, 0, false, 0, 15⟩
def Fd.MODE_LEDGER_STARTS_START_NO : Field := ⟨0x64, 1, 31, 0, .ro, 0, true, 0, 4294967295⟩
def Fd.MODE_RESTORE_STATUS_RESTORED : Field := ⟨0x68, 1, 9, 0, .ro, 0, false, 0, 1023⟩
def Fd.MODE_RESTORE_STATUS_FACTORY : Field := ⟨0x68, 1, 19, 10, .ro, 0, false, 0, 1023⟩
def Fd.MODE_RESTORE_STATUS_ALT : Field := ⟨0x68, 1, 25, 20, .ro, 0, false, 0, 63⟩
def Fd.MODE_RESTORE_STATUS_LIST_FULL : Field := ⟨0x68, 1, 26, 26, .ro, 0, false, 0, 1⟩
def Fd.MODE_RESTORE_STATUS_COPY_A_OK : Field := ⟨0x68, 1, 27, 27, .ro, 0, false, 0, 1⟩
def Fd.MODE_RESTORE_STATUS_COPY_B_OK : Field := ⟨0x68, 1, 28, 28, .ro, 0, false, 0, 1⟩
def Fd.MODE_SHUTDOWN_STATUS_LAST : Field := ⟨0x6c, 1, 2, 0, .ro, 0, true, 0, 7⟩
def Fd.MODE_SHUTDOWN_STATUS_STEP : Field := ⟨0x6c, 1, 7, 4, .ro, 0, true, 0, 15⟩
def Fd.MODE_LEDGER_DATA_DATA : Field := ⟨0x80, 32, 31, 0, .ro, 0, true, 0, 4294967295⟩
def Fd.MODE_STAGE_FORCE_FORCE0 : Field := ⟨0x400, 1, 1, 0, .rws, 0, true, 0, 2⟩
def Fd.MODE_STAGE_FORCE_FORCE1 : Field := ⟨0x400, 1, 3, 2, .rws, 0, true, 0, 2⟩
def Fd.MODE_STAGE_FORCE_FORCE2 : Field := ⟨0x400, 1, 5, 4, .rws, 0, true, 0, 2⟩
def Fd.MODE_STAGE_FORCE_FORCE3 : Field := ⟨0x400, 1, 7, 6, .rws, 0, true, 0, 2⟩
def Fd.MODE_STAGE_FORCE_FORCE4 : Field := ⟨0x400, 1, 9, 8, .rws, 0, true, 0, 2⟩
def Fd.MODE_STAGE_FORCE_FORCE5 : Field := ⟨0x400, 1, 11, 10, .rws, 0, true, 0, 2⟩
def Fd.MODE_STAGE_FORCE_FORCE6 : Field := ⟨0x400, 1, 13, 12, .rws, 0, true, 0, 2⟩
def Fd.MODE_STAGE_FORCE_FORCE7 : Field := ⟨0x400, 1, 15, 14, .rws, 0, true, 0, 2⟩
def Fd.MODE_STAGE_FORCE_FORCE8 : Field := ⟨0x400, 1, 17, 16, .rws, 0, true, 0, 3⟩
def Fd.MODE_STAGE_FORCE_FORCE9 : Field := ⟨0x400, 1, 19, 18, .rws, 0, true, 0, 3⟩
def Fd.MODE_STAGE_FORCE_FORCE10 : Field := ⟨0x400, 1, 21, 20, .rws, 0, true, 0, 2⟩
def Fd.MODE_STAGE_FORCE_FORCE11 : Field := ⟨0x400, 1, 23, 22, .rws, 0, true, 0, 3⟩
def Fd.MODE_STAGE_FORCE_FORCE12 : Field := ⟨0x400, 1, 25, 24, .rws, 0, true, 0, 3⟩
def Fd.MODE_STAGE_FORCE_FORCE13 : Field := ⟨0x400, 1, 27, 26, .rws, 0, true, 0, 2⟩
def Fd.MODE_RESTORE_FAIL_COUNT : Field := ⟨0x404, 1, 5, 0, .ro, 0, true, 0, 63⟩
def Fd.MODE_RESTORE_LIST_PAGE : Field := ⟨0x410, 32, 31, 0, .ro, 0, true, 0, 4294967295⟩

/-! NET (spec/04_network_edge.md) -/

def Fd.NET_NET_CTRL_ENABLE : Field := ⟨0x40, 1, 0, 0, .rws, 1, true, 0, 1⟩
def Fd.NET_NET_CTRL_BREAKOUT : Field := ⟨0x40, 1, 2, 1, .rws, 0, true, 0, 2⟩
def Fd.NET_NET_CTRL_MACSEC_MODE : Field := ⟨0x40, 1, 4, 3, .rws, 0, true, 0, 2⟩
def Fd.NET_NET_CTRL_MAX_FRAME : Field := ⟨0x40, 1, 29, 16, .rws, 9216, true, 1518, 9216⟩
def Fd.NET_NET_STATUS_LINK_UP : Field := ⟨0x44, 1, 3, 0, .ro, 0, false, 0, 15⟩
def Fd.NET_NET_STATUS_DEGRADED : Field := ⟨0x44, 1, 7, 4, .ro, 0, false, 0, 15⟩
def Fd.NET_NET_STATUS_LANE_LOCK : Field := ⟨0x44, 1, 15, 8, .ro, 0, false, 0, 255⟩
def Fd.NET_NET_STATUS_FAILED : Field := ⟨0x44, 1, 16, 16, .ro, 0, true, 0, 1⟩
def Fd.NET_NET_STATUS_SELFTEST : Field := ⟨0x44, 1, 17, 17, .ro, 0, false, 0, 1⟩
def Fd.NET_MAC_LO_ADDR : Field := ⟨0x48, 1, 31, 0, .ro, 0, false, 0, 4294967295⟩
def Fd.NET_MAC_HI_ADDR : Field := ⟨0x4c, 1, 15, 0, .ro, 0, false, 0, 65535⟩
def Fd.NET_FAULT_LIMIT_UNCORR : Field := ⟨0x50, 1, 15, 0, .rws, 100, true, 1, 65535⟩
def Fd.NET_PFC_CTRL_LOSSLESS : Field := ⟨0x54, 1, 7, 0, .rws, 8, true, 0, 255⟩
def Fd.NET_PFC_CTRL_WD_MS : Field := ⟨0x54, 1, 23, 16, .rws, 100, true, 10, 255⟩
def Fd.NET_ETS_BW_LO_TC0 : Field := ⟨0x58, 1, 7, 0, .rws, 12, true, 0, 255⟩
def Fd.NET_ETS_BW_LO_TC1 : Field := ⟨0x58, 1, 15, 8, .rws, 12, true, 0, 255⟩
def Fd.NET_ETS_BW_LO_TC2 : Field := ⟨0x58, 1, 23, 16, .rws, 12, true, 0, 255⟩
def Fd.NET_ETS_BW_LO_TC3 : Field := ⟨0x58, 1, 31, 24, .rws, 12, true, 0, 255⟩
def Fd.NET_ETS_BW_HI_TC0 : Field := ⟨0x5c, 1, 7, 0, .rws, 13, true, 0, 255⟩
def Fd.NET_ETS_BW_HI_TC1 : Field := ⟨0x5c, 1, 15, 8, .rws, 13, true, 0, 255⟩
def Fd.NET_ETS_BW_HI_TC2 : Field := ⟨0x5c, 1, 23, 16, .rws, 13, true, 0, 255⟩
def Fd.NET_ETS_BW_HI_TC3 : Field := ⟨0x5c, 1, 31, 24, .rws, 13, true, 0, 255⟩
def Fd.NET_ETS_STRICT_STRICT : Field := ⟨0x60, 1, 7, 0, .rws, 0, true, 0, 255⟩
def Fd.NET_CNT_SEL_SUB : Field := ⟨0x6c, 1, 1, 0, .rw, 0, false, 0, 3⟩
def Fd.NET_CNT_COUNT : Field := ⟨0x70, 8, 31, 0, .ro, 0, false, 0, 4294967295⟩
def Fd.NET_MACSEC_CTRL_REPLAY_WIN : Field := ⟨0x9c, 1, 31, 0, .rws, 0, true, 0, 4294967295⟩
def Fd.NET_MACSEC_SA_KEY_SLOT : Field := ⟨0xa0, 16, 9, 0, .rws, 0, true, 0, 1023⟩
def Fd.NET_MACSEC_SA_AN : Field := ⟨0xa0, 16, 11, 10, .rws, 0, true, 0, 3⟩
def Fd.NET_MACSEC_SA_VALID : Field := ⟨0xa0, 16, 12, 12, .rws, 0, true, 0, 1⟩
def Fd.NET_MACSEC_SA_ACTIVE : Field := ⟨0xa0, 16, 13, 13, .rws, 0, true, 0, 1⟩
def Fd.NET_EQ_LANE_EQ : Field := ⟨0x400, 8, 31, 0, .ro, 0, true, 0, 4294967295⟩
def Fd.NET_EQ_CLEAR_CLEAR : Field := ⟨0x420, 1, 0, 0, .w1s, 0, false, 0, 1⟩

/-! NETX (spec/04_network_edge.md) -/

def Fd.NETX_ADDR_SEL_INDEX : Field := ⟨0x40, 1, 8, 0, .rws, 0, false, 0, 511⟩
def Fd.NETX_ADDR_DATA_DATA : Field := ⟨0x44, 8, 31, 0, .rws, 0, true, 0, 4294967295⟩
def Fd.NETX_TCP_TIMER_RTO_MIN : Field := ⟨0x64, 1, 15, 0, .rws, 1000, true, 200, 10000⟩
def Fd.NETX_TCP_TIMER_RETRIES : Field := ⟨0x64, 1, 23, 16, .rws, 8, true, 3, 15⟩
def Fd.NETX_ROCE_TIMER_TIMEOUT : Field := ⟨0x68, 1, 4, 0, .rws, 14, true, 8, 20⟩
def Fd.NETX_ROCE_TIMER_RETRY : Field := ⟨0x68, 1, 7, 5, .rws, 7, true, 0, 7⟩
def Fd.NETX_ROCE_TIMER_RNR_RETRY : Field := ⟨0x68, 1, 10, 8, .rws, 7, true, 0, 7⟩
def Fd.NETX_ECN_KMIN : Field := ⟨0x6c, 1, 7, 0, .rws, 16, true, 0, 255⟩
def Fd.NETX_ECN_KMAX : Field := ⟨0x6c, 1, 15, 8, .rws, 40, true, 0, 255⟩
def Fd.NETX_ECN_PMAX : Field := ⟨0x6c, 1, 23, 16, .rws, 20, true, 1, 100⟩
def Fd.NETX_SPILL_ON : Field := ⟨0x70, 1, 7, 0, .rws, 48, true, 0, 255⟩
def Fd.NETX_SPILL_ENABLE : Field := ⟨0x70, 1, 8, 8, .rws, 1, true, 0, 1⟩
def Fd.NETX_CONN_COOKIE_AT : Field := ⟨0x74, 1, 15, 0, .rws, 32768, true, 1, 65535⟩
def Fd.NETX_CONN_COOKIE_ALWAYS : Field := ⟨0x74, 1, 16, 16, .rws, 0, true, 0, 1⟩
def Fd.NETX_TLS_AES256 : Field := ⟨0x78, 1, 0, 0, .rws, 1, true, 0, 1⟩
def Fd.NETX_TLS_AES128 : Field := ⟨0x78, 1, 1, 1, .rws, 1, true, 0, 1⟩
def Fd.NETX_TLS_X25519 : Field := ⟨0x78, 1, 2, 2, .rws, 1, true, 0, 1⟩
def Fd.NETX_TLS_SECP384 : Field := ⟨0x78, 1, 3, 3, .rws, 1, true, 0, 1⟩
def Fd.NETX_AUTH_SHA256 : Field := ⟨0x7c, 1, 0, 0, .rws, 1, true, 0, 1⟩
def Fd.NETX_AUTH_SHA384 : Field := ⟨0x7c, 1, 1, 1, .rws, 1, true, 0, 1⟩
def Fd.NETX_AUTH_SHA512 : Field := ⟨0x7c, 1, 2, 2, .rws, 1, true, 0, 1⟩
def Fd.NETX_AUTH_NULL_DH : Field := ⟨0x7c, 1, 4, 4, .rws, 0, true, 0, 1⟩
def Fd.NETX_AUTH_FFDHE3072 : Field := ⟨0x7c, 1, 5, 5, .rws, 1, true, 0, 1⟩
def Fd.NETX_AUTH_FFDHE4096 : Field := ⟨0x7c, 1, 6, 6, .rws, 1, true, 0, 1⟩
def Fd.NETX_AUTH_FFDHE8192 : Field := ⟨0x7c, 1, 7, 7, .rws, 1, true, 0, 1⟩
def Fd.NETX_CONN_STATUS_TCP : Field := ⟨0x80, 1, 14, 0, .ro, 0, false, 0, 32767⟩
def Fd.NETX_CONN_STATUS_ROCE : Field := ⟨0x80, 1, 30, 16, .ro, 0, false, 0, 32767⟩
def Fd.NETX_BUF_STATUS_SRAM_KIB : Field := ⟨0x84, 1, 16, 0, .ro, 0, false, 0, 131071⟩
def Fd.NETX_BUF_STATUS_SPILL_MIB : Field := ⟨0x84, 1, 28, 17, .ro, 0, false, 0, 4095⟩
def Fd.NETX_BUF_STATUS_SPILLING : Field := ⟨0x84, 1, 29, 29, .ro, 0, false, 0, 1⟩
def Fd.NETX_BUF_STATUS_COOKIES : Field := ⟨0x84, 1, 30, 30, .ro, 0, false, 0, 1⟩
def Fd.NETX_CNT_COUNT : Field := ⟨0x90, 8, 31, 0, .ro, 0, false, 0, 4294967295⟩
def Fd.NETX_RC1_G_LOG2 : Field := ⟨0x400, 1, 7, 0, .rws, 8, true, 4, 10⟩
def Fd.NETX_RC1_T_ALPHA : Field := ⟨0x400, 1, 15, 8, .rws, 55, true, 0, 255⟩
def Fd.NETX_RC1_T_INC : Field := ⟨0x400, 1, 31, 16, .rws, 300, true, 0, 65535⟩
def Fd.NETX_RC2_RAI : Field := ⟨0x404, 1, 15, 0, .rws, 40, true, 0, 65535⟩
def Fd.NETX_RC2_RHAI : Field := ⟨0x404, 1, 31, 16, .rws, 400, true, 0, 65535⟩
def Fd.NETX_RC3_RMIN : Field := ⟨0x408, 1, 15, 0, .rws, 10, true, 0, 65535⟩
def Fd.NETX_RC3_F : Field := ⟨0x408, 1, 23, 16, .rws, 5, true, 1, 15⟩
def Fd.NETX_RC3_T_CUT : Field := ⟨0x408, 1, 31, 24, .rws, 50, true, 0, 255⟩
def Fd.NETX_RC4_RTT_HIGH : Field := ⟨0x40c, 1, 15, 0, .rws, 200, true, 0, 65535⟩
def Fd.NETX_RC4_RTT_ENABLE : Field := ⟨0x40c, 1, 16, 16, .rws, 1, true, 0, 1⟩

/-! CLS (spec/04_network_edge.md) -/

def Fd.CLS_RULE_SEL_INDEX : Field := ⟨0x40, 1, 12, 0, .rws, 0, false, 0, 8191⟩
def Fd.CLS_RULE_DATA_DATA : Field := ⟨0x44, 8, 31, 0, .rws, 0, true, 0, 4294967295⟩
def Fd.CLS_REVOKE_INDEX : Field := ⟨0x64, 1, 12, 0, .wo, 0, false, 0, 8191⟩
def Fd.CLS_REVOKE_GO : Field := ⟨0x64, 1, 31, 31, .wo, 0, false, 0, 1⟩
def Fd.CLS_CLS_STATUS_VALID_RULES : Field := ⟨0x68, 1, 13, 0, .ro, 0, false, 0, 16383⟩
def Fd.CLS_CLS_STATUS_HELD_OFF : Field := ⟨0x68, 1, 26, 16, .ro, 0, false, 0, 2047⟩
def Fd.CLS_RATE_RATE : Field := ⟨0x80, 16, 19, 0, .rws, 1000, true, 1, 1048575⟩
def Fd.CLS_RATE_BURST : Field := ⟨0x80, 16, 31, 20, .rws, 64, true, 1, 4095⟩
def Fd.CLS_CNT_COUNT : Field := ⟨0xc0, 8, 31, 0, .ro, 0, false, 0, 4294967295⟩
def Fd.CLS_HOLDOFF_FAILS : Field := ⟨0x400, 1, 7, 0, .rws, 4, true, 1, 255⟩
def Fd.CLS_HOLDOFF_WINDOW : Field := ⟨0x400, 1, 15, 8, .rws, 60, true, 0, 255⟩
def Fd.CLS_HOLDOFF_HOLD : Field := ⟨0x400, 1, 23, 16, .rws, 60, true, 0, 255⟩

/-! CMD (spec/05_command_path.md) -/

def Fd.CMD_XFER_TIMEOUT_MS : Field := ⟨0x40, 1, 15, 0, .rws, 2000, true, 100, 60000⟩
def Fd.CMD_KATO_MAX_S : Field := ⟨0x44, 1, 7, 0, .rws, 120, true, 1, 255⟩
def Fd.CMD_CTX_STATUS_IO_USED : Field := ⟨0x48, 1, 17, 0, .ro, 0, false, 0, 262143⟩
def Fd.CMD_CTX_STATUS_ADMIN_USED : Field := ⟨0x48, 1, 31, 18, .ro, 0, false, 0, 16383⟩
def Fd.CMD_ACT_STATUS_ADMIT_STOPPED : Field := ⟨0x4c, 1, 0, 0, .ro, 0, false, 0, 1⟩
def Fd.CMD_ACT_STATUS_LAST_PAUSE_US : Field := ⟨0x4c, 1, 31, 8, .ro, 0, false, 0, 16777215⟩
def Fd.CMD_CNT_COUNT : Field := ⟨0x60, 8, 31, 0, .ro, 0, false, 0, 4294967295⟩

/-! ARB (spec/05_command_path.md) -/

def Fd.ARB_ROUNDS_COUNT : Field := ⟨0x40, 1, 31, 0, .ro, 0, false, 0, 4294967295⟩
def Fd.ARB_INST_SEL_INDEX : Field := ⟨0x44, 1, 7, 0, .rw, 0, false, 0, 255⟩
def Fd.ARB_DEFICIT_D : Field := ⟨0x48, 1, 31, 0, .ro, 0, false, 0, 4294967295⟩
def Fd.ARB_URGENT_UD : Field := ⟨0x4c, 1, 31, 0, .ro, 0, false, 0, 4294967295⟩
def Fd.ARB_CTX_HELD_HELD : Field := ⟨0x50, 1, 17, 0, .ro, 0, false, 0, 262143⟩
def Fd.ARB_CTX_LIMIT_LIMIT : Field := ⟨0x54, 1, 17, 0, .ro, 0, false, 0, 262143⟩
def Fd.ARB_INST_STATE_BACKLOG : Field := ⟨0x58, 1, 0, 0, .ro, 0, false, 0, 1⟩
def Fd.ARB_INST_STATE_OVER_LIMIT : Field := ⟨0x58, 1, 1, 1, .ro, 0, false, 0, 1⟩
def Fd.ARB_UD_CAP_ROUNDS : Field := ⟨0x400, 1, 7, 0, .rws, 16, true, 1, 64⟩

/-! INSTM (spec/06_instances.md) -/

def Fd.INSTM_ENABLE_EN_0 : Field := ⟨0x40, 1, 31, 1, .rws, 0, true, 0, 2147483647⟩
def Fd.INSTM_ENABLE_EN0 : Field := ⟨0x40, 1, 0, 0, .ro, 1, false, 0, 1⟩
def Fd.INSTM_ENABLE_EN : Field := ⟨0x44, 7, 31, 0, .rws, 0, true, 0, 4294967295⟩
def Fd.INSTM_CFG_SEL_INDEX : Field := ⟨0x60, 1, 7, 0, .rws, 0, false, 0, 255⟩
def Fd.INSTM_CFG_CAP_QUOTA_GB : Field := ⟨0x64, 1, 20, 0, .rws, 6250, true, 0, 1600000⟩
def Fd.INSTM_CFG_URG_TARGET_US : Field := ⟨0x68, 1, 15, 0, .rws, 1000, true, 50, 60000⟩
def Fd.INSTM_ACTION_INDEX : Field := ⟨0x80, 1, 7, 0, .wo, 0, false, 0, 255⟩
def Fd.INSTM_ACTION_OP : Field := ⟨0x80, 1, 11, 8, .wo, 0, false, 0, 15⟩
def Fd.INSTM_ACTION_GO : Field := ⟨0x80, 1, 31, 31, .wo, 0, false, 0, 1⟩
def Fd.INSTM_ACTION_STATUS_BUSY : Field := ⟨0x84, 1, 0, 0, .ro, 0, false, 0, 1⟩
def Fd.INSTM_ACTION_STATUS_RESULT : Field := ⟨0x84, 1, 3, 1, .ro, 0, false, 0, 7⟩
def Fd.INSTM_ENABLED_COUNT_COUNT : Field := ⟨0x88, 1, 8, 0, .ro, 1, false, 0, 511⟩
def Fd.INSTM_MBO_SEL_INDEX : Field := ⟨0x90, 1, 7, 0, .rw, 0, false, 0, 255⟩
def Fd.INSTM_MBO_SEND_GO : Field := ⟨0x94, 1, 31, 31, .wo, 0, false, 0, 1⟩
def Fd.INSTM_MBO_STATUS_RESULT : Field := ⟨0x98, 1, 1, 0, .ro, 0, false, 0, 3⟩
def Fd.INSTM_MBO_STATUS_QUEUED : Field := ⟨0x98, 1, 12, 8, .ro, 0, false, 0, 31⟩
def Fd.INSTM_MBI_ACK_INDEX : Field := ⟨0x9c, 1, 7, 0, .wo, 0, false, 0, 255⟩
def Fd.INSTM_MBI_ACK_GO : Field := ⟨0x9c, 1, 31, 31, .wo, 0, false, 0, 1⟩
def Fd.INSTM_MBI_PEND_PEND : Field := ⟨0xa0, 8, 31, 0, .ro, 0, false, 0, 4294967295⟩
def Fd.INSTM_NOTICE_SEQ_LAST : Field := ⟨0xc0, 1, 31, 0, .ro, 0, true, 0, 4294967295⟩
def Fd.INSTM_MBO_DATA_DATA : Field := ⟨0x100, 64, 31, 0, .rw, 0, false, 0, 4294967295⟩
def Fd.INSTM_SHARE_CTRL_EXPLICIT : Field := ⟨0x400, 1, 0, 0, .rws, 0, true, 0, 1⟩
def Fd.INSTM_SHARE_UNITS_0 : Field := ⟨0x800, 1, 12, 0, .rws, 4096, true, 0, 4096⟩
def Fd.INSTM_SHARE_UNITS : Field := ⟨0x804, 255, 12, 0, .rws, 0, true, 0, 4096⟩

/-! INST (spec/06_instances.md) -/

def Fd.INST_INFO_INSTANCE : Field := ⟨0x40, 1, 7, 0, .ro, 0, false, 0, 255⟩
def Fd.INST_INFO_ENABLED : Field := ⟨0x40, 1, 8, 8, .ro, 0, true, 0, 1⟩
def Fd.INST_GEN_GENERATION : Field := ⟨0x44, 1, 15, 0, .ro, 1, true, 0, 65535⟩
def Fd.INST_GEN_RESETTING : Field := ⟨0x44, 1, 16, 16, .ro, 0, false, 0, 1⟩
def Fd.INST_SHARE_UNITS : Field := ⟨0x48, 1, 12, 0, .ro, 0, false, 0, 8191⟩
def Fd.INST_SHARE_SETTLED : Field := ⟨0x48, 1, 16, 16, .ro, 0, false, 0, 1⟩
def Fd.INST_SLM_ENTITLED_MIB : Field := ⟨0x4c, 1, 16, 0, .ro, 0, false, 0, 131071⟩
def Fd.INST_SLM_USED_USED_MIB : Field := ⟨0x50, 1, 16, 0, .ro, 0, false, 0, 131071⟩
def Fd.INST_CAP_QUOTA_GB : Field := ⟨0x54, 1, 20, 0, .ro, 6250, true, 0, 2097151⟩
def Fd.INST_CAP_USED_USED_GB : Field := ⟨0x58, 1, 20, 0, .ro, 0, false, 0, 2097151⟩
def Fd.INST_URG_TARGET_US : Field := ⟨0x5c, 1, 15, 0, .ro, 1000, true, 0, 65535⟩
def Fd.INST_RESET_GO : Field := ⟨0x60, 1, 0, 0, .w1s, 0, false, 0, 1⟩
def Fd.INST_URG_LATE_COUNT : Field := ⟨0x68, 1, 31, 0, .ro, 0, false, 0, 4294967295⟩
def Fd.INST_T2M_DATA_DATA : Field := ⟨0x100, 64, 31, 0, .rw, 0, false, 0, 4294967295⟩
def Fd.INST_T2M_DOORBELL_RING : Field := ⟨0x200, 1, 0, 0, .w1s, 0, false, 0, 1⟩
def Fd.INST_T2M_STATUS_PENDING : Field := ⟨0x204, 1, 0, 0, .ro, 0, false, 0, 1⟩
def Fd.INST_T2M_STATUS_ACKED : Field := ⟨0x204, 1, 1, 1, .ro, 0, false, 0, 1⟩
def Fd.INST_T2M_STATUS_LOST : Field := ⟨0x204, 1, 2, 2, .ro, 0, false, 0, 1⟩
def Fd.INST_T2M_STATUS_SEQ : Field := ⟨0x204, 1, 31, 16, .ro, 0, false, 0, 65535⟩
def Fd.INST_M2T_DATA_DATA : Field := ⟨0x280, 64, 31, 0, .ro, 0, false, 0, 4294967295⟩
def Fd.INST_M2T_STATUS_FULL : Field := ⟨0x380, 1, 0, 0, .ro, 0, false, 0, 1⟩
def Fd.INST_M2T_STATUS_SOURCE : Field := ⟨0x380, 1, 1, 1, .ro, 0, false, 0, 1⟩
def Fd.INST_M2T_STATUS_NOTICE_LOST : Field := ⟨0x380, 1, 2, 2, .ro, 0, false, 0, 1⟩
def Fd.INST_M2T_STATUS_QUEUED : Field := ⟨0x380, 1, 12, 8, .ro, 0, false, 0, 31⟩
def Fd.INST_M2T_STATUS_SEQ : Field := ⟨0x380, 1, 31, 16, .ro, 0, false, 0, 65535⟩
def Fd.INST_M2T_ACK_ACK : Field := ⟨0x384, 1, 0, 0, .w1s, 0, false, 0, 1⟩
def Fd.INST_M2T_ACK_CLEAR_LOST : Field := ⟨0x384, 1, 1, 1, .w1s, 0, false, 0, 1⟩

/-! MEDIA (spec/07_media_placement.md) -/

def Fd.MEDIA_SLC_CTRL_POOL_PCT : Field := ⟨0x40, 1, 3, 0, .rws, 8, true, 2, 8⟩
def Fd.MEDIA_SLC_CTRL_OPEN_SLC : Field := ⟨0x40, 1, 10, 8, .rws, 2, true, 1, 4⟩
def Fd.MEDIA_SLC_CTRL_FOLD_AGE_H : Field := ⟨0x40, 1, 23, 16, .rws, 24, true, 1, 255⟩
def Fd.MEDIA_FOLD_CTRL_FOLD_HI : Field := ⟨0x44, 1, 7, 0, .rws, 40, true, 5, 90⟩
def Fd.MEDIA_FOLD_CTRL_FOLD_URGENT : Field := ⟨0x44, 1, 15, 8, .rws, 10, true, 3, 50⟩
def Fd.MEDIA_FOLD_CTRL_RECLAIM_PCT : Field := ⟨0x44, 1, 23, 16, .rws, 25, true, 0, 75⟩
def Fd.MEDIA_FOLD_CTRL_FOLD_SHARE : Field := ⟨0x44, 1, 31, 24, .rws, 50, true, 10, 100⟩
def Fd.MEDIA_ROW_CLOSE_WAIT_US : Field := ⟨0x48, 1, 15, 0, .rws, 50, true, 10, 10000⟩
def Fd.MEDIA_ROW_CLOSE_IDLE_MS : Field := ⟨0x48, 1, 31, 16, .rws, 20, true, 1, 1000⟩
def Fd.MEDIA_STATUS_DIRECT : Field := ⟨0x4c, 1, 0, 0, .ro, 0, false, 0, 1⟩
def Fd.MEDIA_STATUS_FOLDING : Field := ⟨0x4c, 1, 1, 1, .ro, 0, false, 0, 1⟩
def Fd.MEDIA_STATUS_URGENT : Field := ⟨0x4c, 1, 2, 2, .ro, 0, false, 0, 1⟩
def Fd.MEDIA_STATUS_SLC_FREE_PCT : Field := ⟨0x4c, 1, 15, 8, .ro, 0, false, 0, 255⟩
def Fd.MEDIA_STATUS_OPEN_BANDS : Field := ⟨0x4c, 1, 23, 16, .ro, 0, false, 0, 255⟩
def Fd.MEDIA_SLC_FREE_BLOCKS : Field := ⟨0x50, 1, 22, 0, .ro, 0, false, 0, 8388607⟩
def Fd.MEDIA_QLC_FREE_BLOCKS : Field := ⟨0x54, 1, 22, 0, .ro, 0, false, 0, 8388607⟩
def Fd.MEDIA_PHYS_USED_GIB : Field := ⟨0x58, 1, 31, 0, .ro, 0, false, 0, 4294967295⟩
def Fd.MEDIA_PHYS_FREE_GIB : Field := ⟨0x5c, 1, 31, 0, .ro, 0, false, 0, 4294967295⟩
def Fd.MEDIA_BAND_SEL_BAND : Field := ⟨0x60, 1, 31, 0, .rw, 0, false, 0, 4294967295⟩
def Fd.MEDIA_BAND_INFO_STATE : Field := ⟨0x64, 1, 2, 0, .ro, 0, false, 0, 7⟩
def Fd.MEDIA_BAND_INFO_STREAM : Field := ⟨0x64, 1, 5, 3, .ro, 0, false, 0, 7⟩
def Fd.MEDIA_BAND_INFO_SLC : Field := ⟨0x64, 1, 6, 6, .ro, 0, false, 0, 1⟩
def Fd.MEDIA_BAND_INFO_UNREADABLE : Field := ⟨0x64, 1, 13, 8, .ro, 0, false, 0, 63⟩
def Fd.MEDIA_BAND_INFO_VALID : Field := ⟨0x64, 1, 25, 16, .ro, 0, false, 0, 1023⟩
def Fd.MEDIA_BAND_MEMBER_LANE : Field := ⟨0x80, 34, 5, 0, .ro, 0, false, 0, 63⟩
def Fd.MEDIA_BAND_MEMBER_DIE : Field := ⟨0x80, 34, 9, 6, .ro, 0, false, 0, 15⟩
def Fd.MEDIA_BAND_MEMBER_PLANE : Field := ⟨0x80, 34, 11, 10, .ro, 0, false, 0, 3⟩
def Fd.MEDIA_BAND_MEMBER_BLOCK : Field := ⟨0x80, 34, 22, 12, .ro, 0, false, 0, 2047⟩
def Fd.MEDIA_BAND_MEMBER_PARITY : Field := ⟨0x80, 34, 23, 23, .ro, 0, false, 0, 1⟩
def Fd.MEDIA_BAND_MEMBER_UNREADABLE : Field := ⟨0x80, 34, 24, 24, .ro, 0, false, 0, 1⟩
def Fd.MEDIA_CNT_COUNT : Field := ⟨0x110, 8, 31, 0, .ro, 0, false, 0, 4294967295⟩
def Fd.MEDIA_CLASSIFY_T0_MAX : Field := ⟨0x400, 1, 11, 0, .rws, 60, true, 1, 4095⟩
def Fd.MEDIA_CLASSIFY_T1_MAX : Field := ⟨0x400, 1, 19, 12, .rws, 24, true, 1, 255⟩
def Fd.MEDIA_CLASSIFY_T2_MAX : Field := ⟨0x400, 1, 29, 20, .rws, 30, true, 1, 1023⟩
def Fd.MEDIA_CLASSIFY_FIRST : Field := ⟨0x400, 1, 31, 30, .rws, 2, true, 0, 3⟩

/-! PAR (spec/07_media_placement.md) -/

def Fd.PAR_REBUILD_CTRL_SHARE_PCT : Field := ⟨0x40, 1, 7, 0, .rws, 20, true, 5, 50⟩
def Fd.PAR_REBUILD_CTRL_URGENT_PCT : Field := ⟨0x40, 1, 15, 8, .rws, 60, true, 20, 90⟩
def Fd.PAR_BANDS_1_COUNT : Field := ⟨0x44, 1, 17, 0, .ro, 0, false, 0, 262143⟩
def Fd.PAR_BANDS_2_COUNT : Field := ⟨0x48, 1, 17, 0, .ro, 0, false, 0, 262143⟩
def Fd.PAR_BANDS_LOST_COUNT : Field := ⟨0x4c, 1, 17, 0, .ro, 0, false, 0, 262143⟩
def Fd.PAR_REBUILD_BAND_BAND : Field := ⟨0x50, 1, 31, 0, .ro, 4294967295, false, 0, 4294967295⟩
def Fd.PAR_REBUILD_ROW_ROW : Field := ⟨0x54, 1, 12, 0, .ro, 0, false, 0, 8191⟩
def Fd.PAR_CNT_COUNT : Field := ⟨0x60, 8, 31, 0, .ro, 0, false, 0, 4294967295⟩
def Fd.PAR_CHECK_BAND_BAND : Field := ⟨0x400, 1, 31, 0, .rw, 0, false, 0, 4294967295⟩
def Fd.PAR_CHECK_GO_GO : Field := ⟨0x404, 1, 0, 0, .w1s, 0, false, 0, 1⟩
def Fd.PAR_CHECK_STATUS_BUSY : Field := ⟨0x408, 1, 0, 0, .ro, 0, false, 0, 1⟩
def Fd.PAR_CHECK_STATUS_MISMATCH : Field := ⟨0x408, 1, 1, 1, .ro, 0, false, 0, 1⟩
def Fd.PAR_CHECK_STATUS_ROW : Field := ⟨0x408, 1, 14, 2, .ro, 0, false, 0, 8191⟩

/-! LANE (spec/07_media_placement.md) -/

def Fd.LANE_LANE_STATUS_RATE : Field := ⟨0x40, 1, 1, 0, .ro, 0, false, 0, 3⟩
def Fd.LANE_LANE_STATUS_FENCED : Field := ⟨0x40, 1, 2, 2, .ro, 0, true, 0, 1⟩
def Fd.LANE_DIE_PRESENT_DIES : Field := ⟨0x44, 1, 15, 0, .ro, 0, false, 0, 65535⟩
def Fd.LANE_DIE_FENCED_DIES : Field := ⟨0x48, 1, 15, 0, .ro, 0, false, 0, 65535⟩
def Fd.LANE_CNT_COUNT : Field := ⟨0x60, 8, 31, 0, .ro, 0, false, 0, 4294967295⟩

/-! MAPC (spec/08_map_cache.md) -/

def Fd.MAPC_CLEAN_DIRTY_HI : Field := ⟨0x40, 1, 7, 0, .rws, 50, true, 10, 90⟩
def Fd.MAPC_CLEAN_DIRTY_LO : Field := ⟨0x40, 1, 15, 8, .rws, 30, true, 5, 85⟩
def Fd.MAPC_CLEAN_AGE_S : Field := ⟨0x40, 1, 31, 16, .rws, 300, true, 10, 3600⟩
def Fd.MAPC_CKPT_INTERVAL_S : Field := ⟨0x44, 1, 9, 0, .rws, 60, true, 10, 600⟩
def Fd.MAPC_CKPT_JOURNAL_GIB : Field := ⟨0x44, 1, 20, 16, .rws, 8, true, 1, 16⟩
def Fd.MAPC_HINTS_DEPTH : Field := ⟨0x48, 1, 4, 0, .rws, 2, true, 0, 16⟩
def Fd.MAPC_HINTS_SCAN_AHEAD : Field := ⟨0x48, 1, 12, 8, .rws, 8, true, 1, 31⟩
def Fd.MAPC_HINTS_HOST : Field := ⟨0x48, 1, 16, 16, .rws, 1, true, 0, 1⟩
def Fd.MAPC_HINTS_SCAN_RESIST : Field := ⟨0x48, 1, 17, 17, .rws, 1, true, 0, 1⟩
def Fd.MAPC_QUAD_SEL_INDEX : Field := ⟨0x50, 1, 1, 0, .rw, 0, false, 0, 3⟩
def Fd.MAPC_STATUS_ENABLED : Field := ⟨0x54, 1, 0, 0, .ro, 0, false, 0, 1⟩
def Fd.MAPC_STATUS_DRAINING : Field := ⟨0x54, 1, 1, 1, .ro, 0, false, 0, 1⟩
def Fd.MAPC_STATUS_RESIZED : Field := ⟨0x54, 1, 2, 2, .ro, 0, false, 0, 1⟩
def Fd.MAPC_STATUS_DIRTY_PCT : Field := ⟨0x54, 1, 15, 8, .ro, 0, false, 0, 255⟩
def Fd.MAPC_STATUS_EVB_USED : Field := ⟨0x54, 1, 22, 16, .ro, 0, false, 0, 127⟩
def Fd.MAPC_LINES_VALID_LINES : Field := ⟨0x58, 1, 23, 0, .ro, 0, false, 0, 16777215⟩
def Fd.MAPC_LINES_DIRTY_LINES : Field := ⟨0x5c, 1, 23, 0, .ro, 0, false, 0, 16777215⟩
def Fd.MAPC_QUEUES_MISSES : Field := ⟨0x60, 1, 8, 0, .ro, 0, false, 0, 511⟩
def Fd.MAPC_QUEUES_HINTS : Field := ⟨0x60, 1, 24, 16, .ro, 0, false, 0, 511⟩
def Fd.MAPC_CKPT_NO_NUMBER : Field := ⟨0x64, 1, 31, 0, .ro, 0, true, 0, 4294967295⟩
def Fd.MAPC_REPLAY_LAG_MIB : Field := ⟨0x68, 1, 15, 0, .ro, 0, false, 0, 65535⟩
def Fd.MAPC_CNT_COUNT : Field := ⟨0x80, 8, 31, 0, .ro, 0, false, 0, 4294967295⟩
def Fd.MAPC_HINT_LO_WORD : Field := ⟨0x400, 1, 31, 0, .rw, 0, false, 0, 4294967295⟩
def Fd.MAPC_HINT_HI_WORD : Field := ⟨0x404, 1, 31, 0, .rw, 0, false, 0, 4294967295⟩
def Fd.MAPC_HINT_GO_GO : Field := ⟨0x408, 1, 0, 0, .w1s, 0, false, 0, 1⟩
def Fd.MAPC_CTRL_ENABLE : Field := ⟨0x410, 1, 3, 0, .rws, 15, true, 0, 15⟩

/-! MEDIA (spec/09_media_lifecycle.md) -/

def Fd.MEDIA_GC_CTRL_GC_START : Field := ⟨0x140, 1, 7, 0, .rws, 64, true, 8, 255⟩
def Fd.MEDIA_GC_CTRL_GC_URGENT : Field := ⟨0x140, 1, 15, 8, .rws, 16, true, 4, 127⟩
def Fd.MEDIA_GC_CTRL_BAND_RESERVE : Field := ⟨0x140, 1, 23, 16, .rws, 6, true, 2, 63⟩
def Fd.MEDIA_GC_CTRL_GC_SHARE : Field := ⟨0x140, 1, 31, 24, .rws, 30, true, 5, 100⟩
def Fd.MEDIA_CAP_RESERVE_RESERVE_GB : Field := ⟨0x144, 1, 15, 0, .rws, 4000, true, 1000, 40000⟩
def Fd.MEDIA_CAP_RESERVE_HYST_GB : Field := ⟨0x144, 1, 31, 16, .rws, 2000, true, 500, 20000⟩
def Fd.MEDIA_PATROL_CTRL_DAYS : Field := ⟨0x148, 1, 4, 0, .rws, 30, true, 1, 30⟩
def Fd.MEDIA_PATROL_CTRL_MARGIN_OK : Field := ⟨0x148, 1, 14, 8, .rws, 50, true, 10, 90⟩
def Fd.MEDIA_PATROL_CTRL_MARGIN_REFRESH : Field := ⟨0x148, 1, 22, 16, .rws, 25, true, 5, 80⟩
def Fd.MEDIA_PATROL_CTRL_FLOOR_PERMILLE : Field := ⟨0x148, 1, 31, 24, .rws, 5, true, 1, 100⟩
def Fd.MEDIA_CATCHUP_CTRL_PCT : Field := ⟨0x14c, 1, 7, 0, .rws, 10, true, 1, 50⟩
def Fd.MEDIA_CATCHUP_CTRL_MIN_H : Field := ⟨0x14c, 1, 15, 8, .rws, 72, true, 0, 255⟩
def Fd.MEDIA_GC_STATUS_AVAIL : Field := ⟨0x150, 1, 7, 0, .ro, 0, false, 0, 255⟩
def Fd.MEDIA_GC_STATUS_LEVEL : Field := ⟨0x150, 1, 9, 8, .ro, 0, false, 0, 3⟩
def Fd.MEDIA_GC_STATUS_CAP_EXCEEDED : Field := ⟨0x150, 1, 10, 10, .ro, 0, false, 0, 1⟩
def Fd.MEDIA_GC_STATUS_CATCHUP : Field := ⟨0x150, 1, 11, 11, .ro, 0, false, 0, 1⟩
def Fd.MEDIA_GC_STATUS_TIME_KNOWN : Field := ⟨0x150, 1, 12, 12, .ro, 0, false, 0, 1⟩
def Fd.MEDIA_GC_STATUS_VICTIM_VALID : Field := ⟨0x150, 1, 25, 16, .ro, 0, false, 0, 1023⟩
def Fd.MEDIA_SPARE_STATUS_SPARES : Field := ⟨0x154, 1, 20, 0, .ro, 0, false, 0, 2097151⟩
def Fd.MEDIA_SPARE_STATUS_AVAIL_PCT : Field := ⟨0x154, 1, 27, 21, .ro, 0, false, 0, 127⟩
def Fd.MEDIA_SPARE_POOL_BLOCKS : Field := ⟨0x158, 1, 17, 0, .ro, 0, false, 0, 262143⟩
def Fd.MEDIA_SPARE_POOL_LANES_LOW : Field := ⟨0x158, 1, 24, 18, .ro, 0, false, 0, 127⟩
def Fd.MEDIA_WEAR_MEAN : Field := ⟨0x15c, 1, 15, 0, .ro, 0, false, 0, 65535⟩
def Fd.MEDIA_WEAR_MAX : Field := ⟨0x15c, 1, 31, 16, .ro, 0, false, 0, 65535⟩
def Fd.MEDIA_ENDURANCE_TB : Field := ⟨0x160, 1, 31, 0, .ro, 0, false, 0, 4294967295⟩
def Fd.MEDIA_PCT_USED_PERCENT : Field := ⟨0x164, 1, 7, 0, .ro, 0, false, 0, 255⟩
def Fd.MEDIA_PATROL_STATUS_CATCHUP_PCT : Field := ⟨0x168, 1, 6, 0, .ro, 0, false, 0, 127⟩
def Fd.MEDIA_PATROL_STATUS_OVERDUE : Field := ⟨0x168, 1, 31, 8, .ro, 0, false, 0, 16777215⟩
def Fd.MEDIA_GC_CNT_COUNT : Field := ⟨0x180, 8, 31, 0, .ro, 0, false, 0, 4294967295⟩
def Fd.MEDIA_SPARE_CTRL_REFILL_AT : Field := ⟨0x440, 1, 11, 0, .rws, 256, true, 16, 2048⟩
def Fd.MEDIA_SPARE_CTRL_REFILL_TO : Field := ⟨0x440, 1, 23, 12, .rws, 512, true, 32, 4095⟩
def Fd.MEDIA_SPARE_MIN_BLOCKS : Field := ⟨0x444, 1, 20, 0, .rws, 262144, true, 65536, 1048576⟩
def Fd.MEDIA_WL_CTRL_SPREAD : Field := ⟨0x448, 1, 11, 0, .rws, 300, true, 50, 2000⟩
def Fd.MEDIA_WL_CTRL_RETIRE_WEAR : Field := ⟨0x448, 1, 27, 12, .rws, 4500, true, 3000, 9000⟩
def Fd.MEDIA_DISTURB_QLC_K : Field := ⟨0x44c, 1, 15, 0, .rws, 200, true, 10, 10000⟩
def Fd.MEDIA_DISTURB_SLC_K : Field := ⟨0x44c, 1, 31, 16, .rws, 2000, true, 100, 60000⟩
def Fd.MEDIA_GC_AGE_AGE_D : Field := ⟨0x450, 1, 8, 0, .rws, 7, true, 1, 365⟩

/-! HOLD (spec/10_durability_and_holdup.md) -/

def Fd.HOLD_CTRL_PF_THRESH : Field := ⟨0x40, 1, 8, 0, .rws, 380, true, 360, 395⟩
def Fd.HOLD_CTRL_WINDOW_CAP : Field := ⟨0x40, 1, 20, 16, .rws, 16, true, 0, 16⟩
def Fd.HOLD_STORE_V_MV : Field := ⟨0x44, 1, 15, 0, .ro, 0, false, 0, 65535⟩
def Fd.HOLD_STORE_CHARGING : Field := ⟨0x44, 1, 16, 16, .ro, 0, false, 0, 1⟩
def Fd.HOLD_STORE_MEASURING : Field := ⟨0x44, 1, 17, 17, .ro, 0, false, 0, 1⟩
def Fd.HOLD_CAP_UF : Field := ⟨0x48, 1, 23, 0, .ro, 0, false, 0, 16777215⟩
def Fd.HOLD_CAP_BOL_UF : Field := ⟨0x4c, 1, 23, 0, .ro, 0, false, 0, 16777215⟩
def Fd.HOLD_ENERGY_MJ : Field := ⟨0x50, 1, 23, 0, .ro, 0, false, 0, 16777215⟩
def Fd.HOLD_WINDOW_MIB : Field := ⟨0x54, 1, 14, 0, .ro, 0, false, 0, 32767⟩
def Fd.HOLD_ACKED_MIB : Field := ⟨0x58, 1, 14, 0, .ro, 0, false, 0, 32767⟩
def Fd.HOLD_ACKED_BUFFERED_MIB : Field := ⟨0x58, 1, 30, 16, .ro, 0, false, 0, 32767⟩
def Fd.HOLD_MEAS_STATUS_METHOD : Field := ⟨0x5c, 1, 1, 0, .ro, 0, false, 0, 3⟩
def Fd.HOLD_MEAS_STATUS_OK : Field := ⟨0x5c, 1, 2, 2, .ro, 0, false, 0, 1⟩
def Fd.HOLD_MEAS_STATUS_FAILS : Field := ⟨0x5c, 1, 4, 3, .ro, 0, false, 0, 3⟩
def Fd.HOLD_MEAS_STATUS_STALE : Field := ⟨0x5c, 1, 5, 5, .ro, 0, false, 0, 1⟩
def Fd.HOLD_MEAS_STATUS_AGE_S : Field := ⟨0x5c, 1, 31, 16, .ro, 65535, false, 0, 65535⟩
def Fd.HOLD_LAST_FLUSH_TIME_VALUE : Field := ⟨0x60, 1, 31, 0, .ro, 0, true, 0, 4294967295⟩
def Fd.HOLD_LAST_FLUSH_ENERGY_VALUE : Field := ⟨0x64, 1, 31, 0, .ro, 0, true, 0, 4294967295⟩
def Fd.HOLD_LAST_FLUSH_DATA_PASS1_MIB : Field := ⟨0x68, 1, 14, 0, .ro, 0, true, 0, 32767⟩
def Fd.HOLD_LAST_FLUSH_DATA_PASS2_MIB : Field := ⟨0x68, 1, 30, 16, .ro, 0, true, 0, 32767⟩
def Fd.HOLD_LAST_FLUSH_LOST_REVERTED : Field := ⟨0x6c, 1, 19, 0, .ro, 0, false, 0, 1048575⟩
def Fd.HOLD_LAST_FLUSH_LOST_LOG_DROPPED : Field := ⟨0x6c, 1, 27, 20, .ro, 0, true, 0, 255⟩
def Fd.HOLD_E_FIXED_MJ : Field := ⟨0x400, 1, 23, 0, .ro, 12000, false, 0, 16777215⟩
def Fd.HOLD_E_GIB_MJ : Field := ⟨0x404, 1, 23, 0, .ro, 3750, false, 0, 16777215⟩
def Fd.HOLD_VLIMITS_VOP_MV : Field := ⟨0x408, 1, 15, 0, .ro, 54000, false, 0, 65535⟩
def Fd.HOLD_VLIMITS_VMIN_MV : Field := ⟨0x408, 1, 31, 16, .ro, 18000, false, 0, 65535⟩
def Fd.HOLD_MEAS_GO_GO : Field := ⟨0x40c, 1, 0, 0, .w1s, 0, false, 0, 1⟩

/-! TSK (spec/11_programs_and_flows.md) -/

def Fd.TSK_WAIT_DEFAULT_US : Field := ⟨0x40, 1, 25, 0, .rws, 100000, true, 1, 60000000⟩
def Fd.TSK_DISPATCH_AFFINITY : Field := ⟨0x44, 1, 0, 0, .rws, 1, true, 0, 1⟩
def Fd.TSK_STORE_STATUS_USED : Field := ⟨0x48, 1, 16, 0, .ro, 0, false, 0, 131071⟩
def Fd.TSK_STORE_TOMB_TOMBSTONES : Field := ⟨0x4c, 1, 16, 0, .ro, 0, false, 0, 131071⟩
def Fd.TSK_READY_A_PRIO0 : Field := ⟨0x50, 1, 14, 0, .ro, 0, false, 0, 32767⟩
def Fd.TSK_READY_B_PRIO2 : Field := ⟨0x54, 1, 14, 0, .ro, 0, false, 0, 32767⟩
def Fd.TSK_READY_A_PRIO1 : Field := ⟨0x50, 1, 30, 16, .ro, 0, false, 0, 32767⟩
def Fd.TSK_READY_B_PRIO3 : Field := ⟨0x54, 1, 30, 16, .ro, 0, false, 0, 32767⟩
def Fd.TSK_CORES_HEALTHY : Field := ⟨0x58, 1, 6, 0, .ro, 0, false, 0, 127⟩
def Fd.TSK_CORES_BUSY : Field := ⟨0x58, 1, 14, 8, .ro, 0, false, 0, 127⟩
def Fd.TSK_CORES_TESTING : Field := ⟨0x58, 1, 22, 16, .ro, 0, false, 0, 127⟩
def Fd.TSK_FLOW_SEL_SLOT : Field := ⟨0x60, 1, 11, 0, .rw, 0, false, 0, 4095⟩
def Fd.TSK_FLOW_STATUS_STATE : Field := ⟨0x64, 1, 1, 0, .ro, 0, false, 0, 3⟩
def Fd.TSK_FLOW_STATUS_INSTANCE : Field := ⟨0x64, 1, 15, 8, .ro, 0, false, 0, 255⟩
def Fd.TSK_FLOW_STATUS_PEND : Field := ⟨0x64, 1, 28, 16, .ro, 0, false, 0, 8191⟩
def Fd.TSK_FLOW_BASE_LO_BASE : Field := ⟨0x68, 1, 31, 0, .ro, 0, false, 0, 4294967295⟩
def Fd.TSK_FLOW_BASE_HI_BASE : Field := ⟨0x6c, 1, 7, 0, .ro, 0, false, 0, 255⟩
def Fd.TSK_FLOW_ERR_ERRORS : Field := ⟨0x70, 1, 15, 0, .ro, 0, false, 0, 65535⟩
def Fd.TSK_INST_SEL_INDEX : Field := ⟨0x74, 1, 7, 0, .rw, 0, false, 0, 255⟩
def Fd.TSK_INST_ENTRIES_ENTRIES : Field := ⟨0x78, 1, 16, 0, .ro, 0, false, 0, 131071⟩
def Fd.TSK_INST_RESERVED_ENTRIES : Field := ⟨0x7c, 1, 16, 0, .ro, 0, false, 0, 131071⟩
def Fd.TSK_CNT_COUNT : Field := ⟨0x80, 8, 31, 0, .ro, 0, false, 0, 4294967295⟩
def Fd.TSK_REEXEC_LIMIT : Field := ⟨0x400, 1, 2, 0, .rws, 3, true, 2, 7⟩
def Fd.TSK_BASE_BCAST_RELEASES : Field := ⟨0x404, 1, 7, 0, .rws, 64, true, 1, 255⟩
def Fd.TSK_BASE_BCAST_MAX_US : Field := ⟨0x404, 1, 22, 16, .rws, 10, true, 1, 100⟩

/-! BUF (spec/12_buffer_pools.md) -/

def Fd.BUF_CTRL_FALLBACK : Field := ⟨0x40, 1, 1, 0, .rws, 2, true, 0, 2⟩
def Fd.BUF_CTRL_OVERFLOW : Field := ⟨0x40, 1, 2, 2, .rws, 1, true, 0, 1⟩
def Fd.BUF_CTRL_BORROW_X : Field := ⟨0x40, 1, 12, 8, .rws, 4, true, 1, 16⟩
def Fd.BUF_RES_LO_RES0 : Field := ⟨0x44, 1, 7, 0, .rws, 40, true, 0, 255⟩
def Fd.BUF_RES_LO_RES1 : Field := ⟨0x44, 1, 15, 8, .rws, 10, true, 0, 255⟩
def Fd.BUF_RES_LO_RES2 : Field := ⟨0x44, 1, 23, 16, .rws, 20, true, 0, 255⟩
def Fd.BUF_RES_LO_RES3 : Field := ⟨0x44, 1, 31, 24, .rws, 5, true, 0, 255⟩
def Fd.BUF_RES_HI_RES4 : Field := ⟨0x48, 1, 7, 0, .rws, 25, true, 0, 255⟩
def Fd.BUF_FREE_SRAM_BUFFERS : Field := ⟨0x50, 5, 21, 0, .ro, 0, false, 0, 4194303⟩
def Fd.BUF_FREE_DRAM_BUFFERS : Field := ⟨0x70, 5, 21, 0, .ro, 0, false, 0, 4194303⟩
def Fd.BUF_WRITE_FREE_BUFFERS : Field := ⟨0x84, 1, 12, 0, .ro, 0, false, 0, 8191⟩
def Fd.BUF_REQ_SEL_INSTANCE : Field := ⟨0x88, 1, 7, 0, .rw, 0, false, 0, 255⟩
def Fd.BUF_REQ_SEL_CLASS : Field := ⟨0x88, 1, 10, 8, .rw, 0, false, 0, 7⟩
def Fd.BUF_REQ_SRAM_KIB : Field := ⟨0x8c, 1, 23, 0, .ro, 0, false, 0, 16777215⟩
def Fd.BUF_REQ_DRAM_KIB : Field := ⟨0x90, 1, 23, 0, .ro, 0, false, 0, 16777215⟩
def Fd.BUF_REQ_MIN_KIB : Field := ⟨0x94, 1, 23, 0, .ro, 0, false, 0, 16777215⟩
def Fd.BUF_REQ_STATE_WAITING : Field := ⟨0x98, 1, 0, 0, .ro, 0, false, 0, 1⟩
def Fd.BUF_REQ_STATE_BORROWING : Field := ⟨0x98, 1, 1, 1, .ro, 0, false, 0, 1⟩
def Fd.BUF_RETIRED_BUFFERS : Field := ⟨0x9c, 1, 15, 0, .ro, 0, false, 0, 65535⟩
def Fd.BUF_CNT_COUNT : Field := ⟨0xa0, 8, 31, 0, .ro, 0, false, 0, 4294967295⟩
def Fd.BUF_SPLIT_SRAM_MIB0 : Field := ⟨0x400, 1, 5, 0, .rws, 2, true, 0, 63⟩
def Fd.BUF_SPLIT_SRAM_MIB1 : Field := ⟨0x400, 1, 11, 6, .rws, 6, true, 0, 63⟩
def Fd.BUF_SPLIT_SRAM_MIB2 : Field := ⟨0x400, 1, 17, 12, .rws, 16, true, 0, 63⟩
def Fd.BUF_SPLIT_SRAM_MIB3 : Field := ⟨0x400, 1, 23, 18, .rws, 16, true, 0, 63⟩
def Fd.BUF_SPLIT_SRAM_MIB4 : Field := ⟨0x400, 1, 29, 24, .rws, 8, true, 0, 63⟩
def Fd.BUF_SPLIT_DRAM_UNITS0 : Field := ⟨0x404, 1, 4, 0, .rws, 1, true, 0, 31⟩
def Fd.BUF_SPLIT_DRAM_UNITS1 : Field := ⟨0x404, 1, 9, 5, .rws, 2, true, 0, 31⟩
def Fd.BUF_SPLIT_DRAM_UNITS2 : Field := ⟨0x404, 1, 14, 10, .rws, 4, true, 0, 31⟩
def Fd.BUF_SPLIT_DRAM_UNITS3 : Field := ⟨0x404, 1, 19, 15, .rws, 4, true, 0, 31⟩
def Fd.BUF_SPLIT_DRAM_UNITS4 : Field := ⟨0x404, 1, 24, 20, .rws, 5, true, 0, 31⟩

/-! CLU (spec/13_kwalia_cores.md) -/

def Fd.CLU_CORECFG_RSWRAP : Field := ⟨0x40, 1, 0, 0, .rws, 0, true, 0, 1⟩
def Fd.CLU_CORE_STATE_STATE0 : Field := ⟨0x44, 1, 1, 0, .ro, 0, false, 0, 3⟩
def Fd.CLU_CORE_STATE_STATE1 : Field := ⟨0x44, 1, 3, 2, .ro, 0, false, 0, 3⟩
def Fd.CLU_CORE_STATE_STATE2 : Field := ⟨0x44, 1, 5, 4, .ro, 0, false, 0, 3⟩
def Fd.CLU_CORE_STATE_STATE3 : Field := ⟨0x44, 1, 7, 6, .ro, 0, false, 0, 3⟩
def Fd.CLU_CORE_STATE_STATE4 : Field := ⟨0x44, 1, 9, 8, .ro, 0, false, 0, 3⟩
def Fd.CLU_CORE_STATE_STATE5 : Field := ⟨0x44, 1, 11, 10, .ro, 0, false, 0, 3⟩
def Fd.CLU_CORE_STATE_STATE6 : Field := ⟨0x44, 1, 13, 12, .ro, 0, false, 0, 3⟩
def Fd.CLU_CORE_STATE_STATE7 : Field := ⟨0x44, 1, 15, 14, .ro, 0, false, 0, 3⟩
def Fd.CLU_CORE_STATE_STATE8 : Field := ⟨0x44, 1, 17, 16, .ro, 0, false, 0, 3⟩
def Fd.CLU_CORE_STATE_STATE9 : Field := ⟨0x44, 1, 19, 18, .ro, 0, false, 0, 3⟩
def Fd.CLU_CORE_STATE_STATE10 : Field := ⟨0x44, 1, 21, 20, .ro, 0, false, 0, 3⟩
def Fd.CLU_CORE_STATE_STATE11 : Field := ⟨0x44, 1, 23, 22, .ro, 0, false, 0, 3⟩
def Fd.CLU_CORE_STATE_STATE12 : Field := ⟨0x44, 1, 25, 24, .ro, 0, false, 0, 3⟩
def Fd.CLU_CORE_STATE_STATE13 : Field := ⟨0x44, 1, 27, 26, .ro, 0, false, 0, 3⟩
def Fd.CLU_CORE_STATE_STATE14 : Field := ⟨0x44, 1, 29, 28, .ro, 0, false, 0, 3⟩
def Fd.CLU_CORE_STATE_STATE15 : Field := ⟨0x44, 1, 31, 30, .ro, 0, false, 0, 3⟩
def Fd.CLU_CORE_SEL_INDEX : Field := ⟨0x48, 1, 3, 0, .rw, 0, false, 0, 15⟩
def Fd.CLU_CORE_TASK_INSTANCE : Field := ⟨0x4c, 1, 7, 0, .ro, 0, false, 0, 255⟩
def Fd.CLU_CORE_TASK_NODE : Field := ⟨0x4c, 1, 12, 8, .ro, 0, false, 0, 31⟩
def Fd.CLU_CORE_TASK_ATTEMPT : Field := ⟨0x4c, 1, 15, 13, .ro, 0, false, 0, 7⟩
def Fd.CLU_CORE_TASK_PROGRAM : Field := ⟨0x4c, 1, 19, 16, .ro, 0, false, 0, 15⟩
def Fd.CLU_LAST_EXC_CODE : Field := ⟨0x50, 1, 7, 0, .ro, 0, false, 0, 255⟩
def Fd.CLU_LAST_EXC_INSTANCE : Field := ⟨0x50, 1, 23, 16, .ro, 0, false, 0, 255⟩
def Fd.CLU_LAST_PC_OFFSET : Field := ⟨0x54, 1, 19, 0, .ro, 0, false, 0, 1048575⟩
def Fd.CLU_FENCED_CORES : Field := ⟨0x58, 1, 15, 0, .ro, 0, true, 0, 65535⟩
def Fd.CLU_L2_STATUS_ENABLED : Field := ⟨0x5c, 1, 0, 0, .ro, 1, false, 0, 1⟩
def Fd.CLU_L2_STATUS_DRAINING : Field := ⟨0x5c, 1, 1, 1, .ro, 0, false, 0, 1⟩
def Fd.CLU_L2_STATUS_DIRTY : Field := ⟨0x5c, 1, 24, 8, .ro, 0, false, 0, 131071⟩
def Fd.CLU_CNT_COUNT : Field := ⟨0x60, 8, 31, 0, .ro, 0, false, 0, 4294967295⟩
def Fd.CLU_L2CTRL_ENABLE : Field := ⟨0x400, 1, 0, 0, .rws, 1, true, 0, 1⟩
def Fd.CLU_TEST_GO_CORE : Field := ⟨0x404, 1, 3, 0, .wo, 0, false, 0, 15⟩
def Fd.CLU_TEST_GO_GO : Field := ⟨0x404, 1, 31, 31, .wo, 0, false, 0, 1⟩

/-! MAT (spec/14_match_engine.md) -/

def Fd.MAT_LIMIT_MAX_ENTRIES : Field := ⟨0x40, 1, 13, 0, .rws, 1024, true, 1, 16382⟩
def Fd.MAT_UNITS_HEALTHY : Field := ⟨0x44, 1, 3, 0, .ro, 0, false, 0, 15⟩
def Fd.MAT_UNITS_BUSY : Field := ⟨0x44, 1, 11, 8, .ro, 0, false, 0, 15⟩
def Fd.MAT_UNITS_FENCED : Field := ⟨0x44, 1, 23, 16, .ro, 0, true, 0, 255⟩
def Fd.MAT_UNITS_INDEX_FENCED : Field := ⟨0x44, 1, 24, 24, .ro, 0, true, 0, 1⟩
def Fd.MAT_AUTO_STATUS_USED : Field := ⟨0x48, 1, 13, 0, .ro, 0, false, 0, 16383⟩
def Fd.MAT_AUTO_STATUS_SPARE_FREE : Field := ⟨0x48, 1, 29, 16, .ro, 0, false, 0, 16383⟩
def Fd.MAT_AUTO_STATUS_OVERDRAWN : Field := ⟨0x48, 1, 30, 30, .ro, 0, false, 0, 1⟩
def Fd.MAT_INST_SEL_INDEX : Field := ⟨0x4c, 1, 7, 0, .rw, 0, false, 0, 255⟩
def Fd.MAT_INST_AUTO_HELD : Field := ⟨0x50, 1, 13, 0, .ro, 0, false, 0, 16383⟩
def Fd.MAT_INST_AUTO_ENTITLED : Field := ⟨0x50, 1, 29, 16, .ro, 0, false, 0, 16383⟩
def Fd.MAT_QUEUE_WAITING : Field := ⟨0x54, 1, 15, 0, .ro, 0, false, 0, 65535⟩
def Fd.MAT_IDX_STATUS_SEARCHES : Field := ⟨0x58, 1, 15, 0, .ro, 0, false, 0, 65535⟩
def Fd.MAT_IDX_STATUS_UPDATES : Field := ⟨0x58, 1, 31, 16, .ro, 0, false, 0, 65535⟩
def Fd.MAT_CNT_COUNT : Field := ⟨0x60, 8, 31, 0, .ro, 0, false, 0, 4294967295⟩
def Fd.MAT_AUTO_LIMIT_BLOCKS : Field := ⟨0x480, 1, 13, 0, .rws, 8192, true, 64, 8192⟩
def Fd.MAT_AUTO_SPARE_BLOCKS : Field := ⟨0x484, 1, 12, 0, .rws, 256, true, 0, 4096⟩
def Fd.MAT_PROBE_SEL_INSTANCE : Field := ⟨0x500, 1, 7, 0, .rws, 0, false, 0, 255⟩
def Fd.MAT_PROBE_SEL_PROGRAM : Field := ⟨0x500, 1, 11, 8, .rws, 0, false, 0, 15⟩
def Fd.MAT_PROBE_SEL_SECTION : Field := ⟨0x500, 1, 13, 12, .rws, 0, false, 0, 3⟩
def Fd.MAT_PROBE_SEL_VALID : Field := ⟨0x500, 1, 15, 15, .rws, 0, false, 0, 1⟩
def Fd.MAT_PROBE_CTRL_LENGTH : Field := ⟨0x504, 1, 8, 0, .rw, 0, false, 0, 511⟩
def Fd.MAT_PROBE_GO_GO : Field := ⟨0x508, 1, 0, 0, .w1s, 0, false, 0, 1⟩
def Fd.MAT_PROBE_GO_STEP : Field := ⟨0x508, 1, 1, 1, .w1s, 0, false, 0, 1⟩
def Fd.MAT_PROBE_RESULT_END : Field := ⟨0x50c, 1, 8, 0, .ro, 0, false, 0, 511⟩
def Fd.MAT_PROBE_RESULT_MULTI : Field := ⟨0x50c, 1, 9, 9, .ro, 0, false, 0, 1⟩
def Fd.MAT_PROBE_RESULT_LITERAL : Field := ⟨0x50c, 1, 10, 10, .ro, 0, false, 0, 1⟩
def Fd.MAT_PROBE_RESULT_VALID : Field := ⟨0x50c, 1, 11, 11, .ro, 0, false, 0, 1⟩
def Fd.MAT_PROBE_RESULT_BUSY : Field := ⟨0x50c, 1, 12, 12, .ro, 0, false, 0, 1⟩
def Fd.MAT_PROBE_RESULT_OVER : Field := ⟨0x50c, 1, 13, 13, .ro, 0, false, 0, 1⟩
def Fd.MAT_PROBE_MATCH_INDEX : Field := ⟨0x510, 1, 11, 0, .ro, 0, false, 0, 4095⟩
def Fd.MAT_PROBE_MATCH_PRIORITY : Field := ⟨0x510, 1, 27, 16, .ro, 0, false, 0, 4095⟩
def Fd.MAT_PROBE_DATA_DATA : Field := ⟨0x600, 64, 31, 0, .rw, 0, false, 0, 4294967295⟩

/-! CMP (spec/15_compression.md) -/

def Fd.CMP_INLINE_ENABLE : Field := ⟨0x40, 1, 0, 0, .rws, 1, true, 0, 1⟩
def Fd.CMP_INLINE_LEVEL : Field := ⟨0x40, 1, 7, 4, .rws, 4, true, 1, 9⟩
def Fd.CMP_YIELD_US : Field := ⟨0x44, 1, 7, 0, .rws, 2, true, 1, 100⟩
def Fd.CMP_YIELD_MAX_SUSP : Field := ⟨0x44, 1, 11, 8, .rws, 4, true, 1, 8⟩
def Fd.CMP_UNITS_COMP_HEALTHY : Field := ⟨0x48, 1, 2, 0, .ro, 0, false, 0, 7⟩
def Fd.CMP_UNITS_DECOMP_HEALTHY : Field := ⟨0x48, 1, 6, 4, .ro, 0, false, 0, 7⟩
def Fd.CMP_UNITS_COMP_FENCED : Field := ⟨0x48, 1, 11, 8, .ro, 0, true, 0, 15⟩
def Fd.CMP_UNITS_DECOMP_FENCED : Field := ⟨0x48, 1, 15, 12, .ro, 0, true, 0, 15⟩
def Fd.CMP_UNITS_COMP_BUSY : Field := ⟨0x48, 1, 19, 16, .ro, 0, false, 0, 15⟩
def Fd.CMP_UNITS_DECOMP_BUSY : Field := ⟨0x48, 1, 23, 20, .ro, 0, false, 0, 15⟩
def Fd.CMP_CONTEXTS_COMP_USED : Field := ⟨0x4c, 1, 4, 0, .ro, 0, false, 0, 31⟩
def Fd.CMP_CONTEXTS_DECOMP_USED : Field := ⟨0x4c, 1, 12, 8, .ro, 0, false, 0, 31⟩
def Fd.CMP_QUEUE_COMP_WAITING : Field := ⟨0x50, 1, 15, 0, .ro, 0, false, 0, 65535⟩
def Fd.CMP_QUEUE_DECOMP_WAITING : Field := ⟨0x50, 1, 31, 16, .ro, 0, false, 0, 65535⟩
def Fd.CMP_RATIO_PERMILLE : Field := ⟨0x54, 1, 9, 0, .ro, 0, false, 0, 1023⟩
def Fd.CMP_CNT_COUNT : Field := ⟨0x60, 8, 31, 0, .ro, 0, false, 0, 4294967295⟩
def Fd.CMP_ERRS_COUNT : Field := ⟨0x80, 7, 31, 0, .ro, 0, false, 0, 4294967295⟩
def Fd.CMP_ZSTD_CFG_WLOG : Field := ⟨0x400, 1, 4, 0, .rws, 20, true, 10, 23⟩

/-! DIG (spec/16_digest_keys_and_trust.md) -/

def Fd.DIG_SCHED_BLOCKS : Field := ⟨0x40, 1, 9, 0, .rws, 256, true, 16, 1023⟩
def Fd.DIG_REQ_CTRL_WAIT_MS : Field := ⟨0x44, 1, 15, 0, .rws, 100, true, 1, 60000⟩
def Fd.DIG_REQ_CTRL_IDLE_S : Field := ⟨0x44, 1, 23, 16, .rws, 10, true, 1, 255⟩
def Fd.DIG_UNITS_HEALTHY : Field := ⟨0x48, 1, 2, 0, .ro, 0, false, 0, 7⟩
def Fd.DIG_UNITS_BUSY : Field := ⟨0x48, 1, 7, 4, .ro, 0, false, 0, 15⟩
def Fd.DIG_UNITS_FENCED : Field := ⟨0x48, 1, 11, 8, .ro, 0, true, 0, 15⟩
def Fd.DIG_CONTEXTS_USED : Field := ⟨0x4c, 1, 4, 0, .ro, 0, false, 0, 31⟩
def Fd.DIG_CONTEXTS_WAITING : Field := ⟨0x4c, 1, 23, 8, .ro, 0, false, 0, 65535⟩
def Fd.DIG_REQ_CMD_OP : Field := ⟨0x60, 1, 3, 0, .wo, 0, false, 0, 15⟩
def Fd.DIG_REQ_CMD_ALG : Field := ⟨0x60, 1, 7, 4, .wo, 0, false, 0, 15⟩
def Fd.DIG_REQ_CMD_HMAC : Field := ⟨0x60, 1, 8, 8, .wo, 0, false, 0, 1⟩
def Fd.DIG_REQ_CMD_COMPARE : Field := ⟨0x60, 1, 9, 9, .wo, 0, false, 0, 1⟩
def Fd.DIG_REQ_CMD_DERIVE : Field := ⟨0x60, 1, 10, 10, .wo, 0, false, 0, 1⟩
def Fd.DIG_REQ_CMD_KEY_SLOT : Field := ⟨0x60, 1, 21, 12, .wo, 0, false, 0, 1023⟩
def Fd.DIG_REQ_CMD_LEN : Field := ⟨0x60, 1, 30, 22, .wo, 0, false, 0, 511⟩
def Fd.DIG_REQ_CMD_GO : Field := ⟨0x60, 1, 31, 31, .wo, 0, false, 0, 1⟩
def Fd.DIG_REQ_TARGET_SLOT : Field := ⟨0x64, 1, 9, 0, .rw, 0, false, 0, 1023⟩
def Fd.DIG_REQ_TARGET_TYPE : Field := ⟨0x64, 1, 12, 10, .rw, 0, false, 0, 7⟩
def Fd.DIG_REQ_TARGET_SCOPE_ALL : Field := ⟨0x64, 1, 13, 13, .rw, 0, false, 0, 1⟩
def Fd.DIG_REQ_TARGET_LEN : Field := ⟨0x64, 1, 23, 16, .rw, 0, false, 0, 255⟩
def Fd.DIG_REQ_ACL_OWNER : Field := ⟨0x68, 1, 7, 0, .rw, 0, false, 0, 255⟩
def Fd.DIG_REQ_ACL_PERM : Field := ⟨0x68, 1, 15, 8, .rw, 0, false, 0, 255⟩
def Fd.DIG_REQ_HKDF_SALT_LEN : Field := ⟨0x6c, 1, 7, 0, .rw, 0, false, 0, 255⟩
def Fd.DIG_REQ_HKDF_INFO_LEN : Field := ⟨0x6c, 1, 15, 8, .rw, 0, false, 0, 255⟩
def Fd.DIG_RESULT_EQ : Field := ⟨0x70, 1, 0, 0, .ro, 0, false, 0, 1⟩
def Fd.DIG_RESULT_NEQ : Field := ⟨0x70, 1, 1, 1, .ro, 0, false, 0, 1⟩
def Fd.DIG_RESULT_VALID : Field := ⟨0x70, 1, 2, 2, .ro, 0, false, 0, 1⟩
def Fd.DIG_RESULT_BUSY : Field := ⟨0x70, 1, 3, 3, .ro, 0, false, 0, 1⟩
def Fd.DIG_RESULT_STATUS : Field := ⟨0x70, 1, 7, 4, .ro, 0, false, 0, 15⟩
def Fd.DIG_RESULT_LEN : Field := ⟨0x70, 1, 15, 8, .ro, 0, false, 0, 255⟩
def Fd.DIG_RESULT_DATA_DATA : Field := ⟨0x80, 16, 31, 0, .ro, 0, false, 0, 4294967295⟩
def Fd.DIG_CNT_COUNT : Field := ⟨0xc0, 8, 31, 0, .ro, 0, false, 0, 4294967295⟩
def Fd.DIG_REQ_DATA_DATA : Field := ⟨0x100, 64, 31, 0, .rw, 0, false, 0, 4294967295⟩

/-! XTS (spec/16_digest_keys_and_trust.md) -/

def Fd.XTS_STATUS_PIPES : Field := ⟨0x40, 1, 1, 0, .ro, 0, false, 0, 3⟩
def Fd.XTS_STATUS_PARTNER : Field := ⟨0x40, 1, 2, 2, .ro, 0, false, 0, 1⟩
def Fd.XTS_STATUS_KEYS : Field := ⟨0x40, 1, 28, 16, .ro, 0, false, 0, 8191⟩
def Fd.XTS_CNT_COUNT : Field := ⟨0x60, 8, 31, 0, .ro, 0, false, 0, 4294967295⟩

/-! SEC (spec/16_digest_keys_and_trust.md) -/

def Fd.SEC_FUSES_PROGRAMMED : Field := ⟨0x40, 1, 3, 0, .ro, 0, false, 0, 15⟩
def Fd.SEC_FUSES_REVOKED : Field := ⟨0x40, 1, 7, 4, .ro, 0, false, 0, 15⟩
def Fd.SEC_FUSES_ACTIVE : Field := ⟨0x40, 1, 9, 8, .ro, 0, false, 0, 3⟩
def Fd.SEC_ROLLBACK_SEL_CLASS : Field := ⟨0x44, 1, 2, 0, .rw, 0, false, 0, 7⟩
def Fd.SEC_ROLLBACK_LO_COUNT : Field := ⟨0x48, 1, 31, 0, .ro, 0, false, 0, 4294967295⟩
def Fd.SEC_ROLLBACK_HI_COUNT : Field := ⟨0x4c, 1, 31, 0, .ro, 0, false, 0, 4294967295⟩
def Fd.SEC_TRNG_FAILED : Field := ⟨0x50, 1, 0, 0, .ro, 0, false, 0, 1⟩
def Fd.SEC_KEY_SEL_SLOT : Field := ⟨0x60, 1, 9, 0, .rw, 0, false, 0, 1023⟩
def Fd.SEC_KEY_INFO_TYPE : Field := ⟨0x64, 1, 2, 0, .ro, 0, false, 0, 7⟩
def Fd.SEC_KEY_INFO_SCOPE_ALL : Field := ⟨0x64, 1, 3, 3, .ro, 0, false, 0, 1⟩
def Fd.SEC_KEY_INFO_ORIGIN : Field := ⟨0x64, 1, 6, 4, .ro, 0, false, 0, 7⟩
def Fd.SEC_KEY_INFO_OWNER : Field := ⟨0x64, 1, 15, 8, .ro, 0, false, 0, 255⟩
def Fd.SEC_KEY_INFO_PERM : Field := ⟨0x64, 1, 23, 16, .ro, 0, false, 0, 255⟩
def Fd.SEC_KEY_INFO_LEN : Field := ⟨0x64, 1, 31, 24, .ro, 0, false, 0, 255⟩
def Fd.SEC_KEY_STATUS_BUSY : Field := ⟨0x68, 1, 0, 0, .ro, 0, false, 0, 1⟩
def Fd.SEC_KEY_STATUS_RESULT : Field := ⟨0x68, 1, 3, 1, .ro, 0, false, 0, 7⟩
def Fd.SEC_KEY_STATUS_FREE : Field := ⟨0x68, 1, 25, 16, .ro, 0, false, 0, 1023⟩
def Fd.SEC_KEY_ATTR_TYPE : Field := ⟨0x400, 1, 2, 0, .rw, 0, false, 0, 7⟩
def Fd.SEC_KEY_ATTR_SCOPE_ALL : Field := ⟨0x400, 1, 3, 3, .rw, 0, false, 0, 1⟩
def Fd.SEC_KEY_ATTR_OWNER : Field := ⟨0x400, 1, 15, 8, .rw, 0, false, 0, 255⟩
def Fd.SEC_KEY_ATTR_PERM : Field := ⟨0x400, 1, 23, 16, .rw, 0, false, 0, 255⟩
def Fd.SEC_KEY_ATTR_LEN : Field := ⟨0x400, 1, 31, 24, .rw, 0, false, 0, 255⟩
def Fd.SEC_KEY_BIND_BIND : Field := ⟨0x404, 8, 31, 0, .rw, 0, false, 0, 4294967295⟩
def Fd.SEC_KEY_OP_OP : Field := ⟨0x424, 1, 2, 0, .wo, 0, false, 0, 7⟩
def Fd.SEC_KEY_OP_WRAP_SLOT : Field := ⟨0x424, 1, 13, 4, .wo, 0, false, 0, 1023⟩
def Fd.SEC_KEY_OP_GO : Field := ⟨0x424, 1, 31, 31, .wo, 0, false, 0, 1⟩
def Fd.SEC_KEY_DATA_DATA : Field := ⟨0x440, 34, 31, 0, .wo, 0, false, 0, 4294967295⟩

/-! DEV (spec/17_management.md) -/

def Fd.DEV_SERIAL_LO_ASCII : Field := ⟨0x40, 1, 31, 0, .ro, 0, false, 0, 4294967295⟩
def Fd.DEV_SERIAL_HI_ASCII : Field := ⟨0x44, 1, 31, 0, .ro, 0, false, 0, 4294967295⟩
def Fd.DEV_FW_SLOT_ACTIVE : Field := ⟨0x48, 1, 1, 0, .ro, 1, true, 0, 3⟩
def Fd.DEV_FW_SLOT_PENDING : Field := ⟨0x48, 1, 3, 2, .ro, 0, true, 0, 3⟩
def Fd.DEV_FW_SLOT_TRIAL : Field := ⟨0x48, 1, 4, 4, .ro, 0, true, 0, 1⟩
def Fd.DEV_FW_SLOT_VALID : Field := ⟨0x48, 1, 6, 5, .ro, 3, true, 0, 3⟩
def Fd.DEV_PTP_DOMAIN : Field := ⟨0x4c, 1, 7, 0, .rws, 0, true, 0, 255⟩
def Fd.DEV_PTP_ENABLE : Field := ⟨0x4c, 1, 8, 8, .rws, 0, true, 0, 1⟩
def Fd.DEV_PTP_LOCKED : Field := ⟨0x4c, 1, 9, 9, .ro, 0, false, 0, 1⟩
def Fd.DEV_TIME_LO_NS : Field := ⟨0x50, 1, 31, 0, .ro, 0, true, 0, 4294967295⟩
def Fd.DEV_TIME_HI_NS : Field := ⟨0x54, 1, 31, 0, .ro, 0, true, 0, 4294967295⟩
def Fd.DEV_TIME_SET_LO_NS : Field := ⟨0x400, 1, 31, 0, .rw, 0, false, 0, 4294967295⟩
def Fd.DEV_TIME_SET_HI_NS : Field := ⟨0x404, 1, 31, 0, .rw, 0, false, 0, 4294967295⟩
def Fd.DEV_TIME_SET_GO_GO : Field := ⟨0x408, 1, 0, 0, .w1s, 0, false, 0, 1⟩

/-! SENS (spec/17_management.md) -/

def Fd.SENS_SEL_INDEX : Field := ⟨0x40, 1, 6, 0, .rw, 0, false, 0, 127⟩
def Fd.SENS_VALUE_READING : Field := ⟨0x44, 1, 23, 0, .ro, 0, false, 0, 16777215⟩
def Fd.SENS_VALUE_STATE : Field := ⟨0x44, 1, 26, 24, .ro, 0, false, 0, 7⟩
def Fd.SENS_PEAK_READING : Field := ⟨0x48, 1, 23, 0, .ro, 0, false, 0, 16777215⟩
def Fd.SENS_SUMMARY_CEILING : Field := ⟨0x4c, 1, 6, 0, .ro, 100, false, 0, 127⟩
def Fd.SENS_SUMMARY_THROTTLING : Field := ⟨0x4c, 1, 7, 7, .ro, 0, false, 0, 1⟩
def Fd.SENS_SUMMARY_HOT : Field := ⟨0x4c, 1, 14, 8, .ro, 0, false, 0, 127⟩
def Fd.SENS_SUMMARY_WARN : Field := ⟨0x4c, 1, 23, 16, .ro, 0, false, 0, 255⟩
def Fd.SENS_SUMMARY_FAILED : Field := ⟨0x4c, 1, 31, 24, .ro, 0, false, 0, 255⟩
def Fd.SENS_THROTTLE_CTRL_STEP_PCT : Field := ⟨0x400, 1, 3, 0, .rws, 5, true, 1, 10⟩
def Fd.SENS_THROTTLE_CTRL_HYST_C : Field := ⟨0x400, 1, 7, 4, .rws, 3, true, 1, 10⟩
def Fd.SENS_THROTTLE_CTRL_RECOVER_S : Field := ⟨0x400, 1, 15, 8, .rws, 10, true, 1, 255⟩

/-! LOG (spec/17_management.md) -/

def Fd.LOG_HEAD_SEQ : Field := ⟨0x40, 1, 31, 0, .ro, 0, true, 0, 4294967295⟩
def Fd.LOG_TAIL_SEQ : Field := ⟨0x44, 1, 31, 0, .ro, 0, true, 0, 4294967295⟩
def Fd.LOG_MIRROR_TAIL_SEQ : Field := ⟨0x48, 1, 31, 0, .ro, 0, true, 0, 4294967295⟩
def Fd.LOG_NOTIFY_MIN_SEV : Field := ⟨0x4c, 1, 2, 0, .rws, 1, true, 0, 4⟩
def Fd.LOG_STATUS_MIRROR_LAG : Field := ⟨0x50, 1, 15, 0, .ro, 0, false, 0, 65535⟩
def Fd.LOG_ENTRY_SEL_SEQ : Field := ⟨0x54, 1, 31, 0, .rw, 0, false, 0, 4294967295⟩
def Fd.LOG_ENTRY_DATA : Field := ⟨0x80, 16, 31, 0, .ro, 0, false, 0, 4294967295⟩

/-! TEST (spec/18_loopbacks_and_diagnostics.md) -/

def Fd.TEST_SEL_IFACE : Field := ⟨0x40, 1, 2, 0, .rw, 0, false, 0, 7⟩
def Fd.TEST_SEL_DEPTH : Field := ⟨0x40, 1, 6, 4, .rw, 0, false, 0, 7⟩
def Fd.TEST_SEL_QUAD : Field := ⟨0x40, 1, 9, 8, .rw, 0, false, 0, 3⟩
def Fd.TEST_SEL_UNIT : Field := ⟨0x40, 1, 15, 12, .rw, 0, false, 0, 15⟩
def Fd.TEST_SEL_SUB : Field := ⟨0x40, 1, 19, 16, .rw, 0, false, 0, 15⟩
def Fd.TEST_SEL_SUBKIND : Field := ⟨0x40, 1, 22, 20, .rw, 0, false, 0, 7⟩
def Fd.TEST_SEL_LANES : Field := ⟨0x40, 1, 31, 24, .rw, 0, false, 0, 255⟩
def Fd.TEST_CTRL_PATTERN : Field := ⟨0x44, 1, 3, 0, .rw, 0, false, 0, 15⟩
def Fd.TEST_CTRL_DURATION_MS : Field := ⟨0x44, 1, 23, 8, .rw, 0, false, 0, 65535⟩
def Fd.TEST_CTRL_STOP_ON_ERR : Field := ⟨0x44, 1, 24, 24, .rw, 0, false, 0, 1⟩
def Fd.TEST_GO_GO : Field := ⟨0x48, 1, 0, 0, .w1s, 0, false, 0, 1⟩
def Fd.TEST_GO_STOP : Field := ⟨0x48, 1, 1, 1, .w1s, 0, false, 0, 1⟩
def Fd.TEST_STATUS_BUSY : Field := ⟨0x4c, 1, 0, 0, .ro, 0, false, 0, 1⟩
def Fd.TEST_STATUS_RESULT : Field := ⟨0x4c, 1, 3, 1, .ro, 0, false, 0, 7⟩
def Fd.TEST_STATUS_REASON : Field := ⟨0x4c, 1, 6, 4, .ro, 0, false, 0, 7⟩
def Fd.TEST_STATUS_FENCED_UNIT : Field := ⟨0x4c, 1, 7, 7, .ro, 0, false, 0, 1⟩
def Fd.TEST_ELAPSED_VALUE : Field := ⟨0x50, 1, 31, 0, .ro, 0, false, 0, 4294967295⟩
def Fd.TEST_ERRORS_VALUE : Field := ⟨0x5c, 1, 31, 0, .ro, 0, false, 0, 4294967295⟩
def Fd.TEST_FIRST_ERR_VALUE : Field := ⟨0x60, 1, 31, 0, .ro, 0, false, 0, 4294967295⟩
def Fd.TEST_BITS_LO_COUNT : Field := ⟨0x54, 1, 31, 0, .ro, 0, false, 0, 4294967295⟩
def Fd.TEST_BITS_HI_COUNT : Field := ⟨0x58, 1, 31, 0, .ro, 0, false, 0, 4294967295⟩
def Fd.TEST_WIRE_FAIL_WIRES : Field := ⟨0x64, 3, 31, 0, .ro, 0, false, 0, 4294967295⟩
def Fd.TEST_USER_PATTERN_WORD : Field := ⟨0x400, 1, 31, 0, .rw, 0, false, 0, 4294967295⟩
def Fd.TEST_INJECT_ONE : Field := ⟨0x404, 1, 0, 0, .w1s, 0, false, 0, 1⟩

/-! CLK (spec/19_connectors_power_mechanics.md) -/

def Fd.CLK_PLL_LOCK_LOCKED : Field := ⟨0x40, 1, 24, 0, .ro, 0, false, 0, 33554431⟩
def Fd.CLK_REF_STATUS_REF156 : Field := ⟨0x44, 1, 0, 0, .ro, 0, false, 0, 1⟩
def Fd.CLK_REF_STATUS_PPS_PRESENT : Field := ⟨0x44, 1, 1, 1, .ro, 0, false, 0, 1⟩
def Fd.CLK_REF_STATUS_PPS_ALIGNED : Field := ⟨0x44, 1, 2, 2, .ro, 0, false, 0, 1⟩
def Fd.CLK_PPS_CTRL_USE : Field := ⟨0x48, 1, 0, 0, .rws, 1, true, 0, 1⟩
def Fd.CLK_PPS_CTRL_FALLING : Field := ⟨0x48, 1, 1, 1, .rws, 0, true, 0, 1⟩
def Fd.CLK_PPS_CTRL_TERM : Field := ⟨0x48, 1, 2, 2, .rws, 0, true, 0, 1⟩
def Fd.CLK_CPU_MHZ_MHZ : Field := ⟨0x50, 4, 11, 0, .ro, 0, false, 0, 4095⟩

/-! PWR (spec/19_connectors_power_mechanics.md) -/

def Fd.PWR_DOMAIN_UP_UP : Field := ⟨0x40, 1, 31, 0, .ro, 0, false, 0, 4294967295⟩
def Fd.PWR_INPUT_MAIN_MV : Field := ⟨0x44, 1, 15, 0, .ro, 0, false, 0, 65535⟩
def Fd.PWR_INPUT_AUX_MV : Field := ⟨0x44, 1, 31, 16, .ro, 0, false, 0, 65535⟩
def Fd.PWR_POWER_DW : Field := ⟨0x48, 1, 15, 0, .ro, 0, false, 0, 65535⟩
def Fd.PWR_SIDEBAND_PWRDIS : Field := ⟨0x4c, 1, 0, 0, .ro, 0, false, 0, 1⟩
def Fd.PWR_SIDEBAND_RESET_LOW : Field := ⟨0x4c, 1, 1, 1, .ro, 0, false, 0, 1⟩
def Fd.PWR_SIDEBAND_CAGE0_PRESENT : Field := ⟨0x4c, 1, 2, 2, .ro, 0, false, 0, 1⟩
def Fd.PWR_SIDEBAND_CAGE1_PRESENT : Field := ⟨0x4c, 1, 3, 3, .ro, 0, false, 0, 1⟩
def Fd.PWR_SIDEBAND_CAGE0_POWER : Field := ⟨0x4c, 1, 4, 4, .ro, 0, false, 0, 1⟩
def Fd.PWR_SIDEBAND_CAGE1_POWER : Field := ⟨0x4c, 1, 5, 5, .ro, 0, false, 0, 1⟩
def Fd.PWR_LED_LOCATE : Field := ⟨0x50, 1, 0, 0, .rw, 0, false, 0, 1⟩

/-- The fields of DEV. -/
def RegMap.dev : List Field :=
  [Fd.DEV_SERIAL_LO_ASCII, Fd.DEV_SERIAL_HI_ASCII, Fd.DEV_FW_SLOT_ACTIVE, Fd.DEV_FW_SLOT_PENDING, Fd.DEV_FW_SLOT_TRIAL, Fd.DEV_FW_SLOT_VALID, Fd.DEV_PTP_DOMAIN, Fd.DEV_PTP_ENABLE, Fd.DEV_PTP_LOCKED, Fd.DEV_TIME_LO_NS, Fd.DEV_TIME_HI_NS, Fd.DEV_TIME_SET_LO_NS, Fd.DEV_TIME_SET_HI_NS, Fd.DEV_TIME_SET_GO_GO]
/-- The fields of MODE. -/
def RegMap.mode : List Field :=
  [Fd.MODE_MODE_CUR_MODE, Fd.MODE_MODE_CUR_STAGE, Fd.MODE_MODE_CUR_METHOD, Fd.MODE_MODE_CUR_PREV, Fd.MODE_MODE_CUR_START_HOLD, Fd.MODE_MODE_REQ_REQ, Fd.MODE_REDUCED_CAUSE_BANDS, Fd.MODE_REDUCED_CAUSE_CORES, Fd.MODE_REDUCED_CAUSE_CLUSTER, Fd.MODE_REDUCED_CAUSE_MEDIA_CORES, Fd.MODE_REDUCED_CAUSE_ENGINES, Fd.MODE_REDUCED_CAUSE_LINK, Fd.MODE_REDUCED_CAUSE_MP, Fd.MODE_PRESERVE_CAUSE_SPARES, Fd.MODE_PRESERVE_CAUSE_MEDIA, Fd.MODE_PRESERVE_CAUSE_DRAM, Fd.MODE_PRESERVE_CAUSE_PORTS, Fd.MODE_PRESERVE_CAUSE_HOLDUP, Fd.MODE_PRESERVE_CAUSE_QUADRANT, Fd.MODE_PRESERVE_CAUSE_FLUSH, Fd.MODE_PRESERVE_CAUSE_MANAGER, Fd.MODE_PRESERVE_CAUSE_STORE, Fd.MODE_PRESERVE_CAUSE_REGS, Fd.MODE_START_CTRL_AUTO, Fd.MODE_START_CTRL_AUTO_RETURN, Fd.MODE_START_CTRL_DRAIN_LIMIT, Fd.MODE_STAGE_TIME_MS, Fd.MODE_SKIP_LATCH_SEP, Fd.MODE_SKIP_LATCH_OCT, Fd.MODE_SKIP_LATCH_NOV_P0, Fd.MODE_SKIP_LATCH_NOV_P1, Fd.MODE_LEDGER_SEL_INDEX, Fd.MODE_LEDGER_STARTS_START_NO, Fd.MODE_RESTORE_STATUS_RESTORED, Fd.MODE_RESTORE_STATUS_FACTORY, Fd.MODE_RESTORE_STATUS_ALT, Fd.MODE_RESTORE_STATUS_LIST_FULL, Fd.MODE_RESTORE_STATUS_COPY_A_OK, Fd.MODE_RESTORE_STATUS_COPY_B_OK, Fd.MODE_SHUTDOWN_STATUS_LAST] ++
  [Fd.MODE_SHUTDOWN_STATUS_STEP, Fd.MODE_LEDGER_DATA_DATA, Fd.MODE_STAGE_FORCE_FORCE0, Fd.MODE_STAGE_FORCE_FORCE1, Fd.MODE_STAGE_FORCE_FORCE2, Fd.MODE_STAGE_FORCE_FORCE3, Fd.MODE_STAGE_FORCE_FORCE4, Fd.MODE_STAGE_FORCE_FORCE5, Fd.MODE_STAGE_FORCE_FORCE6, Fd.MODE_STAGE_FORCE_FORCE7, Fd.MODE_STAGE_FORCE_FORCE8, Fd.MODE_STAGE_FORCE_FORCE9, Fd.MODE_STAGE_FORCE_FORCE10, Fd.MODE_STAGE_FORCE_FORCE11, Fd.MODE_STAGE_FORCE_FORCE12, Fd.MODE_STAGE_FORCE_FORCE13, Fd.MODE_RESTORE_FAIL_COUNT, Fd.MODE_RESTORE_LIST_PAGE]
/-- The fields of CLK. -/
def RegMap.clk : List Field :=
  [Fd.CLK_PLL_LOCK_LOCKED, Fd.CLK_REF_STATUS_REF156, Fd.CLK_REF_STATUS_PPS_PRESENT, Fd.CLK_REF_STATUS_PPS_ALIGNED, Fd.CLK_PPS_CTRL_USE, Fd.CLK_PPS_CTRL_FALLING, Fd.CLK_PPS_CTRL_TERM, Fd.CLK_CPU_MHZ_MHZ]
/-- The fields of PWR. -/
def RegMap.pwr : List Field :=
  [Fd.PWR_DOMAIN_UP_UP, Fd.PWR_INPUT_MAIN_MV, Fd.PWR_INPUT_AUX_MV, Fd.PWR_POWER_DW, Fd.PWR_SIDEBAND_PWRDIS, Fd.PWR_SIDEBAND_RESET_LOW, Fd.PWR_SIDEBAND_CAGE0_PRESENT, Fd.PWR_SIDEBAND_CAGE1_PRESENT, Fd.PWR_SIDEBAND_CAGE0_POWER, Fd.PWR_SIDEBAND_CAGE1_POWER, Fd.PWR_LED_LOCATE]
/-- The fields of HOLD. -/
def RegMap.hold : List Field :=
  [Fd.HOLD_CTRL_PF_THRESH, Fd.HOLD_CTRL_WINDOW_CAP, Fd.HOLD_STORE_V_MV, Fd.HOLD_STORE_CHARGING, Fd.HOLD_STORE_MEASURING, Fd.HOLD_CAP_UF, Fd.HOLD_CAP_BOL_UF, Fd.HOLD_ENERGY_MJ, Fd.HOLD_WINDOW_MIB, Fd.HOLD_ACKED_MIB, Fd.HOLD_ACKED_BUFFERED_MIB, Fd.HOLD_MEAS_STATUS_METHOD, Fd.HOLD_MEAS_STATUS_OK, Fd.HOLD_MEAS_STATUS_FAILS, Fd.HOLD_MEAS_STATUS_STALE, Fd.HOLD_MEAS_STATUS_AGE_S, Fd.HOLD_LAST_FLUSH_TIME_VALUE, Fd.HOLD_LAST_FLUSH_ENERGY_VALUE, Fd.HOLD_LAST_FLUSH_DATA_PASS1_MIB, Fd.HOLD_LAST_FLUSH_DATA_PASS2_MIB, Fd.HOLD_LAST_FLUSH_LOST_REVERTED, Fd.HOLD_LAST_FLUSH_LOST_LOG_DROPPED, Fd.HOLD_E_FIXED_MJ, Fd.HOLD_E_GIB_MJ, Fd.HOLD_VLIMITS_VOP_MV, Fd.HOLD_VLIMITS_VMIN_MV, Fd.HOLD_MEAS_GO_GO]
/-- The fields of SENS. -/
def RegMap.sens : List Field :=
  [Fd.SENS_SEL_INDEX, Fd.SENS_VALUE_READING, Fd.SENS_VALUE_STATE, Fd.SENS_PEAK_READING, Fd.SENS_SUMMARY_CEILING, Fd.SENS_SUMMARY_THROTTLING, Fd.SENS_SUMMARY_HOT, Fd.SENS_SUMMARY_WARN, Fd.SENS_SUMMARY_FAILED, Fd.SENS_THROTTLE_CTRL_STEP_PCT, Fd.SENS_THROTTLE_CTRL_HYST_C, Fd.SENS_THROTTLE_CTRL_RECOVER_S]
/-- The fields of LOG. -/
def RegMap.log : List Field :=
  [Fd.LOG_HEAD_SEQ, Fd.LOG_TAIL_SEQ, Fd.LOG_MIRROR_TAIL_SEQ, Fd.LOG_NOTIFY_MIN_SEV, Fd.LOG_STATUS_MIRROR_LAG, Fd.LOG_ENTRY_SEL_SEQ, Fd.LOG_ENTRY_DATA]
/-- The fields of SEC. -/
def RegMap.sec : List Field :=
  [Fd.SEC_FUSES_PROGRAMMED, Fd.SEC_FUSES_REVOKED, Fd.SEC_FUSES_ACTIVE, Fd.SEC_ROLLBACK_SEL_CLASS, Fd.SEC_ROLLBACK_LO_COUNT, Fd.SEC_ROLLBACK_HI_COUNT, Fd.SEC_TRNG_FAILED, Fd.SEC_KEY_SEL_SLOT, Fd.SEC_KEY_INFO_TYPE, Fd.SEC_KEY_INFO_SCOPE_ALL, Fd.SEC_KEY_INFO_ORIGIN, Fd.SEC_KEY_INFO_OWNER, Fd.SEC_KEY_INFO_PERM, Fd.SEC_KEY_INFO_LEN, Fd.SEC_KEY_STATUS_BUSY, Fd.SEC_KEY_STATUS_RESULT, Fd.SEC_KEY_STATUS_FREE, Fd.SEC_KEY_ATTR_TYPE, Fd.SEC_KEY_ATTR_SCOPE_ALL, Fd.SEC_KEY_ATTR_OWNER, Fd.SEC_KEY_ATTR_PERM, Fd.SEC_KEY_ATTR_LEN, Fd.SEC_KEY_BIND_BIND, Fd.SEC_KEY_OP_OP, Fd.SEC_KEY_OP_WRAP_SLOT, Fd.SEC_KEY_OP_GO, Fd.SEC_KEY_DATA_DATA]
/-- The fields of NET. -/
def RegMap.net : List Field :=
  [Fd.NET_NET_CTRL_ENABLE, Fd.NET_NET_CTRL_BREAKOUT, Fd.NET_NET_CTRL_MACSEC_MODE, Fd.NET_NET_CTRL_MAX_FRAME, Fd.NET_NET_STATUS_LINK_UP, Fd.NET_NET_STATUS_DEGRADED, Fd.NET_NET_STATUS_LANE_LOCK, Fd.NET_NET_STATUS_FAILED, Fd.NET_NET_STATUS_SELFTEST, Fd.NET_MAC_LO_ADDR, Fd.NET_MAC_HI_ADDR, Fd.NET_FAULT_LIMIT_UNCORR, Fd.NET_PFC_CTRL_LOSSLESS, Fd.NET_PFC_CTRL_WD_MS, Fd.NET_ETS_BW_LO_TC0, Fd.NET_ETS_BW_LO_TC1, Fd.NET_ETS_BW_LO_TC2, Fd.NET_ETS_BW_LO_TC3, Fd.NET_ETS_BW_HI_TC0, Fd.NET_ETS_BW_HI_TC1, Fd.NET_ETS_BW_HI_TC2, Fd.NET_ETS_BW_HI_TC3, Fd.NET_ETS_STRICT_STRICT, Fd.NET_CNT_SEL_SUB, Fd.NET_CNT_COUNT, Fd.NET_MACSEC_CTRL_REPLAY_WIN, Fd.NET_MACSEC_SA_KEY_SLOT, Fd.NET_MACSEC_SA_AN, Fd.NET_MACSEC_SA_VALID, Fd.NET_MACSEC_SA_ACTIVE, Fd.NET_EQ_LANE_EQ, Fd.NET_EQ_CLEAR_CLEAR]
/-- The fields of NETX. -/
def RegMap.netx : List Field :=
  [Fd.NETX_ADDR_SEL_INDEX, Fd.NETX_ADDR_DATA_DATA, Fd.NETX_TCP_TIMER_RTO_MIN, Fd.NETX_TCP_TIMER_RETRIES, Fd.NETX_ROCE_TIMER_TIMEOUT, Fd.NETX_ROCE_TIMER_RETRY, Fd.NETX_ROCE_TIMER_RNR_RETRY, Fd.NETX_ECN_KMIN, Fd.NETX_ECN_KMAX, Fd.NETX_ECN_PMAX, Fd.NETX_SPILL_ON, Fd.NETX_SPILL_ENABLE, Fd.NETX_CONN_COOKIE_AT, Fd.NETX_CONN_COOKIE_ALWAYS, Fd.NETX_TLS_AES256, Fd.NETX_TLS_AES128, Fd.NETX_TLS_X25519, Fd.NETX_TLS_SECP384, Fd.NETX_AUTH_SHA256, Fd.NETX_AUTH_SHA384, Fd.NETX_AUTH_SHA512, Fd.NETX_AUTH_NULL_DH, Fd.NETX_AUTH_FFDHE3072, Fd.NETX_AUTH_FFDHE4096, Fd.NETX_AUTH_FFDHE8192, Fd.NETX_CONN_STATUS_TCP, Fd.NETX_CONN_STATUS_ROCE, Fd.NETX_BUF_STATUS_SRAM_KIB, Fd.NETX_BUF_STATUS_SPILL_MIB, Fd.NETX_BUF_STATUS_SPILLING, Fd.NETX_BUF_STATUS_COOKIES, Fd.NETX_CNT_COUNT, Fd.NETX_RC1_G_LOG2, Fd.NETX_RC1_T_ALPHA, Fd.NETX_RC1_T_INC, Fd.NETX_RC2_RAI, Fd.NETX_RC2_RHAI, Fd.NETX_RC3_RMIN, Fd.NETX_RC3_F, Fd.NETX_RC3_T_CUT] ++
  [Fd.NETX_RC4_RTT_HIGH, Fd.NETX_RC4_RTT_ENABLE]
/-- The fields of CLS. -/
def RegMap.cls : List Field :=
  [Fd.CLS_RULE_SEL_INDEX, Fd.CLS_RULE_DATA_DATA, Fd.CLS_REVOKE_INDEX, Fd.CLS_REVOKE_GO, Fd.CLS_CLS_STATUS_VALID_RULES, Fd.CLS_CLS_STATUS_HELD_OFF, Fd.CLS_RATE_RATE, Fd.CLS_RATE_BURST, Fd.CLS_CNT_COUNT, Fd.CLS_HOLDOFF_FAILS, Fd.CLS_HOLDOFF_WINDOW, Fd.CLS_HOLDOFF_HOLD]
/-- The fields of CMD. -/
def RegMap.cmd : List Field :=
  [Fd.CMD_XFER_TIMEOUT_MS, Fd.CMD_KATO_MAX_S, Fd.CMD_CTX_STATUS_IO_USED, Fd.CMD_CTX_STATUS_ADMIN_USED, Fd.CMD_ACT_STATUS_ADMIT_STOPPED, Fd.CMD_ACT_STATUS_LAST_PAUSE_US, Fd.CMD_CNT_COUNT]
/-- The fields of ARB. -/
def RegMap.arb : List Field :=
  [Fd.ARB_ROUNDS_COUNT, Fd.ARB_INST_SEL_INDEX, Fd.ARB_DEFICIT_D, Fd.ARB_URGENT_UD, Fd.ARB_CTX_HELD_HELD, Fd.ARB_CTX_LIMIT_LIMIT, Fd.ARB_INST_STATE_BACKLOG, Fd.ARB_INST_STATE_OVER_LIMIT, Fd.ARB_UD_CAP_ROUNDS]
/-- The fields of INSTM. -/
def RegMap.instm : List Field :=
  [Fd.INSTM_ENABLE_EN_0, Fd.INSTM_ENABLE_EN0, Fd.INSTM_ENABLE_EN, Fd.INSTM_CFG_SEL_INDEX, Fd.INSTM_CFG_CAP_QUOTA_GB, Fd.INSTM_CFG_URG_TARGET_US, Fd.INSTM_ACTION_INDEX, Fd.INSTM_ACTION_OP, Fd.INSTM_ACTION_GO, Fd.INSTM_ACTION_STATUS_BUSY, Fd.INSTM_ACTION_STATUS_RESULT, Fd.INSTM_ENABLED_COUNT_COUNT, Fd.INSTM_MBO_SEL_INDEX, Fd.INSTM_MBO_SEND_GO, Fd.INSTM_MBO_STATUS_RESULT, Fd.INSTM_MBO_STATUS_QUEUED, Fd.INSTM_MBI_ACK_INDEX, Fd.INSTM_MBI_ACK_GO, Fd.INSTM_MBI_PEND_PEND, Fd.INSTM_NOTICE_SEQ_LAST, Fd.INSTM_MBO_DATA_DATA, Fd.INSTM_SHARE_CTRL_EXPLICIT, Fd.INSTM_SHARE_UNITS_0, Fd.INSTM_SHARE_UNITS]
/-- The fields of MEDIA. -/
def RegMap.media : List Field :=
  [Fd.MEDIA_SLC_CTRL_POOL_PCT, Fd.MEDIA_SLC_CTRL_OPEN_SLC, Fd.MEDIA_SLC_CTRL_FOLD_AGE_H, Fd.MEDIA_FOLD_CTRL_FOLD_HI, Fd.MEDIA_FOLD_CTRL_FOLD_URGENT, Fd.MEDIA_FOLD_CTRL_RECLAIM_PCT, Fd.MEDIA_FOLD_CTRL_FOLD_SHARE, Fd.MEDIA_ROW_CLOSE_WAIT_US, Fd.MEDIA_ROW_CLOSE_IDLE_MS, Fd.MEDIA_STATUS_DIRECT, Fd.MEDIA_STATUS_FOLDING, Fd.MEDIA_STATUS_URGENT, Fd.MEDIA_STATUS_SLC_FREE_PCT, Fd.MEDIA_STATUS_OPEN_BANDS, Fd.MEDIA_SLC_FREE_BLOCKS, Fd.MEDIA_QLC_FREE_BLOCKS, Fd.MEDIA_PHYS_USED_GIB, Fd.MEDIA_PHYS_FREE_GIB, Fd.MEDIA_BAND_SEL_BAND, Fd.MEDIA_BAND_INFO_STATE, Fd.MEDIA_BAND_INFO_STREAM, Fd.MEDIA_BAND_INFO_SLC, Fd.MEDIA_BAND_INFO_UNREADABLE, Fd.MEDIA_BAND_INFO_VALID, Fd.MEDIA_BAND_MEMBER_LANE, Fd.MEDIA_BAND_MEMBER_DIE, Fd.MEDIA_BAND_MEMBER_PLANE, Fd.MEDIA_BAND_MEMBER_BLOCK, Fd.MEDIA_BAND_MEMBER_PARITY, Fd.MEDIA_BAND_MEMBER_UNREADABLE, Fd.MEDIA_CNT_COUNT, Fd.MEDIA_CLASSIFY_T0_MAX, Fd.MEDIA_CLASSIFY_T1_MAX, Fd.MEDIA_CLASSIFY_T2_MAX, Fd.MEDIA_CLASSIFY_FIRST, Fd.MEDIA_GC_CTRL_GC_START, Fd.MEDIA_GC_CTRL_GC_URGENT, Fd.MEDIA_GC_CTRL_BAND_RESERVE, Fd.MEDIA_GC_CTRL_GC_SHARE, Fd.MEDIA_CAP_RESERVE_RESERVE_GB] ++
  [Fd.MEDIA_CAP_RESERVE_HYST_GB, Fd.MEDIA_PATROL_CTRL_DAYS, Fd.MEDIA_PATROL_CTRL_MARGIN_OK, Fd.MEDIA_PATROL_CTRL_MARGIN_REFRESH, Fd.MEDIA_PATROL_CTRL_FLOOR_PERMILLE, Fd.MEDIA_CATCHUP_CTRL_PCT, Fd.MEDIA_CATCHUP_CTRL_MIN_H, Fd.MEDIA_GC_STATUS_AVAIL, Fd.MEDIA_GC_STATUS_LEVEL, Fd.MEDIA_GC_STATUS_CAP_EXCEEDED, Fd.MEDIA_GC_STATUS_CATCHUP, Fd.MEDIA_GC_STATUS_TIME_KNOWN, Fd.MEDIA_GC_STATUS_VICTIM_VALID, Fd.MEDIA_SPARE_STATUS_SPARES, Fd.MEDIA_SPARE_STATUS_AVAIL_PCT, Fd.MEDIA_SPARE_POOL_BLOCKS, Fd.MEDIA_SPARE_POOL_LANES_LOW, Fd.MEDIA_WEAR_MEAN, Fd.MEDIA_WEAR_MAX, Fd.MEDIA_ENDURANCE_TB, Fd.MEDIA_PCT_USED_PERCENT, Fd.MEDIA_PATROL_STATUS_CATCHUP_PCT, Fd.MEDIA_PATROL_STATUS_OVERDUE, Fd.MEDIA_GC_CNT_COUNT, Fd.MEDIA_SPARE_CTRL_REFILL_AT, Fd.MEDIA_SPARE_CTRL_REFILL_TO, Fd.MEDIA_SPARE_MIN_BLOCKS, Fd.MEDIA_WL_CTRL_SPREAD, Fd.MEDIA_WL_CTRL_RETIRE_WEAR, Fd.MEDIA_DISTURB_QLC_K, Fd.MEDIA_DISTURB_SLC_K, Fd.MEDIA_GC_AGE_AGE_D]
/-- The fields of MAPC. -/
def RegMap.mapc : List Field :=
  [Fd.MAPC_CLEAN_DIRTY_HI, Fd.MAPC_CLEAN_DIRTY_LO, Fd.MAPC_CLEAN_AGE_S, Fd.MAPC_CKPT_INTERVAL_S, Fd.MAPC_CKPT_JOURNAL_GIB, Fd.MAPC_HINTS_DEPTH, Fd.MAPC_HINTS_SCAN_AHEAD, Fd.MAPC_HINTS_HOST, Fd.MAPC_HINTS_SCAN_RESIST, Fd.MAPC_QUAD_SEL_INDEX, Fd.MAPC_STATUS_ENABLED, Fd.MAPC_STATUS_DRAINING, Fd.MAPC_STATUS_RESIZED, Fd.MAPC_STATUS_DIRTY_PCT, Fd.MAPC_STATUS_EVB_USED, Fd.MAPC_LINES_VALID_LINES, Fd.MAPC_LINES_DIRTY_LINES, Fd.MAPC_QUEUES_MISSES, Fd.MAPC_QUEUES_HINTS, Fd.MAPC_CKPT_NO_NUMBER, Fd.MAPC_REPLAY_LAG_MIB, Fd.MAPC_CNT_COUNT, Fd.MAPC_HINT_LO_WORD, Fd.MAPC_HINT_HI_WORD, Fd.MAPC_HINT_GO_GO, Fd.MAPC_CTRL_ENABLE]
/-- The fields of PAR. -/
def RegMap.par : List Field :=
  [Fd.PAR_REBUILD_CTRL_SHARE_PCT, Fd.PAR_REBUILD_CTRL_URGENT_PCT, Fd.PAR_BANDS_1_COUNT, Fd.PAR_BANDS_2_COUNT, Fd.PAR_BANDS_LOST_COUNT, Fd.PAR_REBUILD_BAND_BAND, Fd.PAR_REBUILD_ROW_ROW, Fd.PAR_CNT_COUNT, Fd.PAR_CHECK_BAND_BAND, Fd.PAR_CHECK_GO_GO, Fd.PAR_CHECK_STATUS_BUSY, Fd.PAR_CHECK_STATUS_MISMATCH, Fd.PAR_CHECK_STATUS_ROW]
/-- The fields of TEST. -/
def RegMap.test : List Field :=
  [Fd.TEST_SEL_IFACE, Fd.TEST_SEL_DEPTH, Fd.TEST_SEL_QUAD, Fd.TEST_SEL_UNIT, Fd.TEST_SEL_SUB, Fd.TEST_SEL_SUBKIND, Fd.TEST_SEL_LANES, Fd.TEST_CTRL_PATTERN, Fd.TEST_CTRL_DURATION_MS, Fd.TEST_CTRL_STOP_ON_ERR, Fd.TEST_GO_GO, Fd.TEST_GO_STOP, Fd.TEST_STATUS_BUSY, Fd.TEST_STATUS_RESULT, Fd.TEST_STATUS_REASON, Fd.TEST_STATUS_FENCED_UNIT, Fd.TEST_ELAPSED_VALUE, Fd.TEST_ERRORS_VALUE, Fd.TEST_FIRST_ERR_VALUE, Fd.TEST_BITS_LO_COUNT, Fd.TEST_BITS_HI_COUNT, Fd.TEST_WIRE_FAIL_WIRES, Fd.TEST_USER_PATTERN_WORD, Fd.TEST_INJECT_ONE]
/-- The fields of QCTL. -/
def RegMap.qctl : List Field :=
  []
/-- The fields of LANE. -/
def RegMap.lane : List Field :=
  [Fd.LANE_LANE_STATUS_RATE, Fd.LANE_LANE_STATUS_FENCED, Fd.LANE_DIE_PRESENT_DIES, Fd.LANE_DIE_FENCED_DIES, Fd.LANE_CNT_COUNT]
/-- The fields of MEM. -/
def RegMap.mem : List Field :=
  []
/-- The fields of CLU. -/
def RegMap.clu : List Field :=
  [Fd.CLU_CORECFG_RSWRAP, Fd.CLU_CORE_STATE_STATE0, Fd.CLU_CORE_STATE_STATE1, Fd.CLU_CORE_STATE_STATE2, Fd.CLU_CORE_STATE_STATE3, Fd.CLU_CORE_STATE_STATE4, Fd.CLU_CORE_STATE_STATE5, Fd.CLU_CORE_STATE_STATE6, Fd.CLU_CORE_STATE_STATE7, Fd.CLU_CORE_STATE_STATE8, Fd.CLU_CORE_STATE_STATE9, Fd.CLU_CORE_STATE_STATE10, Fd.CLU_CORE_STATE_STATE11, Fd.CLU_CORE_STATE_STATE12, Fd.CLU_CORE_STATE_STATE13, Fd.CLU_CORE_STATE_STATE14, Fd.CLU_CORE_STATE_STATE15, Fd.CLU_CORE_SEL_INDEX, Fd.CLU_CORE_TASK_INSTANCE, Fd.CLU_CORE_TASK_NODE, Fd.CLU_CORE_TASK_ATTEMPT, Fd.CLU_CORE_TASK_PROGRAM, Fd.CLU_LAST_EXC_CODE, Fd.CLU_LAST_EXC_INSTANCE, Fd.CLU_LAST_PC_OFFSET, Fd.CLU_FENCED_CORES, Fd.CLU_L2_STATUS_ENABLED, Fd.CLU_L2_STATUS_DRAINING, Fd.CLU_L2_STATUS_DIRTY, Fd.CLU_CNT_COUNT, Fd.CLU_L2CTRL_ENABLE, Fd.CLU_TEST_GO_CORE, Fd.CLU_TEST_GO_GO]
/-- The fields of TSK. -/
def RegMap.tsk : List Field :=
  [Fd.TSK_WAIT_DEFAULT_US, Fd.TSK_DISPATCH_AFFINITY, Fd.TSK_STORE_STATUS_USED, Fd.TSK_STORE_TOMB_TOMBSTONES, Fd.TSK_READY_A_PRIO0, Fd.TSK_READY_B_PRIO2, Fd.TSK_READY_A_PRIO1, Fd.TSK_READY_B_PRIO3, Fd.TSK_CORES_HEALTHY, Fd.TSK_CORES_BUSY, Fd.TSK_CORES_TESTING, Fd.TSK_FLOW_SEL_SLOT, Fd.TSK_FLOW_STATUS_STATE, Fd.TSK_FLOW_STATUS_INSTANCE, Fd.TSK_FLOW_STATUS_PEND, Fd.TSK_FLOW_BASE_LO_BASE, Fd.TSK_FLOW_BASE_HI_BASE, Fd.TSK_FLOW_ERR_ERRORS, Fd.TSK_INST_SEL_INDEX, Fd.TSK_INST_ENTRIES_ENTRIES, Fd.TSK_INST_RESERVED_ENTRIES, Fd.TSK_CNT_COUNT, Fd.TSK_REEXEC_LIMIT, Fd.TSK_BASE_BCAST_RELEASES, Fd.TSK_BASE_BCAST_MAX_US]
/-- The fields of BUF. -/
def RegMap.buf : List Field :=
  [Fd.BUF_CTRL_FALLBACK, Fd.BUF_CTRL_OVERFLOW, Fd.BUF_CTRL_BORROW_X, Fd.BUF_RES_LO_RES0, Fd.BUF_RES_LO_RES1, Fd.BUF_RES_LO_RES2, Fd.BUF_RES_LO_RES3, Fd.BUF_RES_HI_RES4, Fd.BUF_FREE_SRAM_BUFFERS, Fd.BUF_FREE_DRAM_BUFFERS, Fd.BUF_WRITE_FREE_BUFFERS, Fd.BUF_REQ_SEL_INSTANCE, Fd.BUF_REQ_SEL_CLASS, Fd.BUF_REQ_SRAM_KIB, Fd.BUF_REQ_DRAM_KIB, Fd.BUF_REQ_MIN_KIB, Fd.BUF_REQ_STATE_WAITING, Fd.BUF_REQ_STATE_BORROWING, Fd.BUF_RETIRED_BUFFERS, Fd.BUF_CNT_COUNT, Fd.BUF_SPLIT_SRAM_MIB0, Fd.BUF_SPLIT_SRAM_MIB1, Fd.BUF_SPLIT_SRAM_MIB2, Fd.BUF_SPLIT_SRAM_MIB3, Fd.BUF_SPLIT_SRAM_MIB4, Fd.BUF_SPLIT_DRAM_UNITS0, Fd.BUF_SPLIT_DRAM_UNITS1, Fd.BUF_SPLIT_DRAM_UNITS2, Fd.BUF_SPLIT_DRAM_UNITS3, Fd.BUF_SPLIT_DRAM_UNITS4]
/-- The fields of MAT. -/
def RegMap.mat : List Field :=
  [Fd.MAT_LIMIT_MAX_ENTRIES, Fd.MAT_UNITS_HEALTHY, Fd.MAT_UNITS_BUSY, Fd.MAT_UNITS_FENCED, Fd.MAT_UNITS_INDEX_FENCED, Fd.MAT_AUTO_STATUS_USED, Fd.MAT_AUTO_STATUS_SPARE_FREE, Fd.MAT_AUTO_STATUS_OVERDRAWN, Fd.MAT_INST_SEL_INDEX, Fd.MAT_INST_AUTO_HELD, Fd.MAT_INST_AUTO_ENTITLED, Fd.MAT_QUEUE_WAITING, Fd.MAT_IDX_STATUS_SEARCHES, Fd.MAT_IDX_STATUS_UPDATES, Fd.MAT_CNT_COUNT, Fd.MAT_AUTO_LIMIT_BLOCKS, Fd.MAT_AUTO_SPARE_BLOCKS, Fd.MAT_PROBE_SEL_INSTANCE, Fd.MAT_PROBE_SEL_PROGRAM, Fd.MAT_PROBE_SEL_SECTION, Fd.MAT_PROBE_SEL_VALID, Fd.MAT_PROBE_CTRL_LENGTH, Fd.MAT_PROBE_GO_GO, Fd.MAT_PROBE_GO_STEP, Fd.MAT_PROBE_RESULT_END, Fd.MAT_PROBE_RESULT_MULTI, Fd.MAT_PROBE_RESULT_LITERAL, Fd.MAT_PROBE_RESULT_VALID, Fd.MAT_PROBE_RESULT_BUSY, Fd.MAT_PROBE_RESULT_OVER, Fd.MAT_PROBE_MATCH_INDEX, Fd.MAT_PROBE_MATCH_PRIORITY, Fd.MAT_PROBE_DATA_DATA]
/-- The fields of CMP. -/
def RegMap.cmp : List Field :=
  [Fd.CMP_INLINE_ENABLE, Fd.CMP_INLINE_LEVEL, Fd.CMP_YIELD_US, Fd.CMP_YIELD_MAX_SUSP, Fd.CMP_UNITS_COMP_HEALTHY, Fd.CMP_UNITS_DECOMP_HEALTHY, Fd.CMP_UNITS_COMP_FENCED, Fd.CMP_UNITS_DECOMP_FENCED, Fd.CMP_UNITS_COMP_BUSY, Fd.CMP_UNITS_DECOMP_BUSY, Fd.CMP_CONTEXTS_COMP_USED, Fd.CMP_CONTEXTS_DECOMP_USED, Fd.CMP_QUEUE_COMP_WAITING, Fd.CMP_QUEUE_DECOMP_WAITING, Fd.CMP_RATIO_PERMILLE, Fd.CMP_CNT_COUNT, Fd.CMP_ERRS_COUNT, Fd.CMP_ZSTD_CFG_WLOG]
/-- The fields of DIG. -/
def RegMap.dig : List Field :=
  [Fd.DIG_SCHED_BLOCKS, Fd.DIG_REQ_CTRL_WAIT_MS, Fd.DIG_REQ_CTRL_IDLE_S, Fd.DIG_UNITS_HEALTHY, Fd.DIG_UNITS_BUSY, Fd.DIG_UNITS_FENCED, Fd.DIG_CONTEXTS_USED, Fd.DIG_CONTEXTS_WAITING, Fd.DIG_REQ_CMD_OP, Fd.DIG_REQ_CMD_ALG, Fd.DIG_REQ_CMD_HMAC, Fd.DIG_REQ_CMD_COMPARE, Fd.DIG_REQ_CMD_DERIVE, Fd.DIG_REQ_CMD_KEY_SLOT, Fd.DIG_REQ_CMD_LEN, Fd.DIG_REQ_CMD_GO, Fd.DIG_REQ_TARGET_SLOT, Fd.DIG_REQ_TARGET_TYPE, Fd.DIG_REQ_TARGET_SCOPE_ALL, Fd.DIG_REQ_TARGET_LEN, Fd.DIG_REQ_ACL_OWNER, Fd.DIG_REQ_ACL_PERM, Fd.DIG_REQ_HKDF_SALT_LEN, Fd.DIG_REQ_HKDF_INFO_LEN, Fd.DIG_RESULT_EQ, Fd.DIG_RESULT_NEQ, Fd.DIG_RESULT_VALID, Fd.DIG_RESULT_BUSY, Fd.DIG_RESULT_STATUS, Fd.DIG_RESULT_LEN, Fd.DIG_RESULT_DATA_DATA, Fd.DIG_CNT_COUNT, Fd.DIG_REQ_DATA_DATA]
/-- The fields of XTS. -/
def RegMap.xts : List Field :=
  [Fd.XTS_STATUS_PIPES, Fd.XTS_STATUS_PARTNER, Fd.XTS_STATUS_KEYS, Fd.XTS_CNT_COUNT]
/-- The fields of INST. -/
def RegMap.inst : List Field :=
  [Fd.INST_INFO_INSTANCE, Fd.INST_INFO_ENABLED, Fd.INST_GEN_GENERATION, Fd.INST_GEN_RESETTING, Fd.INST_SHARE_UNITS, Fd.INST_SHARE_SETTLED, Fd.INST_SLM_ENTITLED_MIB, Fd.INST_SLM_USED_USED_MIB, Fd.INST_CAP_QUOTA_GB, Fd.INST_CAP_USED_USED_GB, Fd.INST_URG_TARGET_US, Fd.INST_RESET_GO, Fd.INST_URG_LATE_COUNT, Fd.INST_T2M_DATA_DATA, Fd.INST_T2M_DOORBELL_RING, Fd.INST_T2M_STATUS_PENDING, Fd.INST_T2M_STATUS_ACKED, Fd.INST_T2M_STATUS_LOST, Fd.INST_T2M_STATUS_SEQ, Fd.INST_M2T_DATA_DATA, Fd.INST_M2T_STATUS_FULL, Fd.INST_M2T_STATUS_SOURCE, Fd.INST_M2T_STATUS_NOTICE_LOST, Fd.INST_M2T_STATUS_QUEUED, Fd.INST_M2T_STATUS_SEQ, Fd.INST_M2T_ACK_ACK, Fd.INST_M2T_ACK_CLEAR_LOST]

/-- The fields of a page type; none where the type code is no page's. -/
def RegMap.rows (pt : Nat) : List Field :=

  if pt = PT.DEV then RegMap.dev else
  if pt = PT.MODE then RegMap.mode else
  if pt = PT.CLK then RegMap.clk else
  if pt = PT.PWR then RegMap.pwr else
  if pt = PT.HOLD then RegMap.hold else
  if pt = PT.SENS then RegMap.sens else
  if pt = PT.LOG then RegMap.log else
  if pt = PT.SEC then RegMap.sec else
  if pt = PT.NET then RegMap.net else
  if pt = PT.NETX then RegMap.netx else
  if pt = PT.CLS then RegMap.cls else
  if pt = PT.CMD then RegMap.cmd else
  if pt = PT.ARB then RegMap.arb else
  if pt = PT.INSTM then RegMap.instm else
  if pt = PT.MEDIA then RegMap.media else
  if pt = PT.MAPC then RegMap.mapc else
  if pt = PT.PAR then RegMap.par else
  if pt = PT.TEST then RegMap.test else
  if pt = PT.QCTL then RegMap.qctl else
  if pt = PT.LANE then RegMap.lane else
  if pt = PT.MEM then RegMap.mem else
  if pt = PT.CLU then RegMap.clu else
  if pt = PT.TSK then RegMap.tsk else
  if pt = PT.BUF then RegMap.buf else
  if pt = PT.MAT then RegMap.mat else
  if pt = PT.CMP then RegMap.cmp else
  if pt = PT.DIG then RegMap.dig else
  if pt = PT.XTS then RegMap.xts else
  if pt = PT.INST then RegMap.inst else
  []

/-- The number of agreement rules of a page type: PAGE_CAPS.RULES (R75, R106 to R108, R162, R193, R194,
R218, R252, R317, R370; the other pages have none). -/
def RegMap.rules (pt : Nat) : Nat :=
  if pt = PT.MODE then 2 else if pt = PT.NET then 5 else if pt = PT.NETX then 4 else if pt = PT.CLS then 2
  else if pt = PT.INSTM then 5 else if pt = PT.MEDIA then 7 else if pt = PT.PAR then 1
  else if pt = PT.MAPC then 1 else if pt = PT.BUF then 3 else if pt = PT.MAT then 3 else 0

/-- Mask of a field. -/
def Field.max1 (f : Field) : Nat := 2 ^ (f.hi + 1 - f.lo) - 1
/-- The offset lies in the field's words. -/
def Field.has (f : Field) (off : Nat) : Bool :=
  decide (f.off ≤ off) && decide (off < f.off + 4 * f.cnt) && decide (off % 4 = 0)
/-- The fields of a page type in the word at an offset. -/
def RegMap.at (pt off : Nat) : List Field := (RegMap.rows pt).filter fun f => f.has off
/-- The start word at an offset: every field at its start value (R46). -/
def RegMap.startWord (pt off : Nat) : Nat :=
  (RegMap.at pt off).foldl (fun w f => setBits w f.hi f.lo f.start) 0
/-- The word `w` with only the fields of the access codes `p` accepts, the rest zero. -/
def RegMap.only (pt off : Nat) (p : Access → Bool) (w : Nat) : Nat :=
  (RegMap.at pt off).foldl (fun r f => if p f.acc then setBits r f.hi f.lo (bitsOf w f.hi f.lo) else r) 0
/-- The word `old` with the fields of the access codes `p` accepts taken from `w`. -/
def RegMap.merge (pt off : Nat) (p : Access → Bool) (old w : Nat) : Nat :=
  (RegMap.at pt off).foldl (fun r f => if p f.acc then setBits r f.hi f.lo (bitsOf w f.hi f.lo) else r) old
/-- A field of the word at an offset satisfies `p`. -/
def RegMap.any (pt off : Nat) (p : Field → Bool) : Bool := (RegMap.at pt off).any p
/-- The staged word lies within the ranges of its RWS fields. -/
def RegMap.inRange (pt off w : Nat) : Bool :=
  (RegMap.at pt off).all fun f =>
    f.acc ≠ .rws || (decide (f.min ≤ bitsOf w f.hi f.lo) && decide (bitsOf w f.hi f.lo ≤ f.max))
/-- PAGE_CAPS of a page type (R32): STAGED, EXPERT, KEPT, TENANT, RULES. -/
def RegMap.caps (pt : Nat) : Nat :=
  let r := RegMap.rows pt
  (if r.any (fun f => f.acc = .rws) then 1 else 0) + (if r.any (fun f => 0x400 ≤ f.off) then 2 else 0)
    + (if r.any (·.kept) then 4 else 0) + (if pt = PT.INST then 8 else 0) + RegMap.rules pt * 256

end Sys2Proof
end

