-- ==== Sys2Proof/Machine/Pages.lean ====
section
/-! DEFINITION. The allocation of the control space: which pages exist, their types, units and quadrants, and the
power domain that each lies in (R29, R21, R32, R458). A page is named by the number of its 4 KiB frame. -/

namespace Sys2Proof

/-- Page numbers of the module's own pages (R29). -/
def Pg.DEV : Nat := 0x0
def Pg.MODE : Nat := 0x1
def Pg.CLK : Nat := 0x2
def Pg.PWR : Nat := 0x3
def Pg.HOLD : Nat := 0x4
def Pg.SENS : Nat := 0x5
def Pg.LOG : Nat := 0x6
def Pg.SEC : Nat := 0x7
def Pg.NET (n : Nat) : Nat := 0x10 + n
def Pg.NETX : Nat := 0x12
def Pg.CLS : Nat := 0x13
def Pg.CMD : Nat := 0x18
def Pg.ARB : Nat := 0x19
def Pg.INSTM : Nat := 0x1A
def Pg.MEDIA : Nat := 0x20
def Pg.MAPC : Nat := 0x21
def Pg.PAR : Nat := 0x22
def Pg.TEST : Nat := 0x30
def Pg.INST (i : Nat) : Nat := 0x800 + i
/-- A page of quadrant `q`'s window, by its frame in the window. -/
def Pg.win (q f : Nat) : Nat := 0x100 * (q + 1) + f
def Pg.QCTL (q : Nat) : Nat := Pg.win q 0
def Pg.LANE (q n : Nat) : Nat := Pg.win q (1 + n)
def Pg.MEM (q : Nat) : Nat := Pg.win q 0x20
def Pg.CLU (q c : Nat) : Nat := Pg.win q (0x30 + c)
def Pg.TSK (q : Nat) : Nat := Pg.win q 0x38
def Pg.BUF (q : Nat) : Nat := Pg.win q 0x39
def Pg.MAT (q : Nat) : Nat := Pg.win q 0x3A
def Pg.CMP (q : Nat) : Nat := Pg.win q 0x3B
def Pg.DIG (q : Nat) : Nat := Pg.win q 0x3C
def Pg.XTS (q : Nat) : Nat := Pg.win q 0x3D

/-- Type, unit and quadrant of a page of a quadrant window, by its frame in the window (R29). -/
def winPage (q f : Nat) : Option (Nat × Nat × Nat) :=
  if f = 0 then some (PT.QCTL, 0, q)
  else if f ≤ 16 then some (PT.LANE, f - 1, q)
  else if f = 0x20 then some (PT.MEM, 0, q)
  else if 0x30 ≤ f ∧ f ≤ 0x33 then some (PT.CLU, f - 0x30, q)
  else if f = 0x38 then some (PT.TSK, 0, q)
  else if f = 0x39 then some (PT.BUF, 0, q)
  else if f = 0x3A then some (PT.MAT, 0, q)
  else if f = 0x3B then some (PT.CMP, 0, q)
  else if f = 0x3C then some (PT.DIG, 0, q)
  else if f = 0x3D then some (PT.XTS, 0, q)
  else none

/-- Type, unit and quadrant (15 for none) of a page; `none` where no page is allocated (R29, R32). -/
def pageInfo (p : Nat) : Option (Nat × Nat × Nat) :=
  if p < 8 then some (p + 1, 0, 15)
  else if p = 0x10 then some (PT.NET, 0, 15)
  else if p = 0x11 then some (PT.NET, 1, 15)
  else if p = 0x12 then some (PT.NETX, 0, 15)
  else if p = 0x13 then some (PT.CLS, 0, 15)
  else if p = 0x18 then some (PT.CMD, 0, 15)
  else if p = 0x19 then some (PT.ARB, 0, 15)
  else if p = 0x1A then some (PT.INSTM, 0, 15)
  else if p = 0x20 then some (PT.MEDIA, 0, 15)
  else if p = 0x21 then some (PT.MAPC, 0, 15)
  else if p = 0x22 then some (PT.PAR, 0, 15)
  else if p = 0x30 then some (PT.TEST, 0, 15)
  else if 0x100 ≤ p ∧ p < 0x500 then winPage (p / 0x100 - 1) (p % 0x100)
  else if 0x800 ≤ p ∧ p < 0x900 then some (PT.INST, p - 0x800, 15)
  else none

/-- The page's type code; 0 where none is allocated. -/
def pageType (p : Nat) : Nat := ((pageInfo p).map (·.1)).getD 0
def pageUnit (p : Nat) : Nat := ((pageInfo p).map (·.2.1)).getD 0
def pageQuad (p : Nat) : Nat := ((pageInfo p).map (·.2.2)).getD 15

/-- PAGE_ID (R32). -/
def pageId (p : Nat) : Nat := pageType p * 65536 + pageUnit p * 256 + pageQuad p * 16

/-- Bits of PWR.DOMAIN_UP (R21): six for each quadrant, then the module's eight. -/
def Dom.CPU (q : Nat) : Nat := 6 * q
def Dom.ENG (q : Nat) : Nat := 6 * q + 1
def Dom.LPHY (q : Nat) : Nat := 6 * q + 2
def Dom.FVCC (q : Nat) : Nat := 6 * q + 3
def Dom.MEM (q : Nat) : Nat := 6 * q + 4
def Dom.L2RET (q : Nat) : Nat := 6 * q + 5
def Dom.NPHY (n : Nat) : Nat := 24 + n
def Dom.NETCORE : Nat := 26
def Dom.FABRIC : Nat := 27
def Dom.MGMT : Nat := 28
def Dom.SEC : Nat := 29
def Dom.AON : Nat := 30
def Dom.HOLDUP : Nat := 31

/-- The power domain of a page. -/
def pageDomain (p : Nat) : Nat :=
  let t := pageType p
  let q := pageQuad p % 4
  if t = PT.HOLD then Dom.HOLDUP
  else if t = PT.SEC then Dom.SEC
  else if t = PT.NET then Dom.NPHY (pageUnit p)
  else if t = PT.NETX ∨ t = PT.CLS ∨ t = PT.CMD ∨ t = PT.ARB ∨ t = PT.INSTM ∨ t = PT.INST then Dom.NETCORE
  else if t = PT.MEDIA ∨ t = PT.MAPC ∨ t = PT.PAR then Dom.FABRIC
  else if t = PT.LANE then Dom.LPHY q
  else if t = PT.MEM then Dom.MEM q
  else if t = PT.CLU then Dom.CPU q
  else if t = PT.QCTL ∨ t = PT.TSK ∨ t = PT.BUF ∨ t = PT.MAT ∨ t = PT.CMP ∨ t = PT.DIG ∨ t = PT.XTS then Dom.ENG q
  else Dom.MGMT

/-- The chiplet whose spare register array serves a page (R23): 0 to 3 the quadrants, 4 network, 5 hub. -/
def pageChiplet (p : Nat) : Nat :=
  let t := pageType p
  if pageQuad p < 4 then pageQuad p
  else if t = PT.NET ∨ t = PT.NETX ∨ t = PT.CLS ∨ t = PT.CMD ∨ t = PT.ARB ∨ t = PT.INSTM ∨ t = PT.INST then 4
  else 5

/-- Every allocated page. -/
def allPages : List Nat :=
  (List.range 8) ++ [0x10, 0x11, 0x12, 0x13, 0x18, 0x19, 0x1A, 0x20, 0x21, 0x22, 0x30]
    ++ (List.range 4).flatMap (fun q => (List.range 0x3E).filterMap
      fun f => if (winPage q f).isSome then some (Pg.win q f) else none)
    ++ (List.range 256).map Pg.INST

end Sys2Proof
end

