-- ==== Sys2Proof/Machine/State.lean ====
section
/-! DEFINITION. The state of the module as plain data, chapter by chapter of spec/, and the state right
after manufacture, in mode OFF with no supply (`State.reset`). Times are nanoseconds of the model's own
clock `now`. A table that lists nothing under a key holds that key's start value. -/

namespace Sys2Proof.Machine

/-- Why a step stops. Nothing in the spec stops the module for good, so no meaning raises a fault. -/
inductive Fault where
  /-- Raised by no meaning: kept because the interface asks for a type of faults. Safe. -/
  | none
deriving DecidableEq, Repr

/-- Why a command has no meaning. -/
inductive Refusal where
  /-- Raised by an arm of `exec` whose command has no meaning yet. Safe: nothing is claimed of it. -/
  | notModelled (mnemonic : String)
deriving DecidableEq, Repr

/-! ## Modes, start and retained settings (R53 to R77, R462) -/

/-- The eight modes (R53). -/
inductive Mode where
  | off | standby | start | service | reduced | preserve | diagnostic | holdup
deriving DecidableEq, Repr

/-- The mode's code in MODE_CUR (R53). -/
def Mode.code : Mode → Nat
  | .off => 0 | .standby => 1 | .start => 2 | .service => 3 | .reduced => 4 | .preserve => 5
  | .diagnostic => 6 | .holdup => 7

/-- A record of the start ledger (R65). -/
structure LedgerRec where
  startNo : Nat
  cause : Nat
  endMode : Nat
  flags : Nat
  time : Nat
  slots : List Nat      -- 14 slot bytes (R66)
  durs : List Nat       -- 14 durations in ms
  failCode : Nat
  failPage : Nat
deriving DecidableEq, Repr

/-- The fence record (R27). Every list is of unit numbers, rising and without repeats. -/
structure FenceRec where
  dies : List Nat        -- 16 × lane + die
  lanes : List Nat       -- global lane
  cores : List Nat       -- 64 × quadrant + core
  clusters : List Nat    -- 4 × quadrant + cluster
  mediaCores : List Nat  -- 8 × quadrant + core
  units : List Nat       -- 64 × quadrant + 8 × kind + unit
  channels : List Nat    -- 5 × quadrant + channel
  ports : List Nat
  wires : List Nat       -- 68 × link + wire
  links : List Nat
  arrays : List Nat      -- pages whose register array is fenced
  quads : List Nat
deriving DecidableEq, Repr

def FenceRec.empty : FenceRec := ⟨[], [], [], [], [], [], [], [], [], [], [], []⟩

/-- What a record of the retained settings store holds (R67). -/
inductive RecBody where
  | page (words : KV Nat)              -- kept words by offset
  | ledger (l : List LedgerRec)        -- newest first
  | fence (f : FenceRec)
  | skipLatch (bits : Nat)
  | startHold (b : Bool)
  | preserveCause (bits : Nat)
  | shutdownStatus (last step : Nat)
  | restoreFail (pages : List Nat)     -- pages by number
deriving DecidableEq, Repr

/-- A record: its sequence number and body (R67). -/
structure StoreRec where
  seq : Nat
  major : Nat
  body : RecBody
deriving DecidableEq, Repr

/-- One copy of the store: whether its header passes, its newest record of every page (key: the
page's number) and system record (keys from 2^20 on), and the bytes of its log in use (R67, R462). -/
structure StoreCopyS where
  headerOk : Bool
  recs : KV StoreRec
  used : Nat
  compacting : Bool
deriving DecidableEq, Repr

def StoreCopyS.formatted : StoreCopyS := ⟨true, [], 16, false⟩

/-- The method running in a stage slot (R61). -/
inductive Method where
  | none | primary | alternate
deriving DecidableEq, Repr

/-- What is known of the stage slot that runs: R61's loop, unrolled into one method at a time. -/
structure StageRun where
  slot : Nat            -- 0 to 13
  method : Method
  altFirst : Bool
  second : Bool         -- the second method of the slot runs
  triedMask : Nat       -- bit 0 primary, bit 1 alternate
  slotStart : Nat       -- when the slot began
  deadline : Nat        -- the method's time limit (R59)
deriving DecidableEq, Repr

/-- An orderly shutdown in progress (R72, R73). -/
structure ShutdownRun where
  step : Nat            -- the step that runs, 1 to 7
  t0 : Nat              -- when step 1 began
  toDiag : Bool
  escalated : Bool      -- the HOLD-UP flush runs for step 5 or 6
deriving DecidableEq, Repr

/-- How HOLD-UP was entered (SHUTDOWN_STATUS.LAST). -/
inductive HoldCause where
  | power | resetSignal | trip
deriving DecidableEq, Repr

/-- The mode, the start under way, the causes and the retained store (R53 to R77, R462). -/
structure ModeSt where
  mode : Mode
  prev : Mode
  stage : Option StageRun
  stageMs : Nat                  -- MODE.STAGE_TIME
  startHold : Bool
  startHoldAfter : Bool          -- R71: START_HOLD becomes 1 when the present start ends
  skipLatch : Nat
  noSkipOct : Bool               -- R71: OCT cannot be skipped at this start
  forced : List Nat              -- STAGE_FORCE as it stood when the start began (R75's apply time)
  reducedCause : Nat
  preserveCause : Nat
  ledger : List LedgerRec        -- newest first, at most 16
  startNo : Nat                  -- LEDGER_STARTS (R65)
  ledgerLost : Bool
  startFailed : Bool             -- a failed, non-skippable stage ends the start when STANDBY is entered
  deferred : List Nat            -- requests put off, oldest first: MODE_REQ codes, 0 for power-disable (R56, R74)
  shutdown : Option ShutdownRun
  shutLast : Nat
  shutStep : Nat
  holdCause : HoldCause
  autoBlocked : Bool             -- R55: AUTO does not start the module until it started or passed OFF
  autoEdge : Bool                -- the AUTO condition has come to hold and not yet started the module (R54)
  restored : Nat                 -- RESTORE_STATUS
  restFactory : Nat
  restAlt : Nat
  listFull : Bool
  restoreFail : List Nat         -- the restore-fail list, pages by number, oldest first
  failedOver : Nat               -- failures at this start beyond the list's 32
  copyAok : Bool
  copyBok : Bool
  copyA : StoreCopyS
  copyB : StoreCopyS
  mpMismatch : List Nat          -- times of MP lockstep mismatches of this start (R23)
  mpRestarting : Bool
  flushFail : Bool               -- R28: a failure beyond its limit in HOLD-UP
deriving DecidableEq, Repr

def ModeSt.init : ModeSt :=
  { mode := .off, prev := .off, stage := none, stageMs := 0, startHold := false, startHoldAfter := false,
    skipLatch := 0, noSkipOct := false, forced := [], reducedCause := 0, preserveCause := 0, ledger := [], startNo := 0,
    ledgerLost := false, startFailed := false, deferred := [], shutdown := none, shutLast := 0, shutStep := 0,
    holdCause := .power, autoBlocked := false, autoEdge := false, restored := 0, restFactory := 0, restAlt := 0,
    listFull := false, restoreFail := [], failedOver := 0, copyAok := false, copyBok := false,
    copyA := .formatted, copyB := .formatted, mpMismatch := [], mpRestarting := false,
    flushFail := false }

/-! ## Control space (R29 to R52) -/

/-- One path's unlock of a page's expert region (R44). -/
structure Unlock where
  armed : Option Nat
  openUntil : Option Nat
  fails : List Nat               -- times of failed sequences
deriving DecidableEq, Repr

def Unlock.init : Unlock := ⟨none, none, []⟩

/-- Who waits for a COMMIT to end (R38, R120, R429). -/
inductive Waiter where
  | nobody | ctx (n : Nat) | mctp (tag : Byte)
deriving DecidableEq, Repr

/-- A COMMIT being checked: its snapshot of the staged words and who waits (R42). -/
structure CommitJob where
  snap : KV Nat
  factory : Bool                 -- PAGE_CTRL.FACTORY was among what it takes
  post : Nat                     -- the path of the first staged write since; 0 for none
  waiter : Waiter
deriving DecidableEq, Repr

/-- A page's own state: header, staging image, unlocks, word errors (R32 to R52). -/
structure PageSt where
  viewMp : Bool                  -- PAGE_CTRL.VIEW, per path
  viewMgr : Bool
  viewTen : Bool
  owner : Nat                    -- PAGE_STATUS.OWNER
  ownerAt : Nat                  -- the owner's last staged write
  staged : KV Nat                -- staged words that differ from live, by offset
  expired : Bool                 -- R45: the next COMMIT is rejected with EXPERT_EXPIRED
  factoryStaged : Bool           -- PAGE_CTRL.FACTORY loaded factory values since the image was last live
  job : Option CommitJob
  reason : Nat
  rule : Nat
  commits : Nat
  ok : Bool
  mp : Unlock
  mgr : Unlock
  lockUntil : Option Nat
  evRaw : Nat                    -- edge events
  errCode : Nat
  errCount : Nat
  errInfo : Nat
  saveDue : Option Nat           -- a kept value awaits its save, due by then
  factoryRestored : Bool
  corrected : List Nat           -- words (offsets) corrected since start (R51)
  uncorr : List (Nat × Nat)      -- (offset, time) of words that failed twice in one access (R52)
  testing : Bool                 -- UNIT_STATE 3
deriving DecidableEq, Repr

def PageSt.init : PageSt :=
  { viewMp := false, viewMgr := false, viewTen := false, owner := 0, ownerAt := 0, staged := [],
    expired := false, factoryStaged := false, job := none, reason := 0, rule := 0, commits := 0, ok := false, mp := .init,
    mgr := .init, lockUntil := none, evRaw := 0, errCode := 0, errCount := 0, errInfo := 0,
    saveDue := none, factoryRestored := false, corrected := [], uncorr := [], testing := false }

/-- The control space. -/
structure CtlSt where
  regs : KV Nat                  -- live words, by byte address; unlisted: the start word (R46)
  pages : KV PageSt
  latch : KV Nat                 -- latched DEV.TIME_HI by path number (R31)
  spareUsed : List Nat           -- chiplets whose spare register array is in use (R23)
deriving DecidableEq, Repr

/-! ## The event log and time (R424 to R427) -/

/-- Severities of events (R424). -/
inductive Sev where
  | info | notice | absorbed | degraded | critical
deriving DecidableEq, Repr

def Sev.num : Sev → Nat
  | .info => 0 | .notice => 1 | .absorbed => 2 | .degraded => 3 | .critical => 4

/-- An entry of the event log (R424); the CRC is computed when the entry is read. -/
structure LogEntry where
  time : Nat
  pageId : Nat
  code : Nat
  sev : Sev
  ptp : Bool
  holdup : Bool
  inst : Nat
  data : List Byte
  seq : Nat
deriving DecidableEq, Repr

/-- The log: entries newest first, as long as the NOR ring or the mirror holds them (R425). -/
structure LogSt where
  entries : List LogEntry
  head : Nat                     -- newest SEQ
  mirrored : Nat                 -- newest SEQ copied to the mirror
  held : List LogEntry           -- posted in HOLD-UP or during an MP restart, newest first
  dropped : Nat                  -- entries dropped in the last HOLD-UP (R266)
deriving DecidableEq, Repr

/-- The source of TIME (R427). -/
inductive TimeSource where
  | ptp | set | aon
deriving DecidableEq, Repr

/-- Time (R427): TIME is `now + base`; `now` stands still while AON is down. -/
structure TimeSt where
  source : TimeSource
  base : Int
  ptpLocked : Bool
  ptpGoodSince : Option Nat
  ptpOffset : Int                -- the last offset measured
  managerSet : Bool
  ppsAligned : Bool
  lastPps : Option Nat           -- the last accepted edge
  ppsLost : Bool
  known : Bool                   -- GC_STATUS.TIME_KNOWN (R242)
  lastReal : Option Nat          -- real time last recorded, ns (R242)
deriving DecidableEq, Repr

/-! ## Supplies, connectors and links (R10, R20 to R22, R443 to R456) -/

/-- A transceiver in a cage (R443). -/
structure Cage where
  present : Bool
  deciWatt : Nat                 -- declared maximum power
  cutOff : Bool                  -- power removed for overcurrent (R422)
deriving DecidableEq, Repr

/-- A fabric link (R10): 0 to 3 hub to quadrant, 4 hub to network, 5 to 8 the ring. -/
structure Link where
  run : KV Nat                   -- consecutive CRC failures by wire
  spares : Nat                   -- spare wires in use
  repairing : Option Nat         -- the wire being repaired
  fenced : Bool
  retries : Nat
deriving DecidableEq, Repr

structure PowerSt where
  mainMv : Nat
  auxMv : Nat
  domains : Nat                  -- PWR.DOMAIN_UP
  pwrdis : Bool
  resetLow : Bool
  resetLowAt : Option Nat
  cage0 : Cage
  cage1 : Cage
  pllLost : Nat                  -- clock domains whose PLL has lost lock, bit d - 1 (R454)
  relock : Nat                   -- domains whose relock runs
  links : KV Link
  deciWatt : Nat                 -- PWR.POWER
  lastDone : Option Nat          -- when a command last completed (LED_ACT#, R446)
  flashDownAt : Option Nat       -- when FVCC fell, while AON has run since (R242)
  debugGranted : Bool            -- the SI grants the debug-request line (R452)
  mpImageOk : Bool               -- the standby image's check at the last rise of MGMT (R53)
deriving DecidableEq, Repr

/-! ## Sensors and throttling (R421 to R423) -/

/-- States of a sensor (SENS.VALUE.STATE). -/
inductive SensState where
  | normal | warn | throttle | trip | failed
deriving DecidableEq, Repr

structure Sensor where
  reading : Int
  state : SensState
  peak : Int
  at_ : Nat
deriving DecidableEq, Repr

structure SensSt where
  sensors : KV Sensor
  ceiling : Nat
  nextStep : Option Nat          -- when the ceiling may move next
  clearSince : Option Nat        -- every sensor below its throttle limit by the hysteresis since
  held : List (List (Nat × Nat)) -- samples that wait for the MP's restart, newest first (R420)
  tempThreshold : Nat            -- the composite over-threshold in kelvin (R422)
  smartTemp : Bool               -- SMART Critical Warning bit 1
deriving DecidableEq, Repr

/-! ## Firmware and the management bus (R428 to R433) -/

/-- A checked bundle in a slot (R430): its firmware revision, its five images' versions, the key slot
and directives. -/
structure Bundle where
  fr : List Byte
  svns : List Nat                -- security version of classes 0 to 4
  keySlot : Nat
  revokes : List Nat             -- TYPE 1 directives
  majors : List (Nat × Nat)      -- TYPE 2 directives: page type, new MAJOR
deriving DecidableEq, Repr

/-- The bundle that both slots hold as manufactured; its revision is a DESIGN CHOICE (log entry 2). -/
def Bundle.factory : Bundle := { fr := zeros 8, svns := [0, 0, 0, 0, 0], keySlot := 0, revokes := [], majors := [] }

structure FwSt where
  active : Nat
  pendingSlot : Nat
  trial : Bool
  slot1 : Option Bundle
  slot2 : Option Bundle
  majors : KV Nat                -- MAJOR of the page types that a directive changed (R432)
  staging : Mem                  -- the 64 MiB staging area
  pieces : List Nat              -- pieces of 4 KiB downloaded, rising
deriving DecidableEq, Repr

structure MctpSt where
  eid : Nat
  smbusKhz : Nat
  mtu : Nat
  nonce : Option (List Byte)
  report : List Byte
deriving DecidableEq, Repr

/-! ## The network edge (R78 to R110) -/

/-- A sub-link of a port (R78, R83, R89, R94). Key: 4 × port + sub-link. -/
structure SubLink where
  up : Bool
  degraded : Bool
  selftest : Bool                -- its port's self-test runs for it (R83)
  retrainAt : Option Nat         -- the next retrain after an external cause
  backoff : Nat                  -- seconds to the retrain after that
  paused : KV Nat                -- priorities paused by the far side, since when
  ignored : KV Nat               -- priorities whose pause the watchdog ignores, until when (R89)
  cnt : KV Nat                   -- NET.CNT of the sub-link
deriving DecidableEq, Repr

def SubLink.down : SubLink := ⟨false, false, false, none, 1, [], [], []⟩

/-- How far a transport connection has come. -/
inductive ConnPhase where
  | halfOpen | established | closed
deriving DecidableEq, Repr

/-- Where a TLS handshake stands (R101). -/
inductive TlsPhase where
  | none | handshake | done
deriving DecidableEq, Repr

/-- A transport connection (R84, R88, R91, R95, R101 to R103): a TCP connection or a RoCEv2 queue pair. -/
structure Conn where
  port : Nat
  sub : Nat
  roce : Bool
  ipv6 : Bool
  src : List Byte
  rule : Nat                     -- the rule that admitted it
  inst : Nat
  reqTls : Bool
  reqAuth : Bool
  disc : Bool                    -- reached a discovery port (R112)
  phase : ConnPhase
  prio : Option Nat              -- of its first admitted frame (R89)
  ecn : Bool                     -- ECN-capable (R88)
  wscale : Bool                  -- opened without a cookie, or with timestamps (R100)
  tls : TlsPhase
  tlsDue : Option Nat
  keyUpdates : Nat
  icDone : Bool                  -- ICReq answered (R113)
  hdgst : Bool
  ddgst : Bool
  maxr2t : Nat
  ctrl : Option Nat              -- the controller it serves
  qid : Nat
  timeouts : Nat                 -- consecutive timeouts of one segment (R84)
  retries : Nat
  rnr : Nat
  dupAcks : Nat
  eceOwed : Bool                 -- the next ACK carries ECE
  lastCnp : Option Nat
  waiting : Nat                  -- bytes waiting to be sent
  tokens : Nat                   -- token bucket, bytes, at most 64 KiB (R91)
  tokensAt : Nat
  rate : Rat                     -- units of 10 Mbit/s (R91)
  target : Rat
  alpha : Rat
  stage : Nat
  lastCut : Option Nat
  sent : Nat                     -- c.bytes
  alphaDue : Nat
  incDue : Nat
deriving DecidableEq, Repr

/-- A received frame not yet processed (R85, R86): its connection, its bytes, and whether it lies in PFC headroom. -/
structure RxFrame where
  conn : Nat
  bytes : Nat
  head : Bool
deriving DecidableEq, Repr

structure NetSt where
  subs : KV SubLink
  laneLock : KV Nat              -- NET_STATUS.LANE_LOCK by port
  external : List Nat            -- ports held down by an external cause at the cage (R25, R422, R443)
  portUp : List Nat              -- ports brought up at NOV or by the manager
  eq : KV Nat                    -- stored equalisation, by 8 × port + lane (R104)
  addrs : KV (List Byte)         -- the local address table (R81)
  rules : KV (List Byte)         -- the rule table (R96)
  conns : KV Conn
  nextConn : Nat
  sram : List RxFrame            -- frames in the receive SRAM, oldest first
  spill : List RxFrame           -- frames in the spill area, oldest first
  spilling : Bool
  xoff : Bool                    -- step 4 of R86
  full : Bool                    -- step 5 logged for the present full spell
  buckets : KV (Nat × Nat)       -- rate classes: tokens in millionths of an attempt, and when counted
  cookies : Bool
  cookieEpoch : Nat              -- 64 s slots since the start; the key changes with it (R100)
  cookieDue : Nat
  authFails : List (List Byte × Nat)   -- failures: source and time, newest first (R103)
  holdoff : List (List Byte × Nat)     -- held-off sources and until when, newest first
  pn : KV Nat                    -- packet numbers of transmit SAs: 16 × port + index (R94)

deriving DecidableEq, Repr

/-! ## Commands, queues and completion (R111 to R140) -/

/-- Priority classes of an I/O queue (R126). -/
inductive QClass where
  | urgent | high | medium | low
deriving DecidableEq, Repr

/-- An I/O submission queue (R111, R117, R126). -/
structure IoQueue where
  conn : Nat
  entries : Nat
  cls : QClass
  clsNext : QClass               -- takes effect at the next round start
  waiting : List Instr           -- not yet admitted, oldest first
deriving DecidableEq, Repr

/-- A controller: one association (R111, R114, R461). -/
structure Ctrl where
  inst : Nat
  disc : Bool                    -- a discovery controller (R112)
  conn : Nat
  host : Nat
  adminEntries : Nat
  cc : Nat
  rdy : Bool
  shst : Nat
  epoch : Nat
  katoMs : Nat
  kaDue : Option Nat
  authed : Bool
  authStep : Nat                 -- 0 none, 1 challenge sent, 2 response accepted
  authHash : Nat
  authGroup : Nat
  adminWait : List Instr         -- admin commands held, oldest first
  queues : KV IoQueue
  aers : List (BitVec 16)        -- outstanding Asynchronous Event Requests, oldest first
  aerMask : List Nat             -- log pages reported and not yet read with RAE = 0 (R160)
  aenPend : List (Nat × Nat)     -- events waiting for a request: log page and completion dword 0, oldest first
  aerCfg : Nat                   -- Asynchronous Event Configuration
  arb : Nat                      -- Arbitration feature (dword 11)
  features : KV Nat              -- other features by identifier
  authChal : Nat                 -- the challenge sent, by the number of the draw
  authReply : List Byte          -- the module's own response, where the host asked for one
  attached : List Nat            -- NSIDs attached
  changedNs : List Nat           -- Changed Namespace List
  errors : List (Nat × Nat × Nat × Nat × Nat) -- Error Information: count, qid, cid, status, command specific; newest first
  errCount : Nat
  lastQ : Nat                    -- round robin place among its queues
  burst : Nat                    -- commands left of the present queue's burst
  wrr : List Nat                 -- credits left of the high, medium and low classes
  resetting : Bool
  closing : Bool                 -- the association ends with the reset under way
deriving DecidableEq, Repr

/-- The states of a context (R116). -/
inductive CtxState where
  | admitted | issued | committed | completing | aborted
deriving DecidableEq, Repr

/-- A status: type, code and do-not-retry (R8, R457). -/
structure Status where
  sct : Nat
  sc : Nat
  dnr : Bool
deriving DecidableEq, Repr

/-- A command context (R116), with what the command has done so far. -/
structure Ctx where
  inst : Nat
  gen : Nat
  ctrl : Nat
  epoch : Nat
  qid : Nat
  cid : BitVec 16
  op : Instr
  cost : Nat                     -- sixteenths of a unit (R124)
  state : CtxState
  urgent : Bool                  -- issued as urgent-class
  at_ : Nat                      -- when admitted
  order : Nat                    -- order of admission
  isWrite : Bool                 -- waits for write data before it is issued
  expected : Nat
  got : List Byte                -- write data, in-capsule bytes first
  asked : Nat                    -- bytes asked for by R2T or RDMA READ, in-capsule bytes included
  open_ : List (Nat × Nat)       -- requested ranges not yet received: offset, length
  dataAt : Option Nat            -- order in which its data became complete
  xferDue : Option Nat
  landed : Bool                  -- its data lies in the write pool
  resetDue : Option Nat          -- R135's 10 ms
  pendReads : Nat                -- reads under way for it
  parts : KV (List Byte)         -- grains read so far, by place in the command
  failed : Option Status
  waitSlc : List Nat             -- versions whose programming it waits for
  waitSeg : List (Nat × Nat × Nat) -- lookups that wait for a fill: NSX, grain, part
  res : Nat                      -- completion dword 0
  aux : Nat                      -- a command's own number: a flow, a bucket, a slot
deriving DecidableEq, Repr

/-- A Flush that waits for the writes it covers (R134). -/
structure FlushWait where
  ctx : Nat
  versions : List Nat
deriving DecidableEq, Repr

/-- Where a firmware activation stands (R136). -/
inductive ActPhase where
  | idle | draining | swapping
deriving DecidableEq, Repr

structure CmdSt where
  ctrls : KV Ctrl
  nextCtrl : Nat
  ctxs : KV Ctx
  nextCtx : Nat
  nextOrder : Nat
  nextData : Nat
  round : Nat                    -- rounds started
  deficit : KV Int               -- D(i), sixteenths
  urgent : KV Nat                -- UD(i), sixteenths
  lastUrgQ : KV Nat              -- the urgent queue last served, by instance
  lastCtrl : KV Nat              -- the controller last served, by instance
  heldConnects : List Instr      -- Connects held by an instance reset, oldest first (R156)
  retired : List Nat             -- contexts whose transfer is retired, newest first (R133)
  flushes : List FlushWait
  act : ActPhase
  actAt : Nat
  actDue : Nat
  actCmd : Option (Option Nat × Nat) -- the context of the Firmware Commit that waits, and the slot
  actPrev : Nat
  lastPause : Nat                -- µs
  aenInst : KV (List (Nat × Nat)) -- an instance's mailbox and log events not yet posted, oldest first (R160, R426)
  drainStopped : Bool            -- orderly shutdown step 1
  attach : KV (List Nat)         -- NSIDs attached for a host's controllers, by 256 × host + instance
deriving DecidableEq, Repr

/-! ## Instances, shares and mailboxes (R141 to R164) -/

/-- A message in an instance's queue: from the module, its notice number, its bytes (R159). -/
structure Msg where
  fromModule : Bool
  notice : Nat
  phase : Nat
  data : List Byte
deriving DecidableEq, Repr

/-- An instance (R142, R155 to R161). -/
structure InstS where
  gen : Nat
  resetting : Bool
  resetHeld : Option Nat         -- a held reset and its requester (R157)
  disableHeld : Bool
  enabled : Bool                 -- in effect since a round start (R143)
  share : Nat
  urgLate : Nat
  settled : Bool                 -- INST.SHARE.SETTLED as a round last found it (R163)
  t2mPending : Bool
  t2mAcked : Bool
  t2mLost : Bool
  t2mSeq : Nat
  m2tFull : Bool
  m2tSource : Bool
  m2tLost : Bool
  m2tSeq : Nat
  m2tData : List Byte
  queue : List Msg               -- oldest first, at most 16
  windowDue : Option Nat         -- a breach of cause 0x0001 in force ends then (R152)
  windowNotice : Nat
  windowStart : Nat
  windowW : Nat
deriving DecidableEq, Repr

def InstS.init : InstS :=
  { gen := 1, resetting := false, resetHeld := none, disableHeld := false, enabled := false, share := 0,
    urgLate := 0, settled := false, t2mPending := false, t2mAcked := false,
    t2mLost := false, t2mSeq := 0, m2tFull := false, m2tSource := false, m2tLost := false, m2tSeq := 0,
    m2tData := [], queue := [], windowDue := none, windowNotice := 0, windowStart := 0, windowW := 0 }

/-- A breach shared by several instances, in force (R152). -/
structure Breach where
  notice : Nat
  cause : Nat
  rung : Nat
  start : Nat
  measure : Nat
  insts : List Nat
deriving DecidableEq, Repr

structure InstSt where
  insts : KV InstS
  cfgCap : KV Nat                -- quota in GB (R149); unlisted: 6,250
  cfgUrg : KV Nat                -- urgent target in µs; unlisted: 1,000
  acting : List Nat              -- instances on which an action of the manager runs (INSTM.ACTION_STATUS.BUSY)
  result : Nat
  mboResult : Nat
  noticeSeq : Nat
  breaches : List Breach
  fdpOn : List Nat               -- instances that enabled FDP (R190)
  applyDue : Bool                -- an accepted COMMIT waits for the next round start (R143, R148)
deriving DecidableEq, Repr

/-! ## Buffer pools (R305 to R319) -/

/-- A buffer in use, under the number of its handle without OFFSET (R306, R313). -/
structure Buf where
  refs : Nat
  inst : Nat                     -- its requester (R309)
  cls : Nat
  promoted : Bool
  zeroing : Bool                 -- freed, not yet zeroed (R307)
  idle : Bool                    -- its bit says free: only its count was raised (R313)
  data : List Byte
  size : Nat
deriving DecidableEq, Repr

/-- What a buffer is asked for (R308, R311). -/
inductive BufFor where
  | task (core : Nat) (slot : Nat)          -- BALLOC of a core, into a register
  | scan (flow seq : Nat)                   -- a grain read for a scan
  | engine (quad flow seq node : Nat)       -- an engine task's output
deriving DecidableEq, Repr

/-- A waiting request (R310). -/
structure BufReq where
  inst : Nat
  eng : Nat
  size : Nat
  who : BufFor
deriving DecidableEq, Repr

/-- The open write pool buffer of a kind (R312): its index, units filled, versions not yet released. -/
structure OpenBuf where
  index : Nat
  units : Nat
deriving DecidableEq, Repr

/-- The buffer pools of a quadrant. -/
structure PoolS where
  sram : List Nat                -- MiB per class in effect since the start (R316)
  dram : List Nat                -- 64 MiB units per class
  waits : List BufReq            -- oldest first
  retired : List Nat             -- buffers out of service, by handle number
  prim : Option OpenBuf
  mirr : Option OpenBuf
  live : KV Nat                  -- versions needed or waiting in each write pool buffer
  fullSince : Option Nat
  fullLogged : Bool
deriving DecidableEq, Repr

structure BufSt where
  bufs : KV Buf
  pools : KV PoolS               -- by quadrant
deriving DecidableEq, Repr

/-! ## The map and its cache (R197 to R220) -/

/-- A way of a set (R199). The entries of the line are those of the map. -/
structure Way where
  seg : Nat
  nsx : Nat
  valid : Bool
  dirty : Bool
  wb : Bool
  redirty : Bool
  pref : Bool
  busy : Bool
  firstDirty : Nat               -- SEQ of the first update since the line was clean (R207)
  dirtyAt : Nat
deriving DecidableEq, Repr

def Way.empty : Way := ⟨0, 0, false, false, false, false, false, false, 0, 0⟩

/-- A set: 16 ways and the 15 nodes of its tree, bit n for node n (R201). -/
structure CacheSet where
  ways : List Way
  tree : Nat
deriving DecidableEq, Repr

def CacheSet.empty : CacheSet := ⟨List.replicate 16 .empty, 0⟩

/-- A line in the eviction buffer (R202, R212): its tag word and whether its write-back is queued. -/
structure EvLine where
  seg : Nat
  nsx : Nat
  way : Way
deriving DecidableEq, Repr

/-- Why a segment is wanted. -/
inductive FillKind where
  | demand | hint (inst : Nat) | scan
deriving DecidableEq, Repr

/-- An outstanding miss (R200): its segment, the way reserved, whether it waits for a victim. -/
structure Miss where
  seg : Nat
  nsx : Nat
  set : Nat
  way : Option Nat
  kind : FillKind
  merged : Nat
deriving DecidableEq, Repr

/-- A queued hint, one segment range of one quadrant (R203, R204). -/
structure Hint where
  op : Nat
  nsx : Nat
  seg : Nat
  count : Nat
  inst : Nat
  scan : Bool
deriving DecidableEq, Repr

/-- A queued or running write-back (R206). -/
structure WriteBack where
  seg : Nat
  nsx : Nat
  seq : Nat                      -- highest ENTRY SEQ reflected
  entries : KV Nat               -- the snapshot
  packed : Bool                  -- placed in a row of S5
deriving DecidableEq, Repr

structure CacheS where
  enabled : Bool
  draining : Bool
  resized : Bool
  resizing : Bool                -- the drain of R215 precedes the resize
  ks0 : Nat
  ks1 : Nat
  sets : KV CacheSet
  evb : List EvLine
  misses : List Miss             -- oldest first
  waiting : List Miss            -- misses beyond 256, or with no victim
  hints : List Hint
  wbs : List WriteBack           -- oldest first
  cnt : KV Nat                   -- MAPC.CNT
  cleaning : Bool                -- the cleaner runs towards DIRTY_LO (R207)
deriving DecidableEq, Repr

/-- A segment frame on flash named by the directory (R200, R206). -/
structure SegFrame where
  seq : Nat
  entries : KV Nat
  band : Nat
  readable : Bool
deriving DecidableEq, Repr

/-- A journal record (R205, R223, R268). -/
structure JRec where
  seq : Nat
  type : Nat
  nsx : Nat
  key : Nat
  value : Nat
  quad : Nat                     -- the quadrant whose journal holds it
deriving DecidableEq, Repr

/-- A counted checkpoint (R208). -/
structure Ckpt where
  no : Nat
  seq : Nat
  replayFrom : Nat
  dir : KV SegFrame
  area : Nat
deriving DecidableEq, Repr

structure MapSt where
  kh0 : Nat                      -- the key pair KH (R198)
  kh1 : Nat
  map : KV Nat                   -- entries by NSX × 2^40 + GRAIN; unlisted: unmapped
  locked : List Nat              -- grains locked for a merge (R168), by the same key
  caches : KV CacheS
  dir : KV SegFrame              -- segment directories, by NSX × 2^40 + SEG
  seq : Nat                      -- the module-wide counter (R205)
  journal : List JRec            -- newest first, from REPLAY_FROM on
  ckpt : Option Ckpt             -- newest counted checkpoint
  ckptNo : Nat
  ckptRunning : Option Ckpt      -- being written
  ckptDue : Nat
  lagLogged : Bool
  rebuilding : List Nat          -- quadrants whose memory is rebuilt after a channel loss (R16)
deriving DecidableEq, Repr

/-! ## Media (R165 to R196, R221 to R254) -/

/-- States of a block (R221). -/
inductive BlockState where
  | free | member | erasable | spare | retirePending | retired | system | fenced
deriving DecidableEq, Repr

/-- A block record (R221). Blocks that the table does not list are as manufactured. -/
structure Block where
  wear : Nat                     -- 1/32 QLC cycles
  state : BlockState
  slc : Bool
  margin : Nat
  refresh : Bool
  progH : Nat
  patrolD : Nat
  interval : Nat                 -- days to the next patrol
  reads : Nat                    -- reads since the last programming (R240)
  firstRefresh : Nat             -- programmings in a row marked at their first patrol (R233)
  patrolled : Bool               -- patrolled since the last programming
deriving DecidableEq, Repr

/-- A frame in a band (R171, R206). `raw` and `bytes` are its payload before encryption and compression. -/
structure MFrame where
  kind : Nat                     -- 0 grain, 1 segment frame, 2 journal records
  nsx : Nat
  grain : Nat
  seq : Nat
  units : Nat
  raw : Bool
  bytes : List Byte
  dmember : Nat                  -- data member, 0 to 31
  start : Nat                    -- unit offset in the block
  valid : Bool
  version : Option Nat           -- the version it was built from, until its rows are programmed
  waitSlc : Bool
  placedAt : Nat
  fromBand : Option Nat          -- the source of a relocation
  srcEntry : Nat
deriving DecidableEq, Repr

/-- States of a band (BAND_INFO.STATE). -/
inductive BandState where
  | open_ | closed | folding | rebuilding | erasable
deriving DecidableEq, Repr

/-- A band record (R222) and the frames in it. -/
structure Band where
  state : BandState
  stream : Nat
  slc : Bool
  members : List Nat             -- 34 block locations, ascending lane
  openSeq : Nat
  openAt : Nat
  closeSeq : Nat
  closeH : Nat                   -- close time on the retention clock, hours
  closeOrder : Nat
  nextRow : Nat                  -- rows programmed so far
  programming : Bool             -- row `nextRow` is being programmed
  fill : List Nat                -- units filled on each of the 32 data members
  frames : List MFrame           -- in order of placement
  unreadable : List Nat          -- members unreadable and not yet rebuilt
  badPages : List (Nat × Nat)    -- further unreadable pages: member, row
  aliases : List (Nat × Nat)     -- blocks that members had before a rebuild (R182)
  rebuildRow : Nat
  erased : List Nat              -- members whose BLOCK_FREE or BLOCK_RETIRE is appended
  kind1 : Bool
deriving DecidableEq, Repr

/-- States of a version in the write buffer. -/
inductive VerState where
  | landed | committed | compressed | placed
deriving DecidableEq, Repr

/-- A version of a grain in the write buffer (R18, R259 to R262, R312). -/
structure Version where
  nsx : Nat
  grain : Nat
  inst : Nat
  home : Nat
  first : Nat                    -- sectors landed: the first, and how many
  count : Nat
  whole : Bool                   -- `data` is the whole grain (R168)
  data : List Byte
  prim : Nat                     -- handles of its copies
  mirr : Nat
  primOk : Bool
  mirrOk : Bool
  state : VerState
  seq : Nat
  acked : Bool
  needed : Bool                  -- R262
  superseded : Bool              -- no map entry names it
  waitSlc : Bool
  stream : Nat
  units : Nat
  raw : Bool
  payload : List Byte
  at_ : Nat
  reruns : Nat                   -- compressor runs after a mismatch (R383)
  ctx : Nat                      -- the command it belongs to, and its aligned 1 MiB segment (R122, R123)
  segment : Nat
deriving DecidableEq, Repr

/-- Who a grain read is for. -/
inductive ReadFor where
  | ctx (ctx part : Nat)         -- a command
  | scan (flow seq buf : Nat)    -- a scan, into a buffer (R286)
  | patrol
deriving DecidableEq, Repr

/-- An outstanding media read of one frame (R17, R181). -/
structure MRead where
  who : ReadFor
  nsx : Nat
  grain : Nat
  band : Nat
  member : Nat
  row : Nat
  step : Nat                     -- 1 decode, 2 to 4 escalation, 6 inflate and CRC check, 7 the same of a reconstructed frame
  second : Bool                  -- a CRC check of the frame failed (R181)
  sent : List Byte               -- what it delivers
deriving DecidableEq, Repr

/-- A namespace (R122, R149, R165 to R167, R190, R361). -/
structure NsS where
  inst : Nat
  nsid : Nat
  nsze : Nat
  lbaf : Nat
  grain : Nat                    -- sectors per grain
  code : Nat
  piType : Nat
  piFirst : Bool
  kv : Bool
  kx0 : Nat                      -- the index's key pair KX (R362)
  kx1 : Nat
  ruhs : List Nat
  pendingHandles : List Nat      -- handles recorded by an update (R190)
  keySlot : Nat
  keyGen : Nat                   -- XTS key generation
  keyLost : Bool                 -- R407
  sanitizing : Bool
deriving DecidableEq, Repr

/-- Namespaces, the write buffer, reads, bands and blocks, and what reclaim and patrol keep (R165 to R254). -/
structure MediaSt where
  nss : KV NsS                   -- by NSX
  versions : KV Version
  nextVersion : Nat
  reads : KV MRead
  nextRead : Nat
  bands : KV Band
  nextBand : Nat
  closeOrder : Nat
  blocks : KV Block              -- by location (R223)
  direct : Bool
  folding : Bool
  openTurn : KV Nat              -- the open SLC band that takes the next row, by stream (R188)
  checkBusy : Bool               -- PAR.CHECK_STATUS
  checkMis : Bool
  checkRow : Nat
  lane24 : List Nat              -- lanes at 2.4 GT/s
  laneDown : List Nat            -- lanes down for want of training
  census : KV Nat                -- dies found, by lane
  level : Nat                    -- reclaim level (R224)
  levelSince : Option (Nat × Nat)  -- a level the count points to, since when
  victims : List Nat             -- bands being relocated
  victimValid : Nat
  capExceeded : Bool
  catchup : Bool
  catchupDone : Nat
  retHours : Nat                 -- the retention clock, hours, as last saved
  retAt : Nat                    -- when it was so
  offHours : Option Nat          -- the off-time before this start, where it is known (R242)
  physWrites : Nat               -- 256-byte units of physical host writes (R237)
  hostBytes : KV Nat             -- per instance (R190)
  mediaBytes : KV Nat
  retire : KV Nat                -- retirements by cause
  spareLogged : Bool             -- event 0x0906 logged
  reconstructed : List Nat       -- blocks that gave a reconstruction (event 0x0702)
  patrolHead : List Nat          -- blocks at the head of the patrol queue
  wlBands : List Nat             -- bands being relocated for wear levelling (R236)
deriving DecidableEq, Repr

/-! ## Hold-up (R255 to R273, R460) -/

/-- Methods of measurement (R256). -/
inductive MeasMethod where
  | none | discharge | recharge
deriving DecidableEq, Repr

/-- A measurement in progress (R256). -/
structure MeasRun where
  method : MeasMethod
  sep : Bool
  runs : List Nat                -- timed parts so far, µs
deriving DecidableEq, Repr

/-- The flush (R264): its step and what it has drawn. -/
structure FlushRun where
  step : Nat
  t0 : Nat
  a0 : Nat                       -- A at the warning, bytes
  w0 : Nat
  pass1 : Nat                    -- bytes programmed
  pass2 : Nat
  us : Nat
  mj : Nat
  grains1 : Nat
  grains2 : Nat
  entry48 : Bool                 -- power-fail rather than another trigger
deriving DecidableEq, Repr

structure HoldSt where
  vMv : Nat
  charging : Bool
  capUf : Nat                    -- last good measurement; 0 none since the start
  capBol : Nat                   -- the factory measurement
  w : Nat                        -- W in MiB
  meas : Option MeasRun
  lastMethod : MeasMethod
  lastOk : Bool
  fails : Nat
  stale : Bool
  goodAt : Option Nat
  measDue : Option Nat           -- the 10-minute schedule
  hcFault : Bool
  noCharge : Bool                -- the charger cannot reach V_OP
  aged : Bool                    -- event 0x010C logged in this start
  flush : Option FlushRun
  begun : List Nat               -- quadrants whose journal holds HOLDUP_BEGIN without HOLDUP_END
  lastTime : Nat
  lastEnergy : Nat
  lastP1 : Nat
  lastP2 : Nat
  reverted : Nat
  logDropped : Nat
deriving DecidableEq, Repr

/-! ## Programs, tasks and ordered flows (R274 to R304) -/

/-- A node of a task graph (R278). -/
structure Node where
  kind : Nat                     -- 0 KWALIA, 1 MATCH, 2 INFLATE, 3 DEFLATE, 4 DIGEST
  home : Bool                    -- PLACE 1
  inputs : Nat
  prio : Nat
  entry : Nat
  budgetUs : Nat
  scratchKib : Nat
  outputs : Nat
  arcs : List Nat                -- destination ports of ARC[0..3]
deriving DecidableEq, Repr

/-- A checked program image (R275, R276). -/
structure Image where
  len : Nat
  progId : List Byte
  source : Nat
  nodes : List Node
  code : List Byte
  rodata : List Byte
  automata : List (List Byte)    -- the AUTOMATON sections, in section order
deriving DecidableEq, Repr

/-- A program index in use (R274, R277). `ending`: deactivated, its last invocation not yet complete. -/
structure Prog where
  image : Image
  active : Bool
  ending : Bool
deriving DecidableEq, Repr

/-- An open flow (R283 to R288, R294 to R296), by its 14-bit number. -/
structure Flow where
  ctx : Nat
  inst : Nat
  gen : Nat
  prog : Nat
  d : ExecDesc
  nsx : Nat
  sectors : Nat                  -- sectors per grain
  grain0 : Nat
  count : Nat                    -- sequences of the range
  waitUs : Nat
  opened : Nat                   -- order of opening
  base : Nat
  placed : Nat                   -- next sequence to be put in the output, at or above `base`
  window : KV Token
  sent : KV Token                -- READ tokens sent for sequences not yet released (R301)
  walked : List Nat              -- next sequence each quadrant's walker looks at
  known : List Nat               -- BASE as each walker knows it
  since : Nat                    -- releases since the last BASE message
  errors : Nat
  firstErr : Nat                 -- ERR of the first error token
  errUsed : Nat                  -- bytes of the error ring written
  outUsed : Nat                  -- bytes of output records placed
  seg : List Byte                -- the open output segment's records (OUT_KIND 1)
  segAt : Option Nat             -- when its first record came
  segWait : List (List Nat × Nat) -- closed segments: versions not yet acknowledged, and BASE once they are
  endWith : Option (Nat × Bool)  -- the flow ends once its segments are released: status × full
deriving DecidableEq, Repr

/-- An entry of a matching store (R290). -/
structure Entry where
  tok : Token
  fired : Bool
  at_ : Nat
deriving DecidableEq, Repr

/-- A fired task (R293). -/
structure Task where
  flow : Nat
  seq : Nat
  node : Nat
  inst : Nat
  prog : Nat
  prio : Nat
  attempt : Nat
  expiries : Nat                 -- watchdog expiries so far (R299)
deriving DecidableEq, Repr

/-- An engine task: waiting, or on a unit (R293, R388, R397). -/
structure EngItem where
  kind : Nat                     -- 1 MATCH, 2 INFLATE, 3 DEFLATE, 4 DIGEST
  task : Task
  unit : Option Nat
  suspended : Bool               -- R389
  reruns : Nat
deriving DecidableEq, Repr

/-- A deficit round robin over instances: what each has left, and the instance served last. -/
structure Drr where
  credit : KV Int
  last : Nat
deriving DecidableEq, Repr

def Drr.init : Drr := ⟨[], 255⟩

/-- The task dispatcher of a quadrant. -/
structure DispS where
  entries : KV Entry             -- by KEY
  tombs : KV Nat                 -- instances, by the KEY of the node's first port
  held : List Token              -- tokens their producers hold for want of an entry, oldest first
  ready : List Task              -- in order of firing
  engine : List EngItem          -- in order of arrival
  cores : Drr                    -- core time, µs
  eng : KV Drr                   -- input bytes, by engine kind
deriving DecidableEq, Repr

def DispS.init : DispS := ⟨[], [], [], [], [], .init, []⟩

structure ProgSt where
  progs : KV Prog                -- by 16 × instance + index
  flows : KV Flow
  nextOpen : Nat
  flight : List Token            -- tokens sent and not yet arrived, oldest first
  disp : KV DispS                -- by quadrant
  mrs : KV Nat                   -- memory range sets: length, by 2^16 × instance + RSID
  slm : Mem                      -- their bytes: 2^40 × (2^16 × instance + RSID) + offset
  pendOpen : List Nat            -- contexts of Execute Programs that wait for a flow, oldest first
deriving DecidableEq, Repr

/-! ## Kwalia cores and clusters (R320 to R349) -/

/-- The five flags of FLAGS (R323). -/
structure Flags where
  n : Bool
  z : Bool
  c : Bool
  v : Bool
  dz : Bool
deriving DecidableEq, Repr

/-- An output slot of a task (R325, R339, R340). -/
structure Slot where
  handle : Nat
  extent : Nat
  sends : Nat                    -- sends of the slot so far
  live : Bool                    -- the task holds its reference
deriving DecidableEq, Repr

/-- A task on a core: its registers and what it holds (R322 to R331). Registers that a table does not
list read zero. -/
structure TaskRun where
  task : Task
  node : Node
  gen : Nat
  started : Nat                  -- when the task started
  stalled : Nat                  -- time not counted against the budget (R311)
  stallAt : Option Nat           -- a BALLOC waits since then
  ballocD : Nat                  -- the register and slot it will fill
  rswrap : Bool
  g : KV Word
  p : KV (BitVec 16)
  v : KV Word                    -- 16 × vector + lane
  pc : Nat
  flags : Flags
  dze : Bool
  repcnt : Word
  rep : Bool                     -- the next instruction runs under REP
  ls : List Word
  le : List Word
  lc : List Word
  ldepth : Nat
  rstack : List Nat              -- top first
  scratch : Mem
  code : List Byte               -- the CODE that its core fetches from
  rodata : List Byte
  inputs : List (Option Token)   -- of ports 0 to 3
  inLive : List Bool             -- the task holds the reference on input k
  slots : KV Slot
  sends : KV Token               -- held sends, by arc
  hints : List Nat               -- held hint commands, newest first
  incs : List Nat                -- handles whose count goes up at END
  decs : List Nat                -- handles whose count goes down at END
deriving DecidableEq, Repr

/-- A tenant core (R320, R343, R346). -/
structure CoreS where
  run : Option TaskRun
  testing : Bool                 -- held for the background test
  testWanted : Bool              -- TEST_GO: held once its task ends
  corrected : Bool               -- event 0x0D02 logged since the start
  excCode : Nat
  excInst : Nat
  excPc : Nat
deriving DecidableEq, Repr

def CoreS.init : CoreS := ⟨none, false, false, false, 0, 0, 0⟩

/-- A cluster's L2 (R216, R345): its set key and the tags of its sets. -/
structure ClusterS where
  ks0 : Nat
  ks1 : Nat
  enabled : Bool
  draining : Bool
  sets : KV CacheSet
  evb : List EvLine
  uncorrAt : Option Nat          -- when a dirty line was last uncorrectable (R347)
deriving DecidableEq, Repr

def ClusterS.init : ClusterS := ⟨0, 0, true, false, [], [], none⟩

structure KwSt where
  cores : KV CoreS               -- by 64 × quadrant + core
  clusters : KV ClusterS         -- by 4 × quadrant + cluster
  tested : Bool                  -- stage OCT has tested the cores
  bgCores : List Nat             -- cores whose background test has ended since the start (R62)
  bgUnits : List Nat             -- engine units likewise, numbered as in the fence record
deriving DecidableEq, Repr

/-! ## Match engine (R350 to R372) -/

/-- A loaded automaton section (R353, R369). -/
structure Section where
  bytes : List Byte
  blocks : Nat
  broken : Bool                  -- its reload failed
deriving DecidableEq, Repr

/-- A key of a Key Value namespace (R361). -/
structure KvSlot where
  key : List Byte
  fp : Nat
  grain : Nat
  vlen : Nat
deriving DecidableEq, Repr

/-- The match engine of a quadrant. -/
structure MatS where
  sections : KV Section          -- by 64 × instance + 4 × program + section
  probe : List (Nat × Nat)       -- END word and match word of the entries kept
  probeAt : Nat                  -- entries shown so far
  probeBusy : Bool
  probeOver : Bool
  searches : List Nat            -- contexts waiting for a slot, oldest first
  updates : List Nat
deriving DecidableEq, Repr

def MatS.init : MatS := ⟨[], [], 0, false, false, [], []⟩

structure MatSt where
  quads : KV MatS
  kv : KV KvSlot                 -- index entries: 2^48 × NSX + 128 × bucket + slot
  alloc : KV Nat                 -- grains of each value: 2^48 × NSX + first grain
  zap : List (Nat × Nat × Nat)   -- freed grains not yet unmapped: NSX, first grain, grains
deriving DecidableEq, Repr

/-! ## Compression (R373 to R393) -/

structure CmpS where
  framed : Nat                   -- frame units over inline grains since start (RATIO)
  rawUnits : Nat
deriving DecidableEq, Repr

/-! ## Digests, keys and trust (R394 to R419) -/

/-- A context's message (R394, R395). -/
structure DigCtx where
  inst : Nat
  direct : Bool
  alg : Nat
  hmac : Bool
  key : List Byte                -- the key taken when the message started
  msg : List Byte
  flow : Nat                     -- a task item's name
  seq : Nat
  node : Nat
  since : Nat                    -- order of arrival in the unit queue
deriving DecidableEq, Repr

/-- A direct request being served (R400). -/
structure DigReq where
  cmd : Nat                      -- the word written to REQ_CMD
  data : List Byte               -- the 256 bytes of REQ_DATA
  target : Nat
  acl : Nat
  hkdf : Nat
  due : Option Nat               -- waits for a context until then
deriving DecidableEq, Repr

/-- The digest engine of a quadrant. -/
structure DigS where
  ctxs : KV DigCtx               -- contexts 0 to 15
  session : Option Nat           -- the direct session's context
  idleAt : Nat                   -- since when the session is idle
  idleClosed : Bool              -- the next request reports IDLE_CLOSED
  req : Option DigReq
  waits : List (Nat × Nat × Nat × Nat) -- items waiting for a context: instance, flow, seq, node; oldest first
  onUnit : KV Nat                -- context that each unit runs
deriving DecidableEq, Repr

def DigS.init : DigS := ⟨[], none, 0, false, none, [], []⟩

/-- A key store slot (R404). -/
structure KeySlot where
  type : Nat
  scopeAll : Bool
  origin : Nat
  owner : Nat
  perm : Nat
  len : Nat
  bind : List Byte
  key : List Byte
deriving DecidableEq, Repr

def KeySlot.empty : KeySlot := ⟨0, false, 0, 0, 0, 0, [], []⟩

/-- A cryptographic erase in progress (R409). -/
structure Erase where
  step : Nat
  nsxs : List Nat
  bands : List Nat               -- bands still to erase in step 4
  total : Nat
  purge : Bool
  waiter : Waiter                -- the command that waits for its end
deriving DecidableEq, Repr

structure SecSt where
  keys : KV KeySlot              -- slots 16 on; unlisted: EMPTY
  programmed : Nat               -- fuses
  revoked : Nat
  active : Nat                   -- slot that verified the MP service image
  rollback : List Nat            -- counters of classes 0 to 4
  trngFailed : Bool
  keyDraws : Nat                 -- keys drawn so far
  erases : KV Erase              -- by instance
  sanitized : KV Nat             -- Sanitize Status state by instance
  nonces : KV (List Byte)        -- attestation nonce by controller
  imageOk : Bool                 -- the standby image verified at the last rise of MGMT
deriving DecidableEq, Repr

/-! ## Diagnostics (R436 to R442) -/

/-- A running test (R436, R441). -/
structure TestRun where
  sel : Nat
  ctrl : Nat
  raised : Nat                   -- domains raised for it
  t0 : Nat
  injected : Bool
deriving DecidableEq, Repr

structure TestSt where
  run : Option TestRun
  result : Nat
  reason : Nat
  fencedUnit : Bool
  elapsed : Nat
  errors : Nat
  firstErr : Nat
  bits : Nat
  wires : List Nat
deriving DecidableEq, Repr

/-! ## What the module sends -/

/-- What leaves the module, on the network, on the management bus and on its pins. -/
inductive Out where
  /-- A completion (R139), with its status and dwords 0 and 1. -/
  | completion (ctrl qid : Nat) (cid : BitVec 16) (st : Status) (dw0 dw1 : Nat)
  /-- The completion of a Connect, on its connection, with dword 0. -/
  | connect (conn : Nat) (st : Status) (dw0 : Nat)
  /-- Data returned for a command. -/
  | data (ctrl qid : Nat) (cid : BitVec 16) (bytes : List Byte)
  /-- A reply to an MCTP vendor message (R429): its tag, status and data. -/
  | mctp (tag : Byte) (status : Nat) (data : List Byte)
  /-- A reply to an MCTP control or NVMe-MI message (R428): completion code and data. -/
  | mctpCtl (code : Nat) (data : List Byte)
  /-- R2T: connection, context, offset and length (R95). -/
  | r2t (conn ctx off len : Nat)
  /-- RDMA READ request (R95). -/
  | rdmaRead (conn ctx off len : Nat)
  /-- H2CTermReq or C2HTermReq and the end of the connection (R113, R133). -/
  | termReq (conn : Nat) (fes : Nat)
  /-- ICResp (R113): digests in use. -/
  | icResp (conn : Nat) (hdgst ddgst : Bool)
  /-- A frame of a connection's data (R91). -/
  | frame (conn bytes : Nat)
  /-- ACK, with the congestion echo where one is owed (R88). -/
  | ack (conn : Nat) (ece : Bool)
  /-- A retransmission (R84). -/
  | retransmit (conn : Nat)
  /-- TCP RST, or the queue pair's error state (R84). -/
  | reset (conn : Nat)
  | cnp (conn : Nat)
  /-- SYN-ACK of an admitted attempt; `cookie`: without state (R100). -/
  | synAck (conn : Nat) (cookie : Option (BitVec 32))
  /-- TLS (R101): 0 a handshake message, 1 an alert, 2 a KeyUpdate. -/
  | tls (conn : Nat) (what : Nat)
  | arpReply (port sub : Nat) (addr : List Byte)
  | icmpReply (port sub : Nat) (addr : List Byte)
  /-- PFC: the priorities paused (R86). -/
  | pfc (port sub : Nat) (prios : Nat)
  /-- A DH-HMAC-CHAP message (R102). -/
  | auth (ctrl : Nat) (kind : Nat) (data : List Byte)
  /-- A flit sent again (R10). -/
  | flitRetry (link : Nat)
  /-- JTAG data (R452). -/
  | jtag (data : Nat)
  | debugNonce (data : List Byte)
deriving DecidableEq, Repr

/-! ## The whole state -/

/-- The module. `now` is the model's clock in nanoseconds and `free` counts the free values drawn; both are
the model's own. -/
structure State where
  pending : List Instr
  now : Nat
  free : Nat
  out : List Out                 -- newest first
  ctl : CtlSt
  mode : ModeSt
  fence : FenceRec
  log : LogSt
  time : TimeSt
  pwr : PowerSt
  sens : SensSt
  fw : FwSt
  mctp : MctpSt
  net : NetSt
  cmd : CmdSt
  inst : InstSt
  buf : BufSt
  map : MapSt
  media : MediaSt
  hold : HoldSt
  prog : ProgSt
  kw : KwSt
  mat : MatSt
  cmp : KV CmpS
  dig : KV DigS
  sec : SecSt
  test : TestSt
deriving DecidableEq, Repr

def Cage.empty : Cage := ⟨false, 0, false⟩

/-- The module right after manufacture, in mode OFF with no input present: every store factory-fresh,
every register at its start or factory value. -/
def State.reset : State where
  pending := []
  now := 0
  free := 0
  out := []
  ctl := { regs := [], pages := [], latch := [], spareUsed := [] }
  mode := .init
  fence := .empty
  log := { entries := [], head := 0, mirrored := 0, held := [], dropped := 0 }
  time :=
    { source := .aon, base := 0, ptpLocked := false, ptpGoodSince := none, ptpOffset := 0,
      managerSet := false, ppsAligned := false, lastPps := none, ppsLost := false, known := false, lastReal := none }
  pwr :=
    { mainMv := 0, auxMv := 0, domains := 0, pwrdis := false, resetLow := false, resetLowAt := none,
      cage0 := .empty, cage1 := .empty, pllLost := 0, relock := 0, links := [], deciWatt := 0,
      lastDone := none, flashDownAt := none, debugGranted := false, mpImageOk := false }
  sens :=
    { sensors := [], ceiling := 0, nextStep := none, clearSince := none, held := [],
      tempThreshold := 0, smartTemp := false }
  fw :=
    { active := 1, pendingSlot := 0, trial := false, slot1 := some Bundle.factory, slot2 := some Bundle.factory, majors := [], staging := [],
      pieces := [] }
  mctp := { eid := 0, smbusKhz := 100, mtu := 64, nonce := none, report := [] }
  net :=
    { subs := [], laneLock := [], external := [], portUp := [], eq := [], addrs := [], rules := [], conns := [], nextConn := 1,
      sram := [], spill := [], spilling := false, xoff := false, full := false, buckets := [], cookies := false,
      cookieEpoch := 0, cookieDue := 0, authFails := [], holdoff := [], pn := [] }
  cmd :=
    { ctrls := [], nextCtrl := 1, ctxs := [], nextCtx := 1, nextOrder := 1, nextData := 1, round := 0,
      deficit := [], urgent := [], lastUrgQ := [], lastCtrl := [], heldConnects := [], retired := [],
      flushes := [], act := .idle, actAt := 0, actDue := 0, actCmd := none, actPrev := 0, lastPause := 0, aenInst := [],
      drainStopped := false, attach := [] }
  inst :=
    { insts := [], cfgCap := [], cfgUrg := [], acting := [], result := 0, mboResult := 0, noticeSeq := 0,
      breaches := [], fdpOn := [], applyDue := false }
  buf := { bufs := [], pools := [] }
  map :=
    { kh0 := 0, kh1 := 0, map := [], locked := [], caches := [], dir := [], seq := 0, journal := [],
      ckpt := none, ckptNo := 0, ckptRunning := none, ckptDue := 0, lagLogged := false, rebuilding := [] }
  media :=
    { nss := [], versions := [], nextVersion := 1, reads := [], nextRead := 1, bands := [], nextBand := 1,
      closeOrder := 0, blocks := [], direct := false, folding := false, openTurn := [], checkBusy := false,
      checkMis := false, checkRow := 0, lane24 := [], laneDown := [], census := [], level := 0,
      levelSince := none, victims := [], victimValid := 0, capExceeded := false, catchup := false,
      catchupDone := 0, retHours := 0, retAt := 0, offHours := none, physWrites := 0, hostBytes := [],
      mediaBytes := [], retire := [], spareLogged := false, reconstructed := [], patrolHead := [],
      wlBands := [] }
  hold :=
    { vMv := 0, charging := false, capUf := 0, capBol := 0, w := 0, meas := none, lastMethod := .none,
      lastOk := false, fails := 0, stale := false, goodAt := none, measDue := none, hcFault := false,
      noCharge := false, aged := false, flush := none, begun := [], lastTime := 0, lastEnergy := 0,
      lastP1 := 0, lastP2 := 0, reverted := 0, logDropped := 0 }
  prog := { progs := [], flows := [], nextOpen := 1, flight := [], disp := [], mrs := [], slm := [], pendOpen := [] }
  kw := { cores := [], clusters := [], tested := false, bgCores := [], bgUnits := [] }
  mat := { quads := [], kv := [], alloc := [], zap := [] }
  cmp := []
  dig := []
  sec :=
    { keys := [], programmed := 0xF, revoked := 0, active := 0, rollback := [0, 0, 0, 0, 0],
      trngFailed := false, keyDraws := 0, erases := [], sanitized := [], nonces := [], imageOk := false }
  test :=
    { run := none, result := 0, reason := 0, fencedUnit := false, elapsed := 0, errors := 0, firstErr := 0,
      bits := 0, wires := [] }

end Sys2Proof.Machine
end

