-- ==== Sys2Proof/Machine/Ops.lean ====
section
/-! DEFINITION. The operations that every family of commands shares: changing one part of the state, register
words, page events and errors, the event log, time, shares, completions and asynchronous events. -/

namespace Sys2Proof.Machine

/-- What a command answers. -/
abbrev Res := Host.Outcome State Fault Refusal

/-! ## Changing one part of the state -/

def State.modCtl (s : State) (f : CtlSt → CtlSt) : State := { s with ctl := f s.ctl }
def State.modMode (s : State) (f : ModeSt → ModeSt) : State := { s with mode := f s.mode }
def State.modFence (s : State) (f : FenceRec → FenceRec) : State := { s with fence := f s.fence }
def State.modLog (s : State) (f : LogSt → LogSt) : State := { s with log := f s.log }
def State.modTime (s : State) (f : TimeSt → TimeSt) : State := { s with time := f s.time }
def State.modPwr (s : State) (f : PowerSt → PowerSt) : State := { s with pwr := f s.pwr }
def State.modSens (s : State) (f : SensSt → SensSt) : State := { s with sens := f s.sens }
def State.modFw (s : State) (f : FwSt → FwSt) : State := { s with fw := f s.fw }
def State.modMctp (s : State) (f : MctpSt → MctpSt) : State := { s with mctp := f s.mctp }
def State.modNet (s : State) (f : NetSt → NetSt) : State := { s with net := f s.net }
def State.modCmd (s : State) (f : CmdSt → CmdSt) : State := { s with cmd := f s.cmd }
def State.modInst (s : State) (f : InstSt → InstSt) : State := { s with inst := f s.inst }
def State.modBuf (s : State) (f : BufSt → BufSt) : State := { s with buf := f s.buf }
def State.modMap (s : State) (f : MapSt → MapSt) : State := { s with map := f s.map }
def State.modMedia (s : State) (f : MediaSt → MediaSt) : State := { s with media := f s.media }
def State.modHold (s : State) (f : HoldSt → HoldSt) : State := { s with hold := f s.hold }
def State.modProg (s : State) (f : ProgSt → ProgSt) : State := { s with prog := f s.prog }
def State.modKw (s : State) (f : KwSt → KwSt) : State := { s with kw := f s.kw }
def State.modMat (s : State) (f : MatSt → MatSt) : State := { s with mat := f s.mat }
def State.modCmp (s : State) (f : KV CmpS → KV CmpS) : State := { s with cmp := f s.cmp }
def State.modDig (s : State) (f : KV DigS → KV DigS) : State := { s with dig := f s.dig }
def State.modSec (s : State) (f : SecSt → SecSt) : State := { s with sec := f s.sec }
def State.modTest (s : State) (f : TestSt → TestSt) : State := { s with test := f s.test }

/-- Draw the next free value. -/
def State.draw (s : State) : Nat × State := (Config.freeValue s.free, { s with free := s.free + 1 })
/-- Send something. -/
def State.emit (s : State) (o : Out) : State := { s with out := o :: s.out }
/-- Let the clock reach `t`, if it has not. -/
def State.reach (s : State) (t : Nat) : State := { s with now := max s.now t }

/-! ## Times, in nanoseconds -/

def usec (n : Nat) : Nat := n * 1000
def msec (n : Nat) : Nat := n * 1000000
def secs (n : Nat) : Nat := n * 1000000000

/-! ## Register words (R31, R40, R46) -/

/-- The live word at an address: as last written, else its start value. -/
def State.live (s : State) (addr : Nat) : Nat :=
  match KV.get? s.ctl.regs addr with
  | some w => w
  | none => RegMap.startWord (pageType (addr / 4096)) (addr % 4096)
def State.setLive (s : State) (addr v : Nat) : State :=
  s.modCtl fun c => { c with regs := KV.put c.regs addr v }

/-- The live value of a field of a page (element `k` of an array). -/
def State.cfgAt (s : State) (pg : Nat) (f : Field) (k : Nat) : Nat :=
  match KV.get? s.ctl.regs (pg * 4096 + f.off + 4 * k) with
  | some w => bitsOf w f.hi f.lo
  | none => f.start
def State.cfg (s : State) (pg : Nat) (f : Field) : Nat := s.cfgAt pg f 0
/-- The field is 1. -/
def State.cfgB (s : State) (pg : Nat) (f : Field) : Bool := s.cfg pg f = 1
def State.setFldAt (s : State) (pg : Nat) (f : Field) (k v : Nat) : State :=
  let a := pg * 4096 + f.off + 4 * k
  s.setLive a (setBits (s.live a) f.hi f.lo v)
def State.setFld (s : State) (pg : Nat) (f : Field) (v : Nat) : State := s.setFldAt pg f 0 v
/-- Advance element `k` of a wrapping counter. -/
def State.bumpBy (s : State) (pg : Nat) (f : Field) (k n : Nat) : State :=
  s.setFldAt pg f k (s.cfgAt pg f k + n)
def State.bump (s : State) (pg : Nat) (f : Field) (k : Nat) : State := s.bumpBy pg f k 1

/-! ## Pages (R32 to R35, R39) -/

def State.page (s : State) (pg : Nat) : PageSt := KV.getD .init s.ctl.pages pg
def State.modPage (s : State) (pg : Nat) (f : PageSt → PageSt) : State :=
  s.modCtl fun c => { c with pages := KV.modify .init c.pages pg f }
/-- An edge event (R34). -/
def State.setEv (s : State) (pg bit : Nat) : State :=
  s.modPage pg fun p => { p with evRaw := p.evRaw ||| 2 ^ bit }
/-- Record an error: the first is kept, later ones only count (R35). -/
def State.setErr (s : State) (pg code info : Nat) : State :=
  s.modPage pg fun p =>
    if p.errCode = 0 then { p with errCode := code, errCount := 1, errInfo := info }
    else { p with errCount := min (p.errCount + 1) 0xFFFF }

def State.isUp (s : State) (dom : Nat) : Bool := s.pwr.domains.testBit dom

/-- The unit of a page stands in the fence record. -/
def State.pageFenced (s : State) (pg : Nat) : Bool :=
  let t := pageType pg
  let q := pageQuad pg
  (q < 4 && s.fence.quads.contains q)
    || (t = PT.LANE && s.fence.lanes.contains (16 * q + pageUnit pg))
    || (t = PT.CLU && s.fence.clusters.contains (4 * q + pageUnit pg))
    || (t = PT.NET && s.fence.ports.contains (pageUnit pg))

/-- PAGE_STATUS.UNIT_STATE: 0 up, 1 powered down, 2 fenced, 3 under test (R32, R49). -/
def State.unitState (s : State) (pg : Nat) : Nat :=
  if (s.page pg).testing then 3
  else if s.pageFenced pg then 2
  else if s.isUp (pageDomain pg) then 0 else 1

/-! ## Modes -/

/-- SERVICE, REDUCED or PRESERVE: the modes that serve hosts (R53). -/
def State.serving (s : State) : Bool :=
  s.mode.mode = .service || s.mode.mode = .reduced || s.mode.mode = .preserve
def State.inHoldup (s : State) : Bool := s.mode.mode = .holdup
def State.mpUp (s : State) : Bool := s.mode.mode ≠ .off

/-! ## Shares (R143 to R147) -/

/-- An instance that the table does not list: instance 0 has the whole share and is always enabled (R141, R145). -/
def InstS.fresh (i : Nat) : InstS := if i = 0 then { InstS.init with enabled := true, share := 4096 } else .init
def State.instOf (s : State) (i : Nat) : InstS := KV.getD (.fresh i) s.inst.insts i
def State.modInstOf (s : State) (i : Nat) (f : InstS → InstS) : State :=
  s.modInst fun m => { m with insts := KV.modify (.fresh i) m.insts i f }
/-- Instance 0 is always enabled (R141). -/
def State.enabled (s : State) (i : Nat) : Bool := i = 0 || (s.instOf i).enabled
/-- The share in effect: at the factory values instance 0 holds all 4,096 units. -/
def State.share (s : State) (i : Nat) : Nat :=
  match KV.get? s.inst.insts i with
  | some t => t.share
  | none => if i = 0 then 4096 else 0
def State.gen (s : State) (i : Nat) : Nat := (s.instOf i).gen
def State.enabledList (s : State) : List Nat := (List.range 256).filter s.enabled

/-! ## Statuses (R8, R457); the codes of NVMe statuses are those of NVMe -/

def St.ok : Status := ⟨0, 0, false⟩
def St.nvme (sct sc : Nat) : Status := ⟨sct, sc, true⟩
/-- A status that a retry may cure (R457). -/
def St.soft (sct sc : Nat) : Status := ⟨sct, sc, false⟩
def St.vendor (code : Nat) : Status := ⟨7, code, ! (code = 0x80 || code = 0x83 || code = 0x8F)⟩
def St.invalidOpcode := St.nvme 0 0x01
def St.invalidField := St.nvme 0 0x02
def St.idConflict := St.nvme 0 0x03
def St.internal := St.nvme 0 0x06
def St.abortRequested := St.soft 0 0x07
def St.invalidNs := St.nvme 0 0x0B
def St.sequence := St.nvme 0 0x0C
def St.sglLength := St.nvme 0 0x0F
def St.badHandle := St.nvme 0 0x2A
def St.denied := St.nvme 0 0x15
def St.sanitizing := St.soft 0 0x1D
def St.writeProtected := St.soft 0 0x20
def St.lbaRange := St.nvme 0 0x80
def St.capExceeded := St.soft 0 0x81
def St.notReady := St.soft 0 0x82
def St.badValueSize := St.nvme 0 0x85
def St.badKeySize := St.nvme 0 0x86
def St.noKey := St.nvme 0 0x87
def St.keyExists := St.nvme 0 0x89
def St.aerLimit := St.nvme 1 0x05
def St.badSlot := St.nvme 1 0x06
def St.badFirmware := St.nvme 1 0x07
def St.badLogPage := St.nvme 1 0x09
def St.badFormat := St.nvme 1 0x0A
def St.notSaveable := St.nvme 1 0x0D
def St.notChangeable := St.nvme 1 0x0E
def St.actProhibited := St.soft 1 0x13
def St.nsCapacity := St.nvme 1 0x15
def St.nsIdUnavailable := St.nvme 1 0x16
def St.nsAttached := St.nvme 1 0x18
def St.nsNotAttached := St.nvme 1 0x1A
def St.ctrlListInvalid := St.nvme 1 0x1C
def St.badConnect := St.nvme 1 0x82
def St.authRequired := St.nvme 1 0x91
def St.progNotActive := St.nvme 1 0x9A
def St.progActive := St.nvme 1 0x9B
def St.unrecovered := St.nvme 2 0x81
def St.guardCheck := St.nvme 2 0x82
def St.appTagCheck := St.nvme 2 0x83
def St.refTagCheck := St.nvme 2 0x84
def St.compareFailure := St.nvme 2 0x85
def St.accessDenied := St.nvme 2 0x86
def St.underrun := St.vendor 0x80
def St.overrun := St.vendor 0x81
def St.quota := St.vendor 0x83
def St.progFault := St.vendor 0x84
def St.taskTimeout := St.vendor 0x85
def St.matchInvalid := St.vendor 0x8B
def St.configRejected := St.vendor 0x8C
def St.expertLocked := St.vendor 0x8D
def St.sigInvalid := St.vendor 0x8E
def St.instDisabled := St.vendor 0x8F
/-- The status that an error token's ERR names (R289). -/
def St.ofErr (err : Nat) : Status := if err / 256 = 7 then St.vendor (err % 256) else St.nvme (err / 256) (err % 256)

/-! ## Controllers -/

def State.ctrl? (s : State) (c : Nat) : Option Ctrl := KV.get? s.cmd.ctrls c
def State.modCtrl (s : State) (c : Nat) (f : Ctrl → Ctrl) : State :=
  s.modCmd fun m => { m with ctrls := KV.adjust m.ctrls c f }
/-- Controllers of an instance, ascending. -/
def State.ctrlsOf (s : State) (i : Nat) : List (Nat × Ctrl) :=
  s.cmd.ctrls.filter fun c => c.2.inst = i && ! c.2.disc

/-! ## Completions (R116, R139) -/

/-- Bytes wait to be sent on the connection of a queue (R90, R91). -/
def State.owe (s : State) (c qid n : Nat) : State :=
  match s.ctrl? c with
  | none => s
  | some k =>
    let conn := if qid = 0 then k.conn else ((KV.get? k.queues qid).map (·.conn)).getD 0
    s.modNet fun m => { m with conns := KV.adjust m.conns conn fun x => { x with waiting := x.waiting + n } }

/-- Post a completion: CMD.CNT[0] counts it, an error goes into the Error Information log, and LENGTH_UNDERRUN
and LENGTH_OVERRUN into their counters and events. -/
def State.post (s : State) (c qid : Nat) (cid : BitVec 16) (st : Status) (dw0 dw1 : Nat := 0) (info : Nat := 0) :
    State :=
  let s := ((s.emit (.completion c qid cid st dw0 dw1)).owe c qid 16).bump Pg.CMD Fd.CMD_CNT_COUNT 0
  let s := s.modPwr fun p => { p with lastDone := some s.now }
  if st = St.ok then s
  else
    let s := s.modCtrl c fun k =>
      { k with
        errCount := k.errCount + 1
        errors := ((k.errCount + 1, qid, cid.toNat, st.sct * 256 + st.sc, info) :: k.errors).take 16 }
    if st = St.underrun then (s.bump Pg.CMD Fd.CMD_CNT_COUNT 3).setEv Pg.CMD 8
    else if st = St.overrun then (s.bump Pg.CMD Fd.CMD_CNT_COUNT 4).setEv Pg.CMD 9
    else s

def State.postCap (s : State) (cap : Cap) (st : Status) (dw0 dw1 : Nat := 0) (info : Nat := 0) : State :=
  s.post cap.ctrl cap.qid cap.cid st dw0 dw1 info
def State.dataCap (s : State) (cap : Cap) (bytes : List Byte) : State :=
  (s.emit (.data cap.ctrl cap.qid cap.cid bytes)).owe cap.ctrl cap.qid bytes.length

/-! ## Asynchronous events (R160, R426) -/

/-- Complete the oldest outstanding request of a controller with an event of a log page. -/
def State.fireAer (s : State) (c : Nat) (lid dw0 : Nat) : State :=
  match s.ctrl? c with
  | none => s
  | some k =>
    match k.aers with
    | [] => s
    | cid :: rest =>
      (s.modCtrl c fun k => { k with aers := rest, aerMask := lid :: k.aerMask }).post c 0 cid St.ok dw0

/-- The first controller of an instance that can take an event of a log page; none while the page was reported to one of them and
not yet read. -/
def aerTaker (lid : Nat) (l : List (Nat × Ctrl)) : Option Nat :=
  if l.any fun e => e.2.aerMask.contains lid then none else (l.find? fun e => ! e.2.aers.isEmpty).map Prod.fst

/-- Post what waits for an instance and for its controllers, as far as requests are outstanding. -/
def State.deliverAen (s : State) (i : Nat) : State :=
  let s := (KV.getD [] s.cmd.aenInst i).foldl (fun s e =>
    match aerTaker e.1 (s.ctrlsOf i) with
    | none => s
    | some c =>
      (s.modCmd fun m => { m with aenInst := KV.modify [] m.aenInst i (·.erase e) }).fireAer c e.1 e.2) s
  (s.ctrlsOf i).foldl (fun s c =>
    c.2.aenPend.foldl (fun s e =>
      match s.ctrl? c.1 with
      | none => s
      | some k =>
        if k.aers ≠ [] ∧ ! k.aerMask.contains e.1 then
          (s.modCtrl c.1 fun k => { k with aenPend := k.aenPend.erase e }).fireAer c.1 e.1 e.2
        else s) s) s

/-- Post an event to one controller of an instance (R160). -/
def State.aenInst (s : State) (i lid dw0 : Nat) : State :=
  (s.modCmd fun m => { m with aenInst := KV.modify [] m.aenInst i fun l => if l.contains (lid, dw0) then l else l ++ [(lid, dw0)] }).deliverAen i

/-- Post an event to a controller that has enabled it: bit `en` of its Asynchronous Event Configuration. -/
def State.aenCtrl (s : State) (c en lid dw0 : Nat) : State :=
  match s.ctrl? c with
  | none => s
  | some k =>
    if k.aerCfg.testBit en then
      (s.modCtrl c fun k => { k with aenPend := if k.aenPend.contains (lid, dw0) then k.aenPend else k.aenPend ++ [(lid, dw0)] }).deliverAen k.inst
    else s

/-! ## Time and the event log (R424 to R427) -/

/-- TIME in nanoseconds (R427). -/
def State.timeNs (s : State) : Nat := ((s.now : Int) + s.time.base).toNat

/-- Append entries to the NOR ring, oldest first: each takes the next SEQ (R425), and those at or above
MIN_SEV notify the manager (R426). -/
def State.appendLog (s : State) (e : LogEntry) : State :=
  let seq := s.log.head + 1
  let s := s.modLog fun l => { l with entries := { e with seq := seq } :: l.entries, head := seq }
  if s.cfg Pg.LOG Fd.LOG_NOTIFY_MIN_SEV ≤ e.sev.num then
    (s.setEv Pg.LOG 8).aenInst 0 0xC0 (7 + 0x03 * 256 + 0xC0 * 65536)
  else s

/-- Log an event: at once, or held in HOLD-UP and while the MP restarts (R420, R425). -/
def State.logEv (s : State) (pg code : Nat) (sev : Sev) (inst : Nat := 0) (data : List Byte := []) : State :=
  let e : LogEntry :=
    { time := s.timeNs, pageId := pageId pg, code := code, sev := sev, ptp := s.time.source = .ptp,
      holdup := s.inHoldup, inst := inst, data := sliceB data 0 40, seq := 0 }
  if s.mode.mode = .off then s
  else if s.inHoldup then s.modLog fun l => { l with held := e :: l.held }
  else if s.mode.mpRestarting then
    if s.log.held.length + s.sens.held.length < 256 then s.modLog fun l => { l with held := e :: l.held } else s
  else s.appendLog e

/-- Append what was held, oldest first. -/
def State.flushHeldLog (s : State) : State :=
  s.log.held.reverse.foldl (fun s e => s.appendLog e) (s.modLog fun l => { l with held := [] })

/-! ## Contexts (R116) -/

def State.ctx? (s : State) (n : Nat) : Option Ctx := KV.get? s.cmd.ctxs n
def State.modCtx (s : State) (n : Nat) (f : Ctx → Ctx) : State :=
  s.modCmd fun m => { m with ctxs := KV.adjust m.ctxs n f }
def State.freeCtx (s : State) (n : Nat) : State := s.modCmd fun m => { m with ctxs := KV.del m.ctxs n }

/-- The context's generation or its controller's epoch is no longer current, or its queue is gone (R114, R135, R155). Number 0
stands for the management endpoint. -/
def State.stale (s : State) (x : Ctx) : Bool :=
  x.gen ≠ s.gen x.inst || match s.ctrl? x.ctrl with
    | none => x.ctrl ≠ 0
    | some k => k.epoch ≠ x.epoch || (x.qid ≠ 0 && (KV.get? k.queues x.qid).isNone)

/-- A command ends: its completion is posted, or discarded and counted where it is stale; a late urgent
command is counted (R151); the context is freed. -/
def State.finish (s : State) (n : Nat) (st : Status) (dw0 dw1 : Nat := 0) (info : Nat := 0) : State :=
  match s.ctx? n with
  | none => s
  | some x =>
    let s := s.freeCtx n
    if s.stale x then s.bump Pg.CMD Fd.CMD_CNT_COUNT 6
    else
      let s := s.post x.ctrl x.qid x.cid st dw0 dw1 info
      if x.urgent ∧ s.now - x.at_ > usec (KV.getD 1000 s.inst.cfgUrg x.inst) then
        s.modInstOf x.inst fun t => { t with urgLate := t.urgLate + 1 }
      else s

/-- Data returned for a command, unless its completion would be discarded. -/
def State.dataCtx (s : State) (n : Nat) (bytes : List Byte) : State :=
  match s.ctx? n with
  | none => s
  | some x => if s.stale x then s else (s.emit (.data x.ctrl x.qid x.cid bytes)).owe x.ctrl x.qid bytes.length

/-! ## CRC-32C (R275, R424) -/

/-- One bit of the reflected CRC-32C. -/
def crcBit (c : Nat) : Nat := if c % 2 = 1 then (c / 2) ^^^ 0x82F63B78 else c / 2
/-- One byte. -/
def crcByte (c : Nat) (b : Byte) : Nat :=
  let x := c ^^^ b.toNat
  crcBit (crcBit (crcBit (crcBit (crcBit (crcBit (crcBit (crcBit x)))))))
def crc32c (l : List Byte) : Nat := (l.foldl crcByte 0xFFFFFFFF) ^^^ 0xFFFFFFFF

end Sys2Proof.Machine
end

