-- ==== Sys2Proof/Machine/BufOps.lean ====
section
/-! DEFINITION. Buffer pools: handles, allocation, references and the write pool (R305 to R319). -/

namespace Sys2Proof.Machine

/-- The factory division of the pools (R316). -/
def PoolS.init : PoolS :=
  { sram := [2, 6, 16, 16, 8], dram := [1, 2, 4, 4, 5], waits := [], retired := [], prim := none, mirr := none,
    live := [], fullSince := none, fullLogged := false }

def State.pool (s : State) (q : Nat) : PoolS := KV.getD .init s.buf.pools q
def State.modPool (s : State) (q : Nat) (f : PoolS → PoolS) : State :=
  s.modBuf fun b => { b with pools := KV.modify .init b.pools q f }

/-! ## Handles (R306) -/

/-- Bytes of a buffer of class `c`. -/
def classSize (c : Nat) : Nat := 256 * 8 ^ c
/-- The smallest class that holds a size (R308). -/
def classFor (n : Nat) : Nat :=
  if n ≤ 256 then 0 else if n ≤ 2048 then 1 else if n ≤ 16384 then 2 else if n ≤ 131072 then 3 else 4
/-- The number of a buffer: its handle without OFFSET. -/
def bufKey (q c p i : Nat) : Nat := ((q * 8 + c) * 4 + p) * 2 ^ 21 + i
def keyIndex (k : Nat) : Nat := k % 2 ^ 21
def keyPool (k : Nat) : Nat := k / 2 ^ 21 % 4
def keyClass (k : Nat) : Nat := k / 2 ^ 23 % 8
def keyQuad (k : Nat) : Nat := k / 2 ^ 26 % 4

/-- Buffers of class `c` in pool `p` of a quadrant (R305, R316). -/
def State.poolCount (s : State) (q p c : Nat) : Nat :=
  if p = 0 then (s.pool q).sram.getD c 0 * 2 ^ 20 / classSize c
  else if p = 1 then (s.pool q).dram.getD c 0 * 2 ^ 26 / classSize c
  else if p = 2 ∧ c = 4 then 7680
  else 0

/-- A handle names a buffer: its CLASS, POOL and INDEX exist, and OFFSET is 0 outside the write pool. -/
def State.validHandle (s : State) (h : Nat) : Bool :=
  let k := h / 4096
  h < 2 ^ 40 && decide (keyIndex k < s.poolCount (keyQuad k) (keyPool k) (keyClass k))
    && (keyPool k = 2 || h % 4096 = 0)

/-! ## Charges (R309) -/

/-- RES[k] of a quadrant, per cent. -/
def State.resPct (s : State) (q eng : Nat) : Nat :=
  let pg := Pg.BUF q
  match eng with
  | 0 => s.cfg pg Fd.BUF_RES_LO_RES0
  | 1 => s.cfg pg Fd.BUF_RES_LO_RES1
  | 2 => s.cfg pg Fd.BUF_RES_LO_RES2
  | 3 => s.cfg pg Fd.BUF_RES_LO_RES3
  | _ => s.cfg pg Fd.BUF_RES_HI_RES4

/-- min(r, p): the requester's reserved minimum in bytes. -/
def State.bufMin (s : State) (q inst eng p : Nat) : Nat :=
  (if p = 0 then 12288 else 262144) * s.share inst * s.resPct q eng / 100

/-- charge(r, p) in bytes: every buffer that the requester allocated and that is not freed. -/
def State.bufCharge (s : State) (q inst eng p : Nat) : Nat :=
  s.buf.bufs.foldl (fun n e =>
    if keyQuad e.1 = q ∧ keyPool e.1 = p ∧ e.2.inst = inst ∧ e.2.cls = eng ∧ ! e.2.zeroing ∧ ! e.2.idle then n + classSize (keyClass e.1)
    else n) 0

/-! ## Allocation (R307, R308) -/

/-- The first number from `n` on that is not among rising numbers. -/
def firstGap : Nat → List Nat → Nat
  | n, [] => n
  | n, k :: ks => if k < n then firstGap n ks else if k = n then firstGap (n + 1) ks else n

/-- The lowest free buffer of a class of a pool. -/
def State.lowestFree (s : State) (q p c : Nat) : Option Nat :=
  let base := bufKey q c p 0
  let used := (s.buf.bufs.filter fun e => base ≤ e.1 && e.1 < base + 2 ^ 21 && ! e.2.idle).map Prod.fst
  let ret := (s.pool q).retired.filter fun k => base ≤ k ∧ k < base + 2 ^ 21
  let k := firstGap base ((used ++ ret).mergeSort)
  if k - base < s.poolCount q p c then some k else none

/-- The free buffers of a class of a pool. -/
def State.freeCount (s : State) (q p c : Nat) : Nat :=
  let base := bufKey q c p 0
  s.poolCount q p c
    - ((s.buf.bufs.filter fun e => base ≤ e.1 && e.1 < base + 2 ^ 21 && ! e.2.idle).length
      + ((s.pool q).retired.filter fun k => base ≤ k ∧ k < base + 2 ^ 21).length)

/-- The first class from `c` on, `n` of them, that holds a free buffer within the limit. -/
def State.findBuf (s : State) (q inst eng p limit charge : Nat) : Nat → Nat → Option Nat
  | _, 0 => none
  | c, n + 1 =>
    match s.lowestFree q p c with
    | some k => if charge + classSize c ≤ limit then some k else none
    | none => if c < 4 then s.findBuf q inst eng p limit charge (c + 1) n else none

/-- What one pool offers a request of class `c`. -/
def State.tryPool (s : State) (q inst eng c p : Nat) : Option Nat :=
  let pg := Pg.BUF q
  let limit := s.bufMin q inst eng p * s.cfg pg Fd.BUF_CTRL_BORROW_X
  let charge := s.bufCharge q inst eng p
  if charge + classSize c ≤ limit then s.findBuf q inst eng p limit charge c (s.cfg pg Fd.BUF_CTRL_FALLBACK + 1)
  else none

/-- Serve a request from the SRAM pool, or else the overflow pool: its buffer's handle and the state with the
buffer in use, reference 1, charged to the requester. -/
def State.bufAlloc (s : State) (q inst eng size : Nat) : Option (Nat × State) :=
  let pg := Pg.BUF q
  let c := classFor size
  let found := match s.tryPool q inst eng c 0 with
    | some k => some k
    | none => if s.cfgB pg Fd.BUF_CTRL_OVERFLOW then s.tryPool q inst eng c 1 else none
  match found with
  | none => none
  | some k =>
    let b : Buf :=
      { refs := 1, inst := inst, cls := eng, promoted := c < keyClass k, zeroing := false, idle := false, data := [], size := size }
    let s := (s.modBuf fun m => { m with bufs := KV.put m.bufs k b }).bump pg Fd.BUF_CNT_COUNT 0
    let s := if c < keyClass k then s.bump pg Fd.BUF_CNT_COUNT 1 else s
    let s := if keyPool k = 1 then s.bump pg Fd.BUF_CNT_COUNT 2 else s
    some (k * 4096, s)

/-- A request that cannot be served waits (R310, R311). -/
def State.bufWait (s : State) (q : Nat) (r : BufReq) : State :=
  (s.modPool q fun p => { p with waits := p.waits ++ [r] }).bump (Pg.BUF q) Fd.BUF_CNT_COUNT 3

/-- Give a buffer its content. -/
def State.bufFill (s : State) (h : Nat) (bs : List Byte) : State :=
  s.modBuf fun m => { m with bufs := KV.adjust m.bufs (h / 4096) fun b => { b with data := bs, size := bs.length } }

/-- The waiting requests in the order in which a freed buffer of class `k` serves them (R310). -/
def State.waitOrder (s : State) (q k : Nat) : List BufReq :=
  let f := s.cfg (Pg.BUF q) Fd.BUF_CTRL_FALLBACK
  let ok := (s.pool q).waits.filter fun r => classFor r.size ≤ k ∧ k - f ≤ classFor r.size
  let within := fun (r : BufReq) =>
    (List.range 2).any fun p => s.bufCharge q r.inst r.eng p + classSize (classFor r.size) ≤ s.bufMin q r.inst r.eng p
  ok.filter within ++ ok.filter (fun r => ! within r)

/-! ## References (R313) -/

/-- A refused handle (R306). -/
def State.badHandle (s : State) (h : Nat) : State := s.setErr (Pg.BUF (keyQuad (h / 4096))) 0x0102 (h % 2 ^ 32)

/-- An increment. -/
def State.incRef (s : State) (h : Nat) : State :=
  let k := h / 4096
  let pg := Pg.BUF (keyQuad k)
  if ! s.validHandle h then s.badHandle h
  else
    match KV.get? s.buf.bufs k with
    | none =>
      s.modBuf fun m =>
        { m with bufs := KV.put m.bufs k { refs := 1, inst := 0, cls := 0, promoted := false, zeroing := false, idle := true, data := [], size := 0 } }
    | some b =>
      if b.refs < 255 then s.modBuf fun m => { m with bufs := KV.adjust m.bufs k fun b => { b with refs := b.refs + 1 } }
      else
        let s := (s.setErr pg 0x0101 (h % 2 ^ 32)).bump pg Fd.BUF_CNT_COUNT 6
        match s.bufAlloc (keyQuad k) b.inst b.cls b.size with
        | some (h', s) => s.bufFill h' b.data
        | none => s

/-- A decrement: at 1 the buffer is freed, its charge returned, and zeroing begins; at 0 it is a double free. -/
def State.decRef (s : State) (h : Nat) : State :=
  let k := h / 4096
  let pg := Pg.BUF (keyQuad k)
  if ! s.validHandle h then s.badHandle h
  else
    match KV.get? s.buf.bufs k with
    | some b =>
      if 2 ≤ b.refs then s.modBuf fun m => { m with bufs := KV.adjust m.bufs k fun b => { b with refs := b.refs - 1 } }
      else if b.refs = 1 then
        if keyPool k = 2 then (s.modBuf fun m => { m with bufs := KV.del m.bufs k }).bump pg Fd.BUF_CNT_COUNT 4
        else
          (s.modBuf fun m =>
            { m with bufs := KV.adjust m.bufs k fun b => { b with refs := 0, zeroing := true, idle := false, data := [] } }).bump
            pg Fd.BUF_CNT_COUNT 4
      else ((s.setErr pg 0x0100 (h % 2 ^ 32)).setEv pg 8).bump pg Fd.BUF_CNT_COUNT 5 |>.logEv pg 0x0C01 .notice 0 (leBytes 6 h)
    | none => ((s.setErr pg 0x0100 (h % 2 ^ 32)).setEv pg 8).bump pg Fd.BUF_CNT_COUNT 5 |>.logEv pg 0x0C01 .notice 0 (leBytes 6 h)

/-- Drop the reference that a token holds on its buffer. -/
def State.dropToken (s : State) (t : Token) : State :=
  if t.buf ∧ t.kind = 2 then s.decRef (t.value.toNat % 2 ^ 41) else s

/-! ## The write pool (R312) -/

/-- The open buffer of a kind, with room for `u` more units: its index and its units in use. -/
def State.openFor (s : State) (q : Nat) (mirror : Bool) (u : Nat) : Option (Nat × Nat × State) :=
  let p := s.pool q
  let cur := if mirror then p.mirr else p.prim
  let fresh := fun (s : State) =>
    match s.lowestFree q 2 4 with
    | none => none
    | some k =>
      let b : Buf := { refs := 1, inst := 0, cls := 0, promoted := false, zeroing := false, idle := false, data := [], size := 2 ^ 20 }
      let s := s.modBuf fun m => { m with bufs := KV.put m.bufs k b }
      some (keyIndex k, 0, s)
  match cur with
  | some o => if o.units + u ≤ 4096 then some (o.index, o.units, s) else fresh s
  | none => fresh s

/-- The write path drops its reference on a buffer that is closed and needed by no version. -/
def State.poolCheck (s : State) (q idx : Nat) : State :=
  let p := s.pool q
  let isOpen := (p.prim.map (·.index)) = some idx ∨ (p.mirr.map (·.index)) = some idx
  if isOpen ∨ KV.getD 0 p.live idx ≠ 0 ∨ KV.get? s.buf.bufs (bufKey q 4 2 idx) = none then s
  else s.decRef (bufKey q 4 2 idx * 4096)

/-- Append a grain of `len` bytes to the open buffer of a kind: the handle of its copy. -/
def State.landCopy (s : State) (q : Nat) (mirror : Bool) (len : Nat) : Option (Nat × State) :=
  let u := max 1 (cdiv len 256)
  match s.openFor q mirror u with
  | none => none
  | some (idx, units, s) =>
    let old := ((if mirror then (s.pool q).mirr else (s.pool q).prim).map (·.index)).filter (· ≠ idx)
    let s := s.modPool q fun p =>
      let p := { p with live := KV.set 0 p.live idx (KV.getD 0 p.live idx + 1) }
      if mirror then { p with mirr := some ⟨idx, units + u⟩ } else { p with prim := some ⟨idx, units + u⟩ }
    let s := match old with
      | some o => s.poolCheck q o
      | none => s
    some (bufKey q 4 2 idx * 4096 + units, s)

/-- A version's copy is no longer needed. -/
def State.unland (s : State) (h : Nat) : State :=
  let k := h / 4096
  let q := keyQuad k
  (s.modPool q fun p => { p with live := KV.set 0 p.live (keyIndex k) (KV.getD 0 p.live (keyIndex k) - 1) }).poolCheck q (keyIndex k)

end Sys2Proof.Machine
end

