-- ==== Sys2Proof/Machine/MapOps.lean ====
section
/-! DEFINITION. The map cache: home quadrants and sets, map entries, lines and their replacement, the journal,
write-backs and hints (R175, R176, R197 to R218). -/

namespace Sys2Proof.Machine

/-! ## The mixing function (R198) -/

def mix (x k0 k1 : Nat) : Nat :=
  let h := x ^^^ k0
  let h := (h * 0x9E6C63D0676A9A99) % 2 ^ 64
  let h := h ^^^ (h / 2 ^ 31)
  let h := (h * 0xD1B54A32D192ED03) % 2 ^ 64
  h ^^^ (h / 2 ^ 29) ^^^ k1

def segKey (nsx seg : Nat) : Nat := nsx * 2 ^ 40 + seg
def grainKey (nsx grain : Nat) : Nat := nsx * 2 ^ 40 + grain
/-- The home quadrant of a segment. -/
def State.homeSeg (s : State) (nsx seg : Nat) : Nat := mix (segKey nsx seg) s.map.kh0 s.map.kh1 / 2 ^ 62 % 4
/-- The home quadrant of a grain (R13). -/
def State.home (s : State) (nsx grain : Nat) : Nat := s.homeSeg nsx (grain / 512)

/-! ## Map entries (R175) -/

/-- XOR of the 7-bit slices of a number. -/
def fold7 (x : Nat) : Nat :=
  (List.range 10).foldl (fun t i => t ^^^ (x / 2 ^ (7 * i) % 128)) 0
def mapTag (nsx grain : Nat) : Nat := fold7 grain ^^^ fold7 nsx

/-- STATE: 0 unmapped, 1 write buffer, 2 media, 3 uncorrectable. -/
def entState (e : Nat) : Nat := e / 2 ^ 62 % 4
def entRaw (e : Nat) : Bool := e.testBit 61
def entSlc (e : Nat) : Bool := e.testBit 60
def entClass (e : Nat) : Nat := bitsOf e 59 57
def entUnits (e : Nat) : Nat := bitsOf e 56 48 + 1
def entHandle (e : Nat) : Nat := bitsOf e 47 7
def entTag (e : Nat) : Nat := e % 128
def entLane (e : Nat) : Nat := bitsOf e 12 7
/-- The block's location, and the extent's first unit in the block. -/
def entLoc (e : Nat) : Nat :=
  ((entLane e * 16 + bitsOf e 16 13) * 4 + bitsOf e 18 17) * 2048 + bitsOf e 29 19
def entStart (e : Nat) : Nat := bitsOf e 41 30 * 64 + bitsOf e 47 42

/-- A location as journal records and BAND_MEMBER give it: bits [29:7] of the media form (R223). -/
def mediaLoc (loc : Nat) : Nat := loc % 2048 * 2 ^ 12 + loc / 2048 % 4 * 2 ^ 10 + loc / 8192 % 16 * 2 ^ 6 + loc / 131072
/-- An entry in STATE 0 or 3. -/
def entPlain (st nsx grain : Nat) : Nat := st * 2 ^ 62 + mapTag nsx grain
/-- An entry in STATE 1: bits [61:48] keep their meanings, bits [47:7] hold the handle. -/
def entBuffer (raw : Bool) (cls units handle nsx grain : Nat) : Nat :=
  2 ^ 62 + raw.toNat * 2 ^ 61 + cls * 2 ^ 57 + (units - 1) * 2 ^ 48 + handle * 2 ^ 7 + mapTag nsx grain
/-- An entry in STATE 2. -/
def entMedia (raw slc : Bool) (cls units loc start nsx grain : Nat) : Nat :=
  2 ^ 63 + raw.toNat * 2 ^ 61 + slc.toNat * 2 ^ 60 + cls * 2 ^ 57 + (units - 1) * 2 ^ 48 + start % 64 * 2 ^ 42
    + start / 64 * 2 ^ 30 + loc % 2048 * 2 ^ 19 + loc / 2048 % 4 * 2 ^ 17 + loc / 8192 % 16 * 2 ^ 13
    + loc / 131072 * 2 ^ 7 + mapTag nsx grain

/-! ## Caches -/

def CacheS.init : CacheS :=
  { enabled := true, draining := false, resized := false, resizing := false, ks0 := 0, ks1 := 0, sets := [], evb := [],
    misses := [], waiting := [], hints := [], wbs := [], cnt := [], cleaning := false }

def State.cache (s : State) (q : Nat) : CacheS := KV.getD .init s.map.caches q
def State.modCache (s : State) (q : Nat) (f : CacheS → CacheS) : State :=
  s.modMap fun m => { m with caches := KV.modify .init m.caches q f }
def CacheS.count (c : CacheS) (k n : Nat) : CacheS := { c with cnt := KV.modify 0 c.cnt k fun v => (v + n) % 2 ^ 32 }
/-- The set of a segment (R198). -/
def CacheS.setOf (c : CacheS) (nsx seg : Nat) : Nat :=
  mix (segKey nsx seg) c.ks0 c.ks1 % (if c.resized then 2 ^ 18 else 2 ^ 19)
def CacheS.set (c : CacheS) (ix : Nat) : CacheSet := KV.getD .empty c.sets ix
def CacheS.modSet (c : CacheS) (ix : Nat) (f : CacheSet → CacheSet) : CacheS :=
  { c with sets := KV.modify .empty c.sets ix f }

/-! ## Replacement (R201, R202) -/

/-- Node bits after an access to a way: away from it on demand, towards it otherwise. -/
def treeTouch (tree w : Nat) (towards : Bool) : Nat :=
  let step := fun (st : Nat × Nat) (level : Nat) =>
    let b := w / 2 ^ level % 2
    let v := if towards then b else 1 - b
    (setBits st.1 st.2 st.2 v, 2 * st.2 + b)
  ([3, 2, 1, 0].foldl step (tree, 1)).1
/-- The way that the tree points to. -/
def treeWay (tree : Nat) : Nat :=
  ([0, 1, 2, 3].foldl (fun n (_ : Nat) => 2 * n + tree / 2 ^ n % 2) 1) - 16

/-- The first way, from way `n` on, that satisfies `p`. -/
def firstWay (p : Way → Bool) : Nat → List Way → Option Nat
  | _, [] => none
  | n, w :: ws => if p w then some n else firstWay p (n + 1) ws

/-- The victim of a miss: the first rule of R202 that finds a way. -/
def CacheSet.victim (t : CacheSet) : Option Nat :=
  match firstWay (fun w => ! w.valid && ! w.busy) 0 t.ways with
  | some w => some w
  | none =>
    let tw := treeWay t.tree
    if ! (t.ways.getD tw .empty).busy then some tw
    else match firstWay (fun w => ! w.busy && w.pref) 0 t.ways with
      | some w => some w
      | none => firstWay (fun w => ! w.busy) 0 t.ways

def CacheSet.find (t : CacheSet) (nsx seg : Nat) : Option Nat :=
  firstWay (fun w => w.valid && w.nsx = nsx && w.seg = seg) 0 t.ways
def CacheSet.modWay (t : CacheSet) (w : Nat) (f : Way → Way) : CacheSet :=
  { t with ways := t.ways.set w (f (t.ways.getD w .empty)) }
/-- An access to a way: the tree, and PREF on demand. -/
def CacheSet.access (t : CacheSet) (w : Nat) (towards : Bool) : CacheSet :=
  let t := { t with tree := treeTouch t.tree w towards }
  if towards then t else t.modWay w fun x => { x with pref := false }

/-- Dirty lines and valid lines. -/
def CacheS.lines (c : CacheS) (p : Way → Bool) : Nat :=
  c.sets.foldl (fun n e => n + (e.2.ways.filter p).length) 0
def CacheS.dirty (c : CacheS) : Nat := c.lines fun w => w.valid && w.dirty
def CacheS.capacity (c : CacheS) : Nat := if c.resized then 2 ^ 22 else 2 ^ 23

/-! ## Write-backs and the journal (R205, R206) -/

/-- Append a journal record: the next SEQ of the module-wide counter. -/
def State.journal (s : State) (type nsx key value quad : Nat) : State :=
  s.modMap fun m =>
    let seq := m.seq + 1
    { m with
      seq := seq
      journal := { seq := seq, type := type, nsx := nsx, key := key, value := value, quad := quad } :: m.journal }

/-- The entry of a grain; an unlisted one is unmapped. -/
def State.entryOf (s : State) (nsx grain : Nat) : Nat :=
  KV.getD (entPlain 0 nsx grain) s.map.map (grainKey nsx grain)

/-- The mapped entries of a segment. -/
def State.segEntries (s : State) (nsx seg : Nat) : KV Nat :=
  s.map.map.filter fun e => segKey nsx 0 + seg * 512 ≤ e.1 ∧ e.1 < segKey nsx 0 + (seg + 1) * 512

/-- Queue the write-back of a line: a snapshot of its entries. -/
def State.queueWb (s : State) (q nsx seg : Nat) : State :=
  let snap := s.segEntries nsx seg
  let seq := s.map.seq
  (s.modCache q fun c => (({ c with wbs := c.wbs ++ [WriteBack.mk seg nsx seq snap false] }).count 5 1))

/-- Take a way for a segment, moving a dirty victim to the eviction buffer with its write-back queued; `none`
where no way can be had. -/
def State.takeWay (s : State) (q nsx seg : Nat) : Option (Nat × Nat × State) :=
  let c := s.cache q
  let ix := c.setOf nsx seg
  match (c.set ix).victim with
  | none => none
  | some w =>
    let v := (c.set ix).ways.getD w .empty
    if v.valid ∧ v.dirty then
      if 64 ≤ c.evb.length then none
      else
        let s := s.modCache q fun c => { c with evb := c.evb ++ [⟨v.seg, v.nsx, { v with wb := true }⟩] }
        some (ix, w, if v.wb then s else s.queueWb q v.nsx v.seg)
    else some (ix, w, s)

/-- Put a line into a way. -/
def State.putLine (s : State) (q ix w : Nat) (line : Way) (towards : Bool) : State :=
  s.modCache q fun c => c.modSet ix fun t => (t.modWay w fun _ => line).access w towards |>.modWay w fun x => { x with pref := line.pref }

def FillKind.towards (s : State) : FillKind → Bool
  | .demand => false
  | .hint _ => true
  | .scan => s.cfgB Pg.MAPC Fd.MAPC_HINTS_SCAN_RESIST

def Way.fresh (nsx seg : Nat) (pref : Bool) : Way := { Way.empty with seg := seg, nsx := nsx, valid := true, pref := pref }

/-- The segment was written to flash at some time. -/
def State.segOnFlash (s : State) (nsx seg : Nat) : Bool := (KV.get? s.map.dir (segKey nsx seg)).isSome

/-- A miss: build the line of a segment never written, or start a fill from flash into a reserved way; without
an outstanding miss or a way to be had it waits (R200). The Boolean tells whether the line is there. -/
def State.startMiss (s : State) (q nsx seg : Nat) (kind : FillKind) : Bool × State :=
  let c := s.cache q
  let isHint := match kind with | .hint _ => true | _ => false
  if 256 ≤ c.misses.length then
    (false, s.modCache q fun c => { c with waiting := c.waiting ++ [⟨seg, nsx, c.setOf nsx seg, none, kind, 1⟩] })
  else
    match s.takeWay q nsx seg with
    | none => (false, s.modCache q fun c => { c with waiting := c.waiting ++ [⟨seg, nsx, c.setOf nsx seg, none, kind, 1⟩] })
    | some (ix, w, s) =>
      if s.segOnFlash nsx seg then
        (false, s.modCache q fun c =>
          { (c.modSet ix fun t => t.modWay w fun _ => { Way.empty with seg := seg, nsx := nsx, busy := true }) with
            misses := c.misses ++ [⟨seg, nsx, ix, some w, kind, 1⟩] })
      else (true, s.putLine q ix w (Way.fresh nsx seg isHint) (kind.towards s))

/-- A lookup of a segment's line (R200, R212, R213): whether its entries can be read now, and the state. -/
def State.lookup (s : State) (nsx seg : Nat) (kind : FillKind) : Bool × State :=
  let q := s.homeSeg nsx seg
  let s := s.modCache q (·.count 0 1)
  let c := s.cache q
  let ix := c.setOf nsx seg
  if ! c.enabled then (true, s.modCache q (·.count 2 1))
  else
    match (c.set ix).find nsx seg with
    | some w => (true, s.modCache q fun c => (c.count 1 1).modSet ix fun t => t.access w (kind.towards s))
    | none =>
      match c.evb.find? (fun e => e.nsx = nsx && e.seg = seg) with
      | some e =>
        let s := s.modCache q (·.count 3 1)
        match s.takeWay q nsx seg with
        | some (ix, w, s) => (true, s.putLine q ix w { e.way with pref := false } (kind.towards s))
        | none => (true, s)
      | none =>
        if (c.misses ++ c.waiting).any (fun m => m.nsx = nsx && m.seg = seg) then
          (false, s.modCache q fun c =>
            let bump := fun (m : Miss) => if m.nsx = nsx ∧ m.seg = seg then { m with merged := m.merged + 1, kind := if kind = .demand then .demand else m.kind } else m
            { c.count 4 1 with misses := c.misses.map bump, waiting := c.waiting.map bump })
        else s.startMiss q nsx seg kind

/-- Bring a line in at once, for an update the module makes of its own accord. -/
def State.ensureLine (s : State) (nsx seg : Nat) : State :=
  let q := s.homeSeg nsx seg
  let c := s.cache q
  if ! c.enabled then s
  else
    match (c.set (c.setOf nsx seg)).find nsx seg with
    | some _ => s
    | none =>
      let (line, fill) := match c.evb.find? (fun e => e.nsx = nsx && e.seg = seg) with
        | some e => (e.way, 0)
        | none => (Way.fresh nsx seg false, (s.segOnFlash nsx seg).toNat)
      match s.takeWay q nsx seg with
      | some (ix, w, s) => (s.putLine q ix w line false).modCache q (·.count 2 fill)
      | none => s

/-- An update makes the line dirty; while a write-back is in flight it sets REDIRTY. With the cache disabled
the segment is written back before the commit completes (R213). -/
def State.dirtyLine (s : State) (nsx seg : Nat) : State :=
  let q := s.homeSeg nsx seg
  let s := s.ensureLine nsx seg
  let c := s.cache q
  let seq := s.map.seq
  if ! c.enabled then
    (s.modMap fun m => { m with dir := KV.put m.dir (segKey nsx seg) ⟨seq, s.segEntries nsx seg, 0, true⟩ }).modCache q (·.count 5 1)
  else
    let ix := c.setOf nsx seg
    match (c.set ix).find nsx seg with
    | none => s
    | some w =>
      s.modCache q fun c => c.modSet ix fun t => t.modWay w fun x =>
        if x.dirty then { x with redirty := x.wb || x.redirty }
        else { x with dirty := true, firstDirty := seq, dirtyAt := s.now }

/-- A map commit of one entry: journaled, then the line updated (R205). -/
def State.commitEntry (s : State) (nsx grain e : Nat) : State :=
  let q := s.home nsx grain
  let s := s.journal 0x01 nsx grain e q
  let s := s.modMap fun m => { m with map := KV.set (entPlain 0 nsx grain) m.map (grainKey nsx grain) e }
  s.dirtyLine nsx (grain / 512)

/-- A segment frame's row is programmed: the directory, the SEGMENT record, and DIRTY, WB and REDIRTY of the line
and of its eviction-buffer copy (R206, R212). -/
def State.wbDone (s : State) (q : Nat) (wb : WriteBack) (band loc : Nat) : State :=
  let s := s.modMap fun m => { m with dir := KV.put m.dir (segKey wb.nsx wb.seg) ⟨wb.seq, wb.entries, band, true⟩ }
  let s := s.journal 0x02 wb.nsx wb.seg loc q
  s.modCache q fun c =>
    let c := { c with
      wbs := c.wbs.erase wb
      evb := c.evb.eraseP fun e => e.nsx = wb.nsx && e.seg = wb.seg }
    let ix := c.setOf wb.nsx wb.seg
    match (c.set ix).find wb.nsx wb.seg with
    | none => c
    | some w => c.modSet ix fun t => t.modWay w fun x =>
        { x with dirty := x.redirty, wb := false, redirty := false, firstDirty := if x.redirty then s.map.seq else x.firstDirty }

/-- Queue the write-back of a resident dirty line whose write-back is not in flight. -/
def State.writeBackLine (s : State) (q nsx seg : Nat) : State :=
  let c := s.cache q
  let ix := c.setOf nsx seg
  match (c.set ix).find nsx seg with
  | none => s
  | some w =>
    let x := (c.set ix).ways.getD w .empty
    if x.dirty ∧ ! x.wb then
      (s.modCache q fun c => c.modSet ix fun t => t.modWay w fun x => { x with wb := true }).queueWb q nsx seg
    else s

/-- Every dirty line of a quadrant: NSX, segment and SEQ of its first update. -/
def CacheS.dirtyLines (c : CacheS) : List (Nat × Nat × Nat) :=
  c.sets.flatMap fun e => (e.2.ways.filter fun w => w.valid && w.dirty).map fun w => (w.nsx, w.seg, w.firstDirty)

def State.writeBackAll (s : State) (q : Nat) : State :=
  (s.cache q).dirtyLines.foldl (fun s d => s.writeBackLine q d.1 d.2.1) s

/-- REPLAY_FROM as it would be now (R208). -/
def State.replayFrom (s : State) : Nat :=
  ((List.range 4).flatMap fun q => (s.cache q).dirtyLines.map (·.2.2) ++ (s.cache q).evb.map (·.way.firstDirty)).foldl Nat.min s.map.seq

/-- Journal held since the newest counted checkpoint's REPLAY_FROM, bytes. -/
def State.replayLag (s : State) : Nat :=
  let from_ := match s.map.ckpt with | some c => c.replayFrom | none => 0
  ((s.map.journal.takeWhile fun r => from_ ≤ r.seq).length) * 32

/-- The cleaner: above DIRTY_HI per cent it queues write-backs, oldest first-dirty SEQ first, until DIRTY_LO
(R207). -/
def State.cleaner (s : State) (q : Nat) : State :=
  let c := s.cache q
  let hi := s.cfg Pg.MAPC Fd.MAPC_CLEAN_DIRTY_HI * c.capacity / 100
  let lo := s.cfg Pg.MAPC Fd.MAPC_CLEAN_DIRTY_LO * c.capacity / 100
  if c.dirty ≤ hi then s
  else
    let l := c.dirtyLines.mergeSort fun a b => a.2.2 ≤ b.2.2
    (l.take (c.dirty - lo)).foldl (fun s d => s.writeBackLine q d.1 d.2.1) s

/-! ## Hints (R203, R204) -/

def State.hintFills (s : State) (q inst : Nat) : Nat :=
  let c := s.cache q
  ((c.misses ++ c.waiting).filter fun m => m.kind = .hint inst).length

/-- Make a resident line the next victim (RELEASE). -/
def State.releaseLine (s : State) (q nsx seg : Nat) : State :=
  let s := s.writeBackLine q nsx seg
  s.modCache q fun c =>
    let ix := c.setOf nsx seg
    match (c.set ix).find nsx seg with
    | none => c
    | some w => c.modSet ix fun t => { t with tree := treeTouch t.tree w true }

def State.lineThere (s : State) (q nsx seg : Nat) : Bool :=
  let c := s.cache q
  ((c.set (c.setOf nsx seg)).find nsx seg).isSome || c.evb.any (fun e => e.nsx = nsx && e.seg = seg)
    || (c.misses ++ c.waiting).any (fun m => m.nsx = nsx && m.seg = seg)

/-- Carry out a hint for one segment; a prefetch beyond 16 outstanding fills of its instance stays queued, and
one that finds the queue full is dropped. -/
def State.hintSeg (s : State) (op nsx seg inst : Nat) (scan : Bool) : State :=
  let q := s.homeSeg nsx seg
  if op = 1 then
    if s.lineThere q nsx seg ∨ ! (s.cache q).enabled then s
    else if s.hintFills q inst < 16 then
      (s.startMiss q nsx seg (.hint inst)).2.modCache q (·.count 6 1)
    else if (s.cache q).hints.length < 256 then
      s.modCache q fun c => { c with hints := c.hints ++ [⟨op, nsx, seg, 1, inst, scan⟩] }
    else (s.modCache q (·.count 7 1)).setEv Pg.MAPC 13
  else if op = 2 then s.releaseLine q nsx seg
  else s.writeBackLine q nsx seg

/-- Segments of a namespace, index segments aside. -/
def State.nsSegs (s : State) (nsx : Nat) : Nat :=
  match KV.get? s.media.nss nsx with
  | none => 0
  | some n => cdiv (cdiv n.nsze n.grain) 512

/-- A hint of a source: a segment beyond the namespace is ignored, a namespace of another instance drops it. -/
def State.hint (s : State) (op nsx seg count inst : Nat) (anyNs scan : Bool) : State :=
  match KV.get? s.media.nss nsx with
  | none => (s.modCache (s.homeSeg nsx seg) (·.count 7 1)).setEv Pg.MAPC 13
  | some n =>
    if n.inst ≠ inst ∧ ! anyNs then (s.modCache (s.homeSeg nsx seg) (·.count 7 1)).setEv Pg.MAPC 13
    else
      let top := s.nsSegs nsx
      (List.range count).foldl (fun s i => if seg + i < top then s.hintSeg op nsx (seg + i) inst scan else s) s

/-- Queued hints and waiting misses of a quadrant go on as misses end. -/
def State.retryMisses (s : State) (q : Nat) : State :=
  let c := s.cache q
  let s := s.modCache q fun c => { c with waiting := [] }
  let s := c.waiting.foldl (fun s m =>
    if s.lineThere q m.nsx m.seg then s else (s.startMiss q m.nsx m.seg m.kind).2) s
  let s := s.modCache q fun c => { c with hints := [] }
  c.hints.foldl (fun s h => s.hintSeg h.op h.nsx h.seg h.inst h.scan) s

end Sys2Proof.Machine
end

