-- ==== Sys2Proof/Machine/ModeOps.lean ====
section
/-! DEFINITION. The retained settings store, the fence record, the causes of REDUCED and PRESERVE, and the
changes of mode (R23 to R28, R53 to R58, R67 to R71, R462). -/

namespace Sys2Proof

/-! ## Engine units (R23) -/

/-- The number of a kind of engine unit. -/
def EngineKind.code : EngineKind → Nat
  | .scan => 0 | .compressor => 1 | .decompressor => 2 | .digest => 3 | .xts => 4 | .index => 5
/-- Units of a kind in a quadrant (R354, R388, R394, R417, R369). -/
def EngineKind.count : EngineKind → Nat
  | .scan => 8 | .compressor => 4 | .decompressor => 4 | .digest => 4 | .xts => 2 | .index => 1
/-- How many of a kind a quadrant may lose: half of it; of the XTS pipes one; the index pipeline, which
the partner quadrant replaces, is not counted (R23, R369, R417). -/
def EngineKind.limit : EngineKind → Nat
  | .scan => 4 | .compressor => 2 | .decompressor => 2 | .digest => 2 | .xts => 1 | .index => 1
def EngineKind.all : List EngineKind := [.scan, .compressor, .decompressor, .digest, .xts, .index]

end Sys2Proof

namespace Sys2Proof.Machine

/-! ## Rising lists of numbers -/

/-- The list with a number, still rising and without repeats. -/
def insNat (n : Nat) : List Nat → List Nat
  | [] => [n]
  | k :: ks => if n < k then n :: k :: ks else if n = k then k :: ks else k :: insNat n ks
def delNat (n : Nat) (l : List Nat) : List Nat := l.filter (· ≠ n)

/-! ## The retained settings store (R67, R68, R462) -/

/-- Keys of the system records in a copy; a page's record stands under its number. -/
def Sys.LEDGER : Nat := 2 ^ 20
def Sys.FENCE : Nat := 2 ^ 20 + 1
def Sys.SKIP : Nat := 2 ^ 20 + 2
def Sys.HOLD : Nat := 2 ^ 20 + 3
def Sys.PRESERVE : Nat := 2 ^ 20 + 4
def Sys.SHUTDOWN : Nat := 2 ^ 20 + 5
def Sys.FAIL : Nat := 2 ^ 20 + 6

/-- Bytes of a record in the log of a copy: its frame and its values. -/
def RecBody.bytes : RecBody → Nat
  | .page w => 16 + 8 * w.length
  | .ledger _ => 16 + 2048
  | .fence _ => 16 + 512
  | .restoreFail l => 16 + 4 * l.length
  | _ => 20

/-- The highest sequence number in either copy. -/
def ModeSt.topSeq (m : ModeSt) : Nat :=
  (m.copyA.recs ++ m.copyB.recs).foldl (fun n r => max n r.2.seq) 0
def StoreCopyS.seqOf (c : StoreCopyS) (key : Nat) : Nat := ((KV.get? c.recs key).map (·.seq)).getD 0
/-- A save can go to the copy. -/
def StoreCopyS.open_ (c : StoreCopyS) : Bool := c.headerOk && ! c.compacting
def StoreCopyS.save (c : StoreCopyS) (key : Nat) (r : StoreRec) : StoreCopyS :=
  { c with recs := KV.put c.recs key r, used := min (2 ^ 20) (c.used + r.body.bytes) }

/-- Compaction of one copy at a time begins in SERVICE when a copy is more than 75 % full. -/
def State.startCompaction (s : State) : State :=
  if s.mode.mode ≠ .service ∨ s.mode.copyA.compacting ∨ s.mode.copyB.compacting then s
  else if s.mode.copyA.headerOk ∧ 786432 < s.mode.copyA.used then
    s.modMode fun m => { m with copyA := { m.copyA with compacting := true } }
  else if s.mode.copyB.headerOk ∧ 786432 < s.mode.copyB.used then
    s.modMode fun m => { m with copyB := { m.copyB with compacting := true } }
  else s

/-- Save one record to the copy whose newest record of the kind has the lower sequence number. -/
def State.saveRec (s : State) (key major : Nat) (body : RecBody) : State :=
  let r : StoreRec := { seq := s.mode.topSeq + 1, major := major, body := body }
  let a := s.mode.copyA
  let b := s.mode.copyB
  let toA := a.open_ && (! b.open_ || decide (a.seqOf key ≤ b.seqOf key))
  let s :=
    if toA then s.modMode fun m => { m with copyA := m.copyA.save key r }
    else if b.open_ then s.modMode fun m => { m with copyB := m.copyB.save key r }
    else s
  s.startCompaction

/-- The newest record of a kind that a set of copies holds. -/
def newestRec (a b : Option StoreRec) : Option StoreRec :=
  match a, b with
  | some x, some y => if x.seq < y.seq then some y else some x
  | some x, none => some x
  | none, y => y

def State.saveLedger (s : State) : State := s.saveRec Sys.LEDGER 0 (.ledger s.mode.ledger)
def State.saveFence (s : State) : State := s.saveRec Sys.FENCE 0 (.fence s.fence)
def State.saveSkip (s : State) : State := s.saveRec Sys.SKIP 0 (.skipLatch s.mode.skipLatch)
def State.saveHold (s : State) : State := s.saveRec Sys.HOLD 0 (.startHold s.mode.startHold)
def State.savePreserve (s : State) : State := s.saveRec Sys.PRESERVE 0 (.preserveCause s.mode.preserveCause)
def State.saveShutdown (s : State) : State :=
  s.saveRec Sys.SHUTDOWN 0 (.shutdownStatus s.mode.shutLast s.mode.shutStep)
def State.saveFailList (s : State) : State := s.saveRec Sys.FAIL 0 (.restoreFail s.mode.restoreFail)

/-- PAGE_VER.MAJOR of a page (R32). -/
def State.pageMajor (s : State) (pg : Nat) : Nat := KV.getD 1 s.fw.majors (pageType pg)

/-- The fields of a page that are kept by a save: RW and RWS fields whose start is kept (R48). -/
def keptField (f : Field) : Bool := f.kept && (f.acc = .rw || f.acc = .rws)
/-- The kept bits of the word at an offset. -/
def RegMap.keptOnly (pt off w : Nat) : Nat :=
  (RegMap.at pt off).foldl (fun r f => if keptField f then setBits r f.hi f.lo (bitsOf w f.hi f.lo) else r) 0
/-- The word `old` with its kept bits taken from `w`. -/
def RegMap.keptMerge (pt off old w : Nat) : Nat :=
  (RegMap.at pt off).foldl (fun r f => if keptField f then setBits r f.hi f.lo (bitsOf w f.hi f.lo) else r) old
def RegMap.anyKept (pt off : Nat) : Bool := RegMap.any pt off keptField

/-- The words of a page that differ from their start, by offset. -/
def State.pageWords (s : State) (pg : Nat) : KV Nat :=
  (s.ctl.regs.filter fun e => e.1 / 4096 = pg).map fun e => (e.1 % 4096, e.2)
/-- The kept values of a page: the header's EVOUT and EV_MASK with those of its own map. -/
def State.keptWords (s : State) (pg : Nat) : KV Nat :=
  let pt := pageType pg
  (s.pageWords pg).filterMap fun e =>
    if e.1 = 0x0C ∨ e.1 = 0x24 then some e
    else if RegMap.anyKept pt e.1 then some (e.1, RegMap.keptOnly pt e.1 e.2) else none

/-- Write the kept values of a page to the store (R48): a new kept value takes the page off the restore-fail
list (R70). -/
def State.savePage (s : State) (pg : Nat) : State :=
  let s := s.saveRec pg (s.pageMajor pg) (.page (s.keptWords pg))
  let s := s.modPage pg fun p => { p with saveDue := none }
  if s.mode.restoreFail.contains pg then
    (s.modMode fun m => { m with restoreFail := m.restoreFail.filter (· ≠ pg) }).saveFailList
  else s

/-- A kept value changed: its save is due within 100 ms (R48). -/
def State.wantSave (s : State) (pg : Nat) : State :=
  s.modPage pg fun p => { p with saveDue := some (p.saveDue.getD (s.now + msec 100)) }

/-- The pages whose save is pending. -/
def State.pendingSaves (s : State) : List Nat :=
  s.ctl.pages.filterMap fun e => if e.2.saveDue.isSome then some e.1 else none
def State.saveAll (s : State) : State := s.pendingSaves.foldl (fun s pg => s.savePage pg) s

/-! ## Limits of the failures (R23, R24) -/

def coreFenced (f : FenceRec) (q c : Nat) : Bool :=
  f.quads.contains q || f.clusters.contains (4 * q + c / 16) || f.cores.contains (64 * q + c)
/-- Healthy tenant cores of the module. -/
def FenceRec.healthyCores (f : FenceRec) : Nat :=
  ((List.range 256).filter fun k => ! coreFenced f (k / 64) (k % 64)).length

def unitKey (q : Nat) (k : EngineKind) (u : Nat) : Nat := 64 * q + 8 * k.code + u
def FenceRec.unitFenced (f : FenceRec) (q : Nat) (k : EngineKind) (u : Nat) : Bool :=
  f.quads.contains q || f.units.contains (unitKey q k u)
/-- Fenced units of a kind in a quadrant. -/
def FenceRec.unitsLost (f : FenceRec) (q : Nat) (k : EngineKind) : Nat :=
  ((List.range k.count).filter fun u => f.units.contains (unitKey q k u)).length
/-- The units of a kind in service, ascending. -/
def FenceRec.unitsUp (f : FenceRec) (q : Nat) (k : EngineKind) : List Nat :=
  (List.range k.count).filter fun u => ! f.unitFenced q k u

/-- Cores of one cluster fenced. -/
def FenceRec.coresLost (f : FenceRec) (q c : Nat) : Nat :=
  ((List.range 16).filter fun k => f.cores.contains (64 * q + 16 * c + k)).length
def FenceRec.mediaLost (f : FenceRec) (q : Nat) : Nat :=
  ((List.range 8).filter fun k => f.mediaCores.contains (8 * q + k)).length

def FenceRec.coresPast (f : FenceRec) : Bool :=
  f.healthyCores < 240 || (List.range 16).any fun k => 16 ≤ f.coresLost (k / 4) (k % 4)
def FenceRec.mediaPast (f : FenceRec) : Bool := (List.range 4).any fun q => 4 < f.mediaLost q
def FenceRec.enginesPast (f : FenceRec) : Bool :=
  (List.range 4).any fun q => EngineKind.all.any fun k => k.limit < f.unitsLost q k

/-- A member of a band cannot be read: its block's die or lane is fenced, or it was found so; a member whose
rebuild committed has another block. -/
def State.memberLost (s : State) (b : Band) (m : Nat) : Bool :=
  let loc := b.members.getD m 0
  b.unreadable.contains m || s.fence.dies.contains (loc / 8192) || s.fence.lanes.contains (loc / 131072) || s.fence.quads.contains (loc / 2097152)
def State.lostMembers (s : State) (b : Band) : List Nat :=
  (List.range b.members.length).filter fun m => s.memberLost b m
/-- Bands with a number of unreadable members that satisfies `p`. -/
def State.anyBand (s : State) (p : Nat → Bool) : Bool :=
  s.media.bands.any fun e => p (s.lostMembers e.2).length

/-- REDUCED_CAUSE as the failures now stand (R23, R24); MP stays as set in this start. -/
def State.reducedNow (s : State) : Nat :=
  (s.anyBand fun n => 2 ≤ n).toNat + 2 * s.fence.coresPast.toNat + 4 * (! s.fence.clusters.isEmpty).toNat
    + 8 * s.fence.mediaPast.toNat + 16 * s.fence.enginesPast.toNat + 32 * (! s.fence.links.isEmpty).toNat
    + 64 * (s.mode.reducedCause / 64 % 2)

/-! ## Changes of mode (R54, R26, R77) -/

def Mode.sev : Mode → Sev
  | .reduced => .degraded | .preserve => .critical | _ => .info

/-- The mode changes: MODE_CHANGE, and event 0x0301 in the mode entered. -/
def State.enterMode (s : State) (m : Mode) : State :=
  if s.mode.mode = m then s
  else
    let s := s.modMode fun k => { k with prev := k.mode, mode := m }
    (s.setEv Pg.MODE 8).logEv Pg.MODE 0x0301 m.sev 0 [BitVec.ofNat 8 m.code]

/-- SERVICE and REDUCED follow REDUCED_CAUSE, except during an orderly shutdown (R56). -/
def State.followReduced (s : State) : State :=
  let s := s.modMode fun m => { m with reducedCause := s.reducedNow }
  if s.mode.shutdown.isSome then s
  else if s.mode.mode = .service ∧ s.mode.reducedCause ≠ 0 then s.enterMode .reduced
  else if s.mode.mode = .reduced ∧ s.mode.reducedCause = 0 then s.enterMode .service
  else s

/-- A PRESERVE cause: its kept bit is set and the module enters PRESERVE; in START, in an orderly shutdown and in
HOLD-UP it takes effect at DEC (R28, R56, R57). -/
def State.preserveFor (s : State) (bit : Nat) : State :=
  let s :=
    if s.mode.preserveCause.testBit bit then s
    else (s.modMode fun m => { m with preserveCause := m.preserveCause ||| 2 ^ bit }).savePreserve
  if s.mode.shutdown.isNone ∧ (s.mode.mode = .service ∨ s.mode.mode = .reduced) then s.enterMode .preserve
  else s

/-- A failure within or beyond its limit (R23, R26, R28): its entry with the severity of the mode it takes the
module to, and the mode followed. `pres`: the PRESERVE cause, where the limit passes to PRESERVE. -/
def State.failure (s : State) (pg code : Nat) (absorbed : Bool) (pres : Option Nat) (data : List Byte := []) : State :=
  let sev : Sev := match pres with
    | some _ => .critical
    | none => if absorbed then .absorbed else if s.inHoldup then .critical else .degraded
  let s := s.logEv pg code sev 0 data
  let s := match pres with
    | some bit => s.preserveFor (if s.inHoldup then 6 else bit)
    | none => if ! absorbed ∧ s.inHoldup then s.preserveFor 6 else s
  s.followReduced

/-! ## Engine units (R23, R369, R390, R417) -/

/-- The page that shows a kind of engine unit. -/
def engPage (q : Nat) : EngineKind → Nat
  | .scan => Pg.MAT q | .index => Pg.MAT q | .compressor => Pg.CMP q | .decompressor => Pg.CMP q | .digest => Pg.DIG q | .xts => Pg.XTS q

/-- Fence an engine unit and count it. -/
def State.fenceUnit (s : State) (q : Nat) (k : EngineKind) (u : Nat) : State :=
  if s.fence.unitFenced q k u then s
  else
    let s := (s.modFence fun f => { f with units := insNat (unitKey q k u) f.units }).saveFence
    let s := if k = .xts then s else s.setEv (engPage q k) 8
    let s := if k = .index then s.logEv (engPage q k) 0x0E05 .degraded else s
    s.failure (engPage q k) 0x0106 (decide (s.fence.unitsLost q k ≤ k.limit)) none [BitVec.ofNat 8 k.code, BitVec.ofNat 8 u]

/-! ## Ports (R23, R25, R57) -/

/-- A port has a sub-link up. -/
def State.portServes (s : State) (n : Nat) : Bool :=
  ! s.fence.ports.contains n && (List.range 4).any fun k => (KV.getD .down s.net.subs (4 * n + k)).up

/-! ## Energy of the store (R255, R258) -/

/-- Twice E(V) in picojoules: capacitance in µF, voltage in mV. -/
def energy2 (uf mv : Nat) : Nat := uf * (mv * mv - 18000 * 18000)
/-- E(V) in mJ, rounded down. -/
def energyMj (uf mv : Nat) : Nat := energy2 uf mv / 2000000000
/-- E(V_OP) below the flush minimum of 18 J. -/
def belowMinimum (uf : Nat) : Bool := energy2 uf 54000 < 18000 * 2000000000

end Sys2Proof.Machine
end

