-- ==== Sys2Proof/Machine/MediaOps.lean ====
section
/-! DEFINITION. Blocks, bands, the packing of frames into rows, the map's hold on frames, and reads of the
media (R11, R171 to R191, R221 to R250). -/

namespace Sys2Proof.Machine

/-- Advance a counter kept in units of `per` by `n` of the smaller unit. The remainder stands beyond the control space
under the counter's address. -/
def State.bumpPart (s : State) (pg : Nat) (f : Field) (k n per : Nat) : State :=
  let key := 2 ^ 26 + pg * 4096 + f.off + 4 * k
  let t := KV.getD 0 s.ctl.regs key + n
  let s := s.modCtl fun c => { c with regs := KV.put c.regs key (t % per) }
  if t / per = 0 then s else s.bumpBy pg f k (t / per)

/-! ## Blocks (R191, R221, R234) -/

/-- A block as manufactured, by its place in the die: system reserve, SLC pool, spares, QLC. -/
def blockDefault (loc : Nat) : Block :=
  let n := loc % 8192
  { wear := 0
    state := if n < 8 then .system else if n < 663 then .free else if n < 827 then .spare else .free
    slc := 8 ≤ n && n < 663, margin := 127, refresh := false, progH := 0, patrolD := 0, interval := 0, reads := 0,
    firstRefresh := 0, patrolled := false }
def State.dieUp (s : State) (die : Nat) : Bool := ! s.fence.dies.contains die && ! s.fence.lanes.contains (die / 16) && ! s.fence.quads.contains (die / 256)
def State.blockRec (s : State) (loc : Nat) : Block := KV.getD (blockDefault loc) s.media.blocks loc
def State.modBlock (s : State) (loc : Nat) (f : Block → Block) : State :=
  s.modMedia fun m => { m with blocks := KV.modify (blockDefault loc) m.blocks loc f }
/-- The recorded state; blocks of a fenced die or lane are in STATE 7. -/
def State.blockState (s : State) (loc : Nat) : BlockState :=
  if s.dieUp (loc / 8192) then (s.blockRec loc).state else .fenced

/-- Free of a mode, or in the spare pool. -/
def Block.isKind (b : Block) (spare slc : Bool) : Bool :=
  if spare then b.state = .spare else b.state = .free && b.slc = slc
/-- The first place in a die, and how many, of the blocks manufactured so. -/
def kindRange (spare slc : Bool) : Nat × Nat := if spare then (663, 164) else if slc then (8, 655) else (827, 7365)

/-- Listed blocks of a die. -/
def State.dieBlocks (s : State) (die : Nat) : KV Block :=
  s.media.blocks.filter fun e => e.1 / 8192 = die
/-- Blocks of a kind on a die in service. -/
def State.dieCount (s : State) (die : Nat) (spare slc : Bool) : Nat :=
  if ! s.dieUp die then 0
  else
    let l := s.dieBlocks die
    (kindRange spare slc).2 + (l.filter fun e => e.2.isKind spare slc).length
      - (l.filter fun e => (blockDefault e.1).isKind spare slc).length
def dieList (lane : Nat) : List Nat := (List.range 16).map (16 * lane + ·)
def State.laneCount (s : State) (lane : Nat) (spare slc : Bool) : Nat :=
  (dieList lane).foldl (fun n d => n + s.dieCount d spare slc) 0

/-- The least of a list of (wear, location) pairs. -/
def leastWear : List (Nat × Nat) → Option Nat
  | [] => none
  | x :: xs => some (xs.foldl (fun a b => if b.1 < a.1 ∨ (b.1 = a.1 ∧ b.2 < a.2) then b else a) x).2

/-- The candidates of a die: its lowest untouched block, and the listed ones. -/
def State.dieCands (s : State) (die : Nat) (spare slc : Bool) : List (Nat × Nat) :=
  if ! s.dieUp die then []
  else
    let (a, n) := kindRange spare slc
    let l := s.dieBlocks die
    let g := firstGap (die * 8192 + a) ((l.filter fun e => die * 8192 + a ≤ e.1).map Prod.fst)
    (if g < die * 8192 + a + n then [(0, g)] else []) ++ (l.filter fun e => e.2.isKind spare slc).map fun e => (e.2.wear, e.1)

/-- SLC blocks of a die in the pool, and the floor of each die (R184). -/
def State.poolPerDie (s : State) : Nat := 8192 * s.cfg Pg.MEDIA Fd.MEDIA_SLC_CTRL_POOL_PCT / 100
def State.floorPerDie (s : State) : Nat := cdiv (2 * s.poolPerDie) 100
/-- What a stream must leave free on a die: S5 and the flush take the floor as well. -/
def State.dieReserve (s : State) (stream : Nat) (slc : Bool) : Nat :=
  if slc ∧ stream ≠ 5 ∧ ! s.inHoldup then s.floorPerDie else 0
/-- Free blocks of a mode that a stream can take on a lane. -/
def State.laneFree (s : State) (lane stream : Nat) (slc : Bool) : Nat :=
  if s.fence.lanes.contains lane then 0
  else (dieList lane).foldl (fun n d => n + (s.dieCount d false slc - s.dieReserve stream slc)) 0
/-- The free block that a lane gives: lowest wear, then lowest die, plane and block. -/
def State.lanePick (s : State) (lane stream : Nat) (slc : Bool) : Option Nat :=
  leastWear ((dieList lane).flatMap fun d =>
    if s.dieReserve stream slc < s.dieCount d false slc then s.dieCands d false slc else [])

def State.slcFree (s : State) : Nat := (List.range 64).foldl (fun n l => n + s.laneCount l false true) 0
def State.qlcFree (s : State) : Nat := (List.range 64).foldl (fun n l => n + s.laneCount l false false) 0
def State.spareBlocks (s : State) : Nat := (List.range 64).foldl (fun n l => n + s.laneCount l true false) 0
/-- Free SLC blocks as a percentage of the pool. -/
def State.slcFreePct (s : State) : Nat := 100 * s.slcFree / (max 1 (1024 * s.poolPerDie))

/-- The free-band count: the 34th largest number of free QLC blocks on an unfenced lane (R224). -/
def State.availBands (s : State) : Nat :=
  (((List.range 64).filter fun l => ! s.fence.lanes.contains l).map fun l => s.laneCount l false false).mergeSort (fun a b => b ≤ a)
    |>.getD 33 0
/-- The reclaim level that a free-band count points to (R224). -/
def State.levelFor (s : State) (a : Nat) : Nat :=
  if s.cfg Pg.MEDIA Fd.MEDIA_GC_CTRL_GC_START < a then 0
  else if s.cfg Pg.MEDIA Fd.MEDIA_GC_CTRL_GC_URGENT < a then 1
  else if s.cfg Pg.MEDIA Fd.MEDIA_GC_CTRL_BAND_RESERVE < a then 2 else 3
/-- Note since when the count has pointed to another level. -/
def State.levelTrack (s : State) : State :=
  let t := s.levelFor s.availBands
  if t = s.media.level then s.modMedia fun m => { m with levelSince := none }
  else
    match s.media.levelSince with
    | some (l, _) => if l = t then s else s.modMedia fun m => { m with levelSince := some (t, s.now) }
    | none => s.modMedia fun m => { m with levelSince := some (t, s.now) }

/-- Direct mode begins at the floor and ends above FOLD_URGENT (R187). -/
def State.directCheck (s : State) : State :=
  if ! s.media.direct ∧ s.slcFree ≤ 1024 * s.floorPerDie then
    ((s.modMedia fun m => { m with direct := true }).bump Pg.MEDIA Fd.MEDIA_CNT_COUNT 7).logEv Pg.MEDIA 0x0704 .notice 0 [1]
  else if s.media.direct ∧ s.cfg Pg.MEDIA Fd.MEDIA_FOLD_CTRL_FOLD_URGENT < s.slcFreePct then
    (s.modMedia fun m => { m with direct := false }).logEv Pg.MEDIA 0x0704 .notice 0 [0]
  else s

/-! ## Time for media: the retention clock (R239) -/

/-- Where TIME is real, it is recorded with the retention clock (R242). -/
def State.recordTime (s : State) : State :=
  if s.time.source = .aon then s else s.modTime fun t => { t with lastReal := some s.timeNs }
def State.retNow (s : State) : Nat := s.media.retHours + (s.now - s.media.retAt) / secs 3600

/-! ## Bands (R177, R188, R222) -/

def State.modBand (s : State) (n : Nat) (f : Band → Band) : State :=
  s.modMedia fun m => { m with bands := KV.adjust m.bands n f }
def bandP (n : Nat) : Nat := n % 34
def bandQ (n : Nat) : Nat := (n % 34 + 1) % 34
/-- The member index of data member `d`, and back. -/
def dataMembers (n : Nat) : List Nat := (List.range 34).filter fun m => m ≠ bandP n ∧ m ≠ bandQ n
/-- Units of a block of a mode. -/
def blockUnits (slc : Bool) : Nat := if slc then 65536 else 262144
def bandRows (slc : Bool) : Nat := if slc then 1024 else 4096

/-- Open bands of a stream and mode, in order of opening. -/
def State.openBands (s : State) (stream : Nat) (slc : Bool) : List Nat :=
  s.media.bands.filterMap fun e =>
    if e.2.state = .open_ ∧ e.2.stream = stream ∧ e.2.slc = slc then some e.1 else none
/-- How many open bands a stream keeps in a mode (R188). -/
def State.openLimit (s : State) (stream : Nat) (slc : Bool) : Nat :=
  if slc then (if stream = 4 then 0 else if stream = 5 then 1 else s.cfg Pg.MEDIA Fd.MEDIA_SLC_CTRL_OPEN_SLC)
  else if stream = 5 then 0 else 1

/-- The 34 lanes of a new band: most free blocks first, then ascending (lane − band number) mod 64. -/
def State.bandLanes (s : State) (n stream : Nat) (slc : Bool) : List Nat :=
  let l := ((List.range 64).map fun k => (s.laneFree k stream slc, k)).filter fun e => 0 < e.1
  let l := l.mergeSort fun a b => b.1 < a.1 || (a.1 = b.1 && (a.2 + 64 - n % 64) % 64 ≤ (b.2 + 64 - n % 64) % 64)
  ((l.take 34).map Prod.snd).mergeSort

/-- Open a band for a stream: its blocks, its records in the journal. `none`: the stream waits (R177, R224,
R246, R247). -/
def State.openBand (s : State) (stream : Nat) (slc : Bool) : Option (Nat × State) :=
  let n := s.media.nextBand
  let lanes := s.bandLanes n stream slc
  if s.openLimit stream slc ≤ (s.openBands stream slc).length then none
  else if ! slc ∧ s.media.level = 3 ∧ stream ≠ 4 then none
  else if lanes.length < 34 then none
  else
    let locs := lanes.filterMap fun l => s.lanePick l stream slc
    let b : Band :=
      { state := .open_, stream := stream, slc := slc, members := locs, openSeq := s.map.seq, openAt := s.timeNs,
        closeSeq := 0, closeH := 0, closeOrder := 0, nextRow := 0, programming := false, fill := List.replicate 32 0, frames := [],
        unreadable := [], badPages := [], aliases := [], rebuildRow := 0, erased := [], kind1 := stream = 5 }
    let s := s.modMedia fun m => { m with nextBand := n + 1, bands := KV.put m.bands n b }
    let s := locs.foldl (fun s l => s.modBlock l fun k =>
      { k with state := .member, progH := s.retNow, reads := 0, patrolled := false, refresh := false, margin := 127 }) s
    let s := s.journal 0x10 0 n (stream + 8 * slc.toNat) (stream % 4)
    let s := (List.range 34).foldl (fun s i => s.journal 0x11 0 (64 * n + i) (mediaLoc (locs.getD i 0)) (locs.getD i 0 / 2097152)) s
    some (n, s.levelTrack.directCheck)

/-- Valid units of a band. -/
def Band.valid (b : Band) : Nat := b.frames.foldl (fun n f => if f.valid then n + f.units else n) 0
/-- Valid units per mille of the band's data units. -/
def Band.permille (b : Band) : Nat := 1000 * b.valid / (32 * blockUnits b.slc)

/-- A closed band, or one being relocated, whose valid count reached 0 is marked erasable (R228 step 4). S5 bands leave by
R209. -/
def State.erasableCheck (s : State) (n : Nat) : State :=
  match KV.get? s.media.bands n with
  | none => s
  | some b =>
    if (b.state = .closed ∨ b.state = .folding) ∧ b.valid = 0 ∧ b.stream ≠ 5 then
      let s := s.modBand n fun b => { b with state := .erasable }
      let s := b.members.foldl (fun s l => s.modBlock l fun k => if k.state = .retirePending then k else { k with state := .erasable }) s
      let s := s.journal 0x13 0 n 0 (b.stream % 4)
      s.modMedia fun m =>
        { m with victims := m.victims.filter (· ≠ n), folding := m.bands.any fun e => e.1 ≠ n && e.2.state = .folding && e.2.slc }
    else s

/-- A band closes (R183, R192): BAND_CLOSE, and its close time. -/
def State.closeBand (s : State) (n : Nat) : State :=
  match KV.get? s.media.bands n with
  | none => s
  | some b =>
    if b.state ≠ .open_ then s
    else
      let order := s.media.closeOrder + 1
      let s := s.journal 0x12 0 n b.nextRow (b.stream % 4)
      let s := s.modMedia fun m => { m with closeOrder := order }
      let s := s.modBand n fun b =>
        { b with state := .closed, closeSeq := s.map.seq, closeH := s.retNow, closeOrder := order, programming := false }
      s.erasableCheck n

/-! ## Frames and rows (R171, R174, R179) -/

/-- Units of a frame with a payload of `n` bytes. -/
def frameUnits (n : Nat) : Nat := cdiv (32 + cdiv n 16 * 16) 256

/-- Data members by filled units, the lowest index first among equals. -/
def Band.order (b : Band) : List (Nat × Nat) :=
  (List.zip (List.range 32) b.fill).mergeSort fun x y => x.2 < y.2 || (x.2 = y.2 && x.1 ≤ y.1)

/-- The data member and first unit that take a frame; members that it does not fit are padded to their ends. -/
def Band.slot (b : Band) (units : Nat) : List (Nat × Nat) → Option (Nat × Nat × Band)
  | [] => none
  | (d, o) :: l =>
    if o + units ≤ blockUnits b.slc then some (d, o, { b with fill := b.fill.set d (o + units) })
    else Band.slot { b with fill := b.fill.set d (blockUnits b.slc) } units l

/-- Pages that a frame spans: first and last. -/
def MFrame.pages (f : MFrame) : Nat × Nat := (f.start / 64, (f.start + f.units - 1) / 64)
/-- A frame has units in a row. -/
def MFrame.inRow (f : MFrame) (k : Nat) : Bool := f.pages.1 ≤ k && k ≤ f.pages.2
/-- Every data page of the row is full or padded. -/
def Band.rowFull (b : Band) (k : Nat) : Bool := b.fill.all fun u => (k + 1) * 64 ≤ u

/-- Rows with nothing but pads are passed over; the next full row is programmed. `n` bounds the rows passed. -/
def Band.kick (b : Band) : Nat → Band
  | 0 => b
  | n + 1 =>
    if b.programming ∨ ! b.rowFull b.nextRow ∨ bandRows b.slc ≤ b.nextRow then b
    else if b.frames.any fun f => f.inRow b.nextRow then { b with programming := true }
    else Band.kick { b with nextRow := b.nextRow + 1 } n

/-- Pad the row that is next to be programmed to the end of each data page (R179). -/
def Band.padRow (b : Band) : Band := { b with fill := b.fill.map fun u => max u ((b.nextRow + 1) * 64) }

/-- The band closes once its last row is programmed. -/
def State.fullCheck (s : State) (n : Nat) : State :=
  match KV.get? s.media.bands n with
  | none => s
  | some b => if b.state = .open_ ∧ bandRows b.slc ≤ b.nextRow then s.closeBand n else s

/-- Place a frame in a given open band; `none` where no member has room. -/
def State.placeIn (s : State) (n : Nat) (f : MFrame) : Option State :=
  match KV.get? s.media.bands n with
  | none => none
  | some b =>
    match b.slot f.units b.order with
    | none => none
    | some (d, o, b) =>
      let b := { b with frames := b.frames ++ [{ f with dmember := d, start := o, placedAt := s.now }] }
      some ((s.modBand n fun _ => b.kick 4096).fullCheck n)

/-- The bands of a stream and mode in the turn of R188: from the band whose turn it is, row by row. -/
def State.turnBands (s : State) (stream : Nat) (slc : Bool) : List Nat :=
  let l := s.openBands stream slc
  let t := KV.getD 0 s.media.openTurn (stream + 8 * slc.toNat)
  l.drop (t % max 1 l.length) ++ l.take (t % max 1 l.length)

/-- A frame of the band whose turn it is fills the row: the next band takes the next row. -/
def State.advanceTurn (s : State) (n stream : Nat) (slc : Bool) : State :=
  match KV.get? s.media.bands n with
  | none => s
  | some b =>
    if b.programming then
      s.modMedia fun m => { m with openTurn := KV.modify 0 m.openTurn (stream + 8 * slc.toNat) (· + 1) }
    else s

/-- Try the open bands in turn. -/
def State.placeAny (s : State) (f : MFrame) (stream : Nat) (slc : Bool) : List Nat → Option State
  | [] => none
  | n :: ns =>
    match s.placeIn n f with
    | some s => some (s.advanceTurn n stream slc)
    | none => State.placeAny ((s.modBand n fun b => { b with fill := b.fill.map fun _ => blockUnits b.slc }.kick 4096).fullCheck n) f stream slc ns

/-- Place a frame in an open band of the stream and mode; `none`: it waits for a band to be opened. -/
def State.placeFrame (s : State) (f : MFrame) (stream : Nat) (slc : Bool) : Option State :=
  s.placeAny f stream slc (s.turnBands stream slc)

/-! ## The map's hold on frames (R175, R222) -/

/-- The band that holds a block, and the member. -/
def State.bandOf (s : State) (loc : Nat) : Option (Nat × Nat) :=
  s.media.bands.findSome? fun e =>
    match e.2.members.findIdx? (· = loc) with
    | some m => some (e.1, m)
    | none => (e.2.aliases.find? fun a => a.2 = loc).map fun a => (e.1, a.1)

/-- The frame that an entry in STATE 2 names: its band, member and the frame. -/
def State.frameOf (s : State) (e : Nat) : Option (Nat × Nat × MFrame) :=
  match s.bandOf (entLoc e) with
  | none => none
  | some (n, m) =>
    match KV.get? s.media.bands n with
    | none => none
    | some b =>
      (b.frames.find? fun f => f.kind = 0 && f.start = entStart e && (dataMembers n).getD f.dmember 99 = m).map fun f => (n, m, f)

/-- An entry no longer names its frame: the valid count falls by its units. -/
def State.dropFrame (s : State) (e : Nat) : State :=
  if entState e ≠ 2 then s
  else
    match s.frameOf e with
    | none => s
    | some (n, _, f) =>
      (s.modBand n fun b => { b with frames := b.frames.map fun g => if g = f then { g with valid := false } else g }).erasableCheck n

/-- Commit a grain's new entry; what the old one named on media is let go. -/
def State.setEntry (s : State) (nsx grain e : Nat) : State :=
  let old := s.entryOf nsx grain
  let s := s.commitEntry nsx grain e
  if old = e then s else s.dropFrame old

/-- The entry of a frame in its place. -/
def State.entryAt (s : State) (n : Nat) (f : MFrame) : Nat :=
  match KV.get? s.media.bands n with
  | none => 0
  | some b =>
    entMedia f.raw b.slc b.stream f.units (b.members.getD ((dataMembers n).getD f.dmember 0) 0) f.start f.nsx f.grain

/-! ## Physical space (R245) -/

/-- Valid frame data on media and in the write buffer, bytes. -/
def State.physUsed (s : State) : Nat :=
  256 * (s.media.bands.foldl (fun n e => n + e.2.valid) 0)
    + s.media.versions.foldl (fun n e => if e.2.superseded ∨ e.2.state = .landed then n else n + 256 * frameUnits e.2.data.length) 0
def capacityBytes : Nat := 400000000000000
def State.physFree (s : State) : Nat := capacityBytes - s.physUsed
/-- The "Capacity Exceeded" condition begins and ends. -/
def State.capCheck (s : State) : State :=
  let gb := 1000000000
  let r := s.cfg Pg.MEDIA Fd.MEDIA_CAP_RESERVE_RESERVE_GB
  let h := s.cfg Pg.MEDIA Fd.MEDIA_CAP_RESERVE_HYST_GB
  if ! s.media.capExceeded ∧ s.physFree ≤ r * gb then
    (s.modMedia fun m => { m with capExceeded := true }).logEv Pg.MEDIA 0x0902 .notice 0 [1]
  else if s.media.capExceeded ∧ (r + h) * gb < s.physFree then
    (s.modMedia fun m => { m with capExceeded := false }).logEv Pg.MEDIA 0x0902 .notice 0 [0]
  else s

/-! ## Spares (R234, R248, R250) -/

/-- QLC-mode blocks in service: neither spare, retired, system reserve nor SLC, on unfenced dies. -/
def State.qlcInService (s : State) : Nat :=
  (List.range 1024).foldl (fun n d =>
    if ! s.dieUp d then n
    else
      let l := s.dieBlocks d
      let isQ := fun (b : Block) => ! b.slc && b.state ≠ .spare && b.state ≠ .retired && b.state ≠ .system && b.state ≠ .fenced
      n + 7365 + (l.filter fun e => isQ e.2).length - (l.filter fun e => isQ (blockDefault e.1)).length) 0
/-- S: the pool blocks of unfenced lanes, plus the over-provisioning. -/
def State.sparesS (s : State) : Nat := s.spareBlocks + (s.qlcInService - 6333440)
def State.availPct (s : State) : Nat :=
  let mn := s.cfg Pg.MEDIA Fd.MEDIA_SPARE_MIN_BLOCKS
  100 * (s.sparesS - mn) / (max 1 (1376256 - mn))
def retireData (s : State) : List Byte :=
  leBytes 4 s.sparesS ++ (List.range 4).flatMap fun c => leBytes 4 (KV.getD 0 s.media.retire (c + 1))
/-- S fell: event 0x0906 when Available Spare first falls below 10 %, PRESERVE when S falls below SPARE_MIN. -/
def State.spareCheck (s : State) : State :=
  let s :=
    if ! s.media.spareLogged ∧ s.availPct < 10 then
      (s.modMedia fun m => { m with spareLogged := true }).logEv Pg.MEDIA 0x0906 .notice
    else s
  if s.sparesS < s.cfg Pg.MEDIA Fd.MEDIA_SPARE_MIN_BLOCKS ∧ ! s.mode.preserveCause.testBit 0 then
    (s.logEv Pg.MEDIA 0x0907 .critical 0 (retireData s)).preserveFor 0
  else s

/-- Refill a lane's spare pool from its free QLC blocks, one block at a time, `n` at most (R234). -/
def State.refillLoop (s : State) (lane : Nat) : Nat → State
  | 0 => s
  | n + 1 =>
    match leastWear ((dieList lane).flatMap fun d => s.dieCands d false false) with
    | none => s
    | some loc =>
      let s := (s.modBlock loc fun b => { b with state := .spare }).journal 0x17 0 (mediaLoc loc) 1 (lane / 16)
      State.refillLoop s lane n
def State.refill (s : State) (lane : Nat) : State :=
  let have_ := s.laneCount lane true false
  if have_ < s.cfg Pg.MEDIA Fd.MEDIA_SPARE_CTRL_REFILL_AT ∧ ! s.fence.lanes.contains lane then
    s.refillLoop lane (s.cfg Pg.MEDIA Fd.MEDIA_SPARE_CTRL_REFILL_TO - have_)
  else s

/-- Retire a block (R231 to R234): BLOCK_RETIRE, its event, and one spare of its lane taken into service. -/
def State.retireBlock (s : State) (loc cause : Nat) : State :=
  let lane := loc / 131072
  let slc := (s.blockRec loc).slc
  let s := (s.modBlock loc fun b => { b with state := .retired }).journal 0x15 0 (mediaLoc loc) cause (lane / 16)
  let s := s.modMedia fun m => { m with retire := KV.modify 0 m.retire cause (· + 1) }
  let s := s.bump Pg.MEDIA Fd.MEDIA_GC_CNT_COUNT (if cause = 1 then 3 else if cause = 2 then 4 else 5)
  let s := (s.setEv Pg.MEDIA 14).logEv (Pg.LANE (lane / 16) (lane % 16)) 0x0901 .absorbed 0 (leBytes 4 (mediaLoc loc) ++ [BitVec.ofNat 8 cause])
  let s := match leastWear ((dieList lane).flatMap fun d => s.dieCands d true false) with
    | none => s
    | some sp => (s.modBlock sp fun b => { b with state := .free, slc := slc }).journal 0x17 0 (mediaLoc sp) 2 (lane / 16)
  (s.refill lane).spareCheck

/-! ## Reads of the media (R17, R180, R181) -/

/-- Rows of a frame that cannot be reconstructed: more than two pages of the row unreadable. -/
def State.rowLost (s : State) (n : Nat) (b : Band) (row : Nat) : Nat :=
  let lost := s.lostMembers b
  let _ := n
  lost.length + (b.badPages.filter fun p => p.2 = row && ! lost.contains p.1).length

/-- Begin the read of a grain's frame on media, at step 1, or at step 4 on an unreadable member. -/
def State.startRead (s : State) (who : ReadFor) (nsx grain : Nat) (e : Nat) : State :=
  let id := s.media.nextRead
  let (n, m, row, sent) := match s.frameOf e with
    | some (n, m, f) => (n, m, f.pages.1, f.bytes)
    | none => (0, 0, 0, [])
  let step := match KV.get? s.media.bands n with
    | none => 5
    | some b => if s.memberLost b m ∨ b.badPages.contains (m, row) then 4 else 1
  let r : MRead :=
    { who := who, nsx := nsx, grain := grain, band := n, member := m, row := row, step := step, second := false, sent := sent }
  let s := s.modMedia fun k => { k with nextRead := id + 1, reads := KV.put k.reads id r }
  let s := s.modBlock (entLoc e) fun b => { b with reads := b.reads + 1 }
  let s := if step = 1 then s else s.bump Pg.MEDIA Fd.MEDIA_CNT_COUNT 5
  s.bump (Pg.LANE (entLane e / 16) (entLane e % 16)) Fd.LANE_CNT_COUNT 0

end Sys2Proof.Machine
end

