-- ==== Sys2Proof/Machine/InstOps.lean ====
section
/-! DEFINITION. Instances: shares and what they entitle to, guarantee notices, mailboxes, and context
limits (R116, R117, R143 to R161). -/

namespace Sys2Proof.Machine

/-! ## Shares (R145, R146) -/

/-- The instance's bit in INSTM.ENABLE. -/
def State.enableBit (s : State) (i : Nat) : Bool :=
  i = 0 || (s.live (Pg.INSTM * 4096 + 0x40 + 4 * (i / 32))).testBit (i % 32)
/-- The share that the live settings give each instance. -/
def State.shareFor (s : State) (en : List Nat) (i : Nat) : Nat :=
  if ! en.contains i then 0
  else if s.cfgB Pg.INSTM Fd.INSTM_SHARE_CTRL_EXPLICIT then
    if i = 0 then s.cfg Pg.INSTM Fd.INSTM_SHARE_UNITS_0 else s.cfgAt Pg.INSTM Fd.INSTM_SHARE_UNITS (i - 1)
  else
    let n := en.length
    4096 / n + (if (en.takeWhile (· < i)).length < 4096 - 4096 / n * n then 1 else 0)

/-- Give every instance its share and its enable as the live settings say (R143, R148). -/
def State.applyShares (s : State) : State :=
  let en := (List.range 256).filter s.enableBit
  let all := (List.range 256).filter fun i => en.contains i || s.enabled i || s.share i ≠ 0
  let new := all.map fun i => (i, s.shareFor en i)
  let s := new.foldl (fun s e =>
    let was := s.enabled e.1
    let share := s.share e.1
    let now_ := s.enableBit e.1
    let s := s.modInstOf e.1 fun t => { t with share := e.2, enabled := now_ }
    let s := if was ≠ now_ then s.logEv Pg.INSTM 0x0601 .info e.1 [BitVec.ofNat 8 now_.toNat] else s
    if share ≠ e.2 then (s.setEv (Pg.INST e.1) 11).logEv Pg.INSTM 0x0604 .info e.1 (leBytes 2 e.2) else s) s
  (s.modInst fun m => { m with applyDue := false }).setEv Pg.INSTM 9

/-! ## Contexts by share (R116, R117, R148) -/

def State.ioLimit (s : State) (i : Nat) : Nat := 62 * s.share i
def State.ioHeld (s : State) (i : Nat) : Nat :=
  s.cmd.ctxs.foldl (fun n e => if e.2.inst = i ∧ e.2.qid ≠ 0 then n + 1 else n) 0
/-- ΣE: the entries less one of all I/O queues of an instance. -/
def State.sumE (s : State) (i : Nat) : Nat :=
  s.cmd.ctrls.foldl (fun n c => if c.2.inst = i then c.2.queues.foldl (fun n q => n + (q.2.entries - 1)) n else n) 0
/-- L(q) of a queue. -/
def State.queueLimit (s : State) (i entries : Nat) : Nat :=
  max 1 (s.ioLimit i * (entries - 1) / max 1 (s.sumE i))
def State.queueHeld (s : State) (ctrl qid : Nat) : Nat :=
  s.cmd.ctxs.foldl (fun n e => if e.2.ctrl = ctrl ∧ e.2.qid = qid then n + 1 else n) 0
/-- The I/O contexts that an instance can hold now: with others above their limits, the rest goes to the short
instances in ascending number, each its whole entitlement before the next. -/
def State.ioGrant (s : State) (i : Nat) : Nat :=
  let en := s.enabledList
  let above := en.filter fun k => s.ioLimit k < s.ioHeld k
  let room := 253952 - above.foldl (fun n k => n + s.ioHeld k) 0
  let before := (en.filter fun k => k < i ∧ ! above.contains k).foldl (fun n k => n + s.ioLimit k) 0
  if above.contains i then 0 else min (s.ioLimit i) (room - before)
/-- INST.SHARE.SETTLED (R148). -/
def State.settled (s : State) (i : Nat) : Bool := s.enabled i && s.ioGrant i = s.ioLimit i && s.ioHeld i ≤ s.ioLimit i

/-! ## Mailboxes (R158 to R160) -/

/-- Move the oldest queued message into M2T_DATA where it is free. -/
def State.deliverM2t (s : State) (i : Nat) : State :=
  let t := s.instOf i
  match t.queue with
  | [] => s
  | m :: rest =>
    if t.m2tFull then s
    else
      (s.modInstOf i fun t =>
        { t with m2tFull := true, m2tSource := m.fromModule, m2tSeq := (t.m2tSeq + 1) % 2 ^ 16, m2tData := sliceB m.data 0 256, queue := rest }).aenInst
        i 0xC1 (7 + 0x01 * 256 + 0xC1 * 65536)

/-- Queue a message for an instance, at most 16. -/
def State.queueMsg (s : State) (i : Nat) (m : Msg) : State :=
  (s.modInstOf i fun t => { t with queue := t.queue ++ [m] }).deliverM2t i

/-! ## Guarantee notices (R152 to R154) -/

/-- A notice to one instance. Where its queue is full it replaces a queued notice of the same NOTICE_ID, or else
is lost. -/
def State.noticeTo (s : State) (i id phase : Nat) (data : List Byte) : State :=
  let t := s.instOf i
  let m : Msg := ⟨true, id, phase, data⟩
  if t.queue.length < 16 then s.queueMsg i m
  else if t.queue.any fun k => k.fromModule && k.notice = id then
    s.modInstOf i fun t => { t with queue := t.queue.map fun k => if k.fromModule ∧ k.notice = id then m else k }
  else s.modInstOf i fun t => { t with m2tLost := true }

/-- The 40 bytes of a notice. -/
def noticeBytes (id rung phase cause start end_ scope count measure : Nat) : List Byte :=
  leBytes 4 id ++ [BitVec.ofNat 8 rung, BitVec.ofNat 8 phase] ++ leBytes 2 cause ++ leBytes 8 start ++ leBytes 8 end_
    ++ [BitVec.ofNat 8 scope, 0] ++ leBytes 2 count ++ leBytes 4 measure ++ zeros 8

/-- Post one phase of a breach to the instances it affects, and log it once for all of them. `own`: attributed to
the instance's own demand. -/
def State.postNotice (s : State) (id rung phase cause start measure : Nat) (insts : List Nat) (own : Bool) : State :=
  let end_ := if phase = 2 then s.timeNs else 0
  let s := insts.foldl (fun s i =>
    s.noticeTo i id phase (noticeBytes id rung phase cause start end_ (if own then 0 else 1) 0 measure)) s
  let n := insts.length
  let scope := if n ≤ 1 then 0 else if n = s.enabledList.length then 2 else 1
  (s.setEv Pg.INSTM 11).logEv Pg.INSTM 0x0603 (if rung = 4 then .degraded else .notice) (if n = 1 then insts.getD 0 0 else 0)
    (noticeBytes id rung phase cause start end_ scope n measure)

/-- The window test failed for a non-FUA write of an instance while W is below 16 GiB: a breach of cause 0x0001
begins, or its 10 s start again (R152, R259). -/
def State.windowBreach (s : State) (i : Nat) : State :=
  let t := s.instOf i
  if 16384 ≤ s.hold.w then s
  else if t.windowDue.isSome then s.modInstOf i fun t => { t with windowDue := some (s.now + secs 10) }
  else
    let id := s.inst.noticeSeq + 1
    let s := s.modInst fun m => { m with noticeSeq := id }
    let s := s.modInstOf i fun t =>
      { t with windowDue := some (s.now + secs 10), windowNotice := id, windowStart := s.timeNs, windowW := s.hold.w }
    s.postNotice id 5 1 1 s.timeNs s.hold.w [i] false

/-- A breach of causes 0x0002 to 0x0005 begins for several instances. -/
def State.breachBegin (s : State) (cause rung measure : Nat) (insts : List Nat) (own : Bool := false) : State :=
  if insts.isEmpty then s
  else
    let id := s.inst.noticeSeq + 1
    let s := s.modInst fun m =>
      { m with
        noticeSeq := id
        breaches := m.breaches ++ [{ notice := id, cause := cause, rung := rung, start := s.timeNs, measure := measure, insts := insts }] }
    s.postNotice id rung 1 cause s.timeNs measure insts own

/-- The breaches of a cause end, as far as `p` says. -/
def State.breachEnd (s : State) (p : Breach → Bool) : State :=
  let l := s.inst.breaches.filter p
  let s := s.modInst fun m => { m with breaches := m.breaches.filter fun b => ! p b }
  l.foldl (fun s b => s.postNotice b.notice b.rung 2 b.cause b.start b.measure b.insts false) s

end Sys2Proof.Machine
end

