-- ==== Sys2Proof/Machine/IoOps.lean ====
section
/-! DEFINITION. Grain versions in the write buffer from landing to release, the map commit, the acknowledgement
window, the placing of frames, and the content of a grain (R18, R19, R129, R165 to R169, R189, R258 to R262, R312, R384). -/

namespace Sys2Proof.Machine

/-! ## Namespaces (R122, R165 to R167) -/

/-- The namespace of an instance with an NSID: its NSX and record. -/
def State.nsOf (s : State) (inst nsid : Nat) : Option (Nat × NsS) :=
  s.media.nss.findSome? fun e => if e.2.inst = inst ∧ e.2.nsid = nsid then some e else none
/-- Metadata bytes of an LBA format. -/
def lbafMeta (f : Nat) : Nat := match f with | 0 => 0 | 1 => 8 | 2 => 16 | _ => 64
/-- Bytes of a sector as stored, and of a grain. -/
def NsS.sector (n : NsS) : Nat := 4096 + lbafMeta n.lbaf
def NsS.grainBytes (n : NsS) : Nat := n.grain * n.sector
/-- Sectors per grain of a grain code of R166, and the code reported. -/
def grainSectors (code : Nat) : Option Nat :=
  match code with | 0 => some 4 | 1 => some 1 | 2 => some 4 | 3 => some 16 | _ => none

/-! ## Protection information (R165) -/

/-- Bytes of the protection information, and its offset in the metadata. -/
def NsS.piSize (n : NsS) : Nat := if n.piType = 0 then 0 else match n.lbaf with | 0 => 0 | 1 => 8 | _ => 16
def NsS.piOff (n : NsS) : Nat := if n.lbaf = 3 ∧ ! n.piFirst then 48 else 0
/-- Bytes of guard and of reference tag. -/
def NsS.guardSize (n : NsS) : Nat := match n.lbaf with | 1 => 2 | 2 => 8 | _ => 4
def NsS.refSize (n : NsS) : Nat := match n.lbaf with | 1 => 4 | 2 => 6 | _ => 10
/-- PRACT with metadata that is all protection information: the host's transfer carries none of it. -/
def NsS.strips (n : NsS) (pi : PiArgs) : Bool := pi.pract && n.piSize ≠ 0 && n.piSize = lbafMeta n.lbaf
/-- Bytes of a sector as the host transfers it. -/
def NsS.hostSector (n : NsS) (pi : PiArgs) : Nat := if n.strips pi then 4096 else n.sector
/-- The guard over a sector: its data and the metadata before the protection information. -/
def NsS.guard (n : NsS) (sector : List Byte) : Nat :=
  let body := sector.take (4096 + n.piOff)
  if n.lbaf = 3 then crc32c body else Config.guardOf n.lbaf body % 256 ^ n.guardSize
/-- The reference tag expected of sector `k` of a command. -/
def NsS.refTag (n : NsS) (pi : PiArgs) (k : Nat) : Nat :=
  (if n.piType = 3 then pi.ilbrt else pi.ilbrt + k) % 256 ^ n.refSize
/-- Protection information of a sector: guard, application tag and reference tag, big-endian. -/
def NsS.makePi (n : NsS) (sector : List Byte) (app ref : Nat) : List Byte :=
  (leBytes n.guardSize (n.guard sector)).reverse ++ (leBytes 2 app).reverse ++ (leBytes n.refSize ref).reverse
def NsS.withPi (n : NsS) (sector : List Byte) (app ref : Nat) : List Byte :=
  if n.piSize = 0 then sector else putB sector (4096 + n.piOff) (n.makePi sector app ref)
/-- The check of one sector: `none` where it passes. An application tag of all ones turns the checks off; in type
3 the reference tag must be all ones as well. -/
def NsS.checkPi (n : NsS) (pi : PiArgs) (k : Nat) (sector : List Byte) : Option Status :=
  if n.piSize = 0 then none
  else
    let b := sliceB sector (4096 + n.piOff) n.piSize
    let g := beNat (sliceB b 0 n.guardSize)
    let a := beNat (sliceB b n.guardSize 2)
    let r := beNat (sliceB b (n.guardSize + 2) n.refSize)
    if a = 0xFFFF ∧ (n.piType ≠ 3 ∨ r = 256 ^ n.refSize - 1) then none
    else if pi.guard ∧ g ≠ n.guard sector then some St.guardCheck
    else if pi.app ∧ a &&& pi.lbatm ≠ pi.lbat &&& pi.lbatm then some St.appTagCheck
    else if pi.ref ∧ n.piType ≠ 3 ∧ r ≠ n.refTag pi k then some St.refTagCheck
    else none

/-- Bytes cut into pieces of `k` bytes, `n` of them. -/
def pieces (k : Nat) : Nat → List Byte → List (List Byte)
  | 0, _ => []
  | n + 1, l => sliceB l 0 k :: pieces k n (l.drop k)
/-- Host data of `nlb` sectors as it is stored: protection information made, or checked. -/
def NsS.storeForm (n : NsS) (pi : PiArgs) (nlb : Nat) (data : List Byte) : Except Status (List Byte) :=
  let secs_ := pieces (n.hostSector pi) nlb data
  (List.zip (List.range nlb) secs_).foldl (fun r e =>
    match r with
    | .error x => .error x
    | .ok l =>
      if pi.pract then .ok (l ++ n.withPi (sliceB e.2 0 n.sector) pi.lbat (n.refTag pi e.1))
      else match n.checkPi pi e.1 e.2 with
        | some x => .error x
        | none => .ok (l ++ e.2)) (.ok [])
/-- Stored sectors as the host receives them; `checked` marks the sectors that were ever written. -/
def NsS.hostForm (n : NsS) (pi : PiArgs) (secs_ : List (Bool × List Byte)) : Except Status (List Byte) :=
  (List.zip (List.range secs_.length) secs_).foldl (fun r e =>
    match r with
    | .error x => .error x
    | .ok l =>
      match (if e.2.1 then n.checkPi pi e.1 e.2.2 else none) with
      | some x => .error x
      | none => .ok (l ++ sliceB e.2.2 0 (n.hostSector pi))) (.ok [])
/-- A sector of zeros, with the guard computed over them (R169). -/
def NsS.zeroSector (n : NsS) : List Byte := n.withPi (zeros n.sector) 0 0
def NsS.zeroGrain (n : NsS) : List Byte := (List.replicate n.grain n.zeroSector).flatten

/-! ## Versions in the write buffer -/

def State.modVersion (s : State) (v : Nat) (f : Version → Version) : State :=
  s.modMedia fun m => { m with versions := KV.adjust m.versions v f }
def State.findVersion (s : State) (p : Version → Bool) : Option (Nat × Version) := s.media.versions.find? fun e => p e.2
/-- The version that an entry in STATE 1 names. -/
def State.bufVersion (s : State) (nsx grain e : Nat) : Option (Nat × Version) :=
  s.findVersion fun v => v.nsx = nsx && v.grain = grain && v.prim = entHandle e

/-- Grain bytes that count in A, and A itself in bytes (R259). -/
def State.verBytes (s : State) (v : Version) : Nat :=
  match KV.get? s.media.nss v.nsx with | some n => n.grain * 4096 | none => 0
def State.ackedBytes (s : State) : Nat :=
  s.media.versions.foldl (fun n e => if e.2.acked ∧ e.2.needed then n + s.verBytes e.2 else n) 0
def State.bufferedBytes (s : State) : Nat := s.media.versions.foldl (fun n e => n + s.verBytes e.2) 0

/-- Release both copies of a version; Flushes that waited for it go on. -/
def State.dropVersion (s : State) (id : Nat) : State :=
  match KV.get? s.media.versions id with
  | none => s
  | some v =>
    let s := s.modMedia fun m => { m with versions := KV.del m.versions id }
    let s := s.unland v.prim
    let s := if v.mirrOk then s.unland v.mirr else s
    s.modCmd fun c => { c with flushes := c.flushes.map fun f => { f with versions := f.versions.filter (· ≠ id) } }

/-- Complete the Flushes whose writes all lie in flash (R134). -/
def State.endFlushes (s : State) : State :=
  let l := s.cmd.flushes.filter fun f => f.versions.isEmpty
  let s := s.modCmd fun c => { c with flushes := c.flushes.filter fun f => ! f.versions.isEmpty }
  l.foldl (fun s f => s.finish f.ctx St.ok) s

/-- Older versions of a grain than SEQ `seq` are no longer needed and are released (R262). -/
def State.dropOlder (s : State) (nsx grain seq : Nat) : State :=
  let l := s.media.versions.filter fun e =>
    e.2.nsx = nsx && e.2.grain = grain && decide (e.2.seq < seq) && e.2.state ≠ .landed && e.2.superseded
  (l.foldl (fun s e => s.dropVersion e.1) s).endFlushes

/-- Land one grain in the write pools of its home quadrant and the partner (R312, R261): the version's number.
`none`: the primary's pool has no free buffer. -/
def State.landGrain (s : State) (nsx grain inst first count : Nat) (data : List Byte) (ctx segment : Nat) :
    Option (Nat × State) :=
  let q := s.home nsx grain
  let q' := (Quad.ofIx q).partner.ix
  let S := match KV.get? s.media.nss nsx with | some n => n.grain | none => 1
  match s.landCopy q false (data.length) with
  | none => none
  | some (h, s) =>
    let (mo, mh, s) := match s.landCopy q' true data.length with
      | some (h', s) => (true, h', s)
      | none => (false, 0, s)
    let id := s.media.nextVersion
    let v : Version :=
      { nsx := nsx, grain := grain, inst := inst, home := q, first := first, count := count, whole := count = S, data := data,
        prim := h, mirr := mh, primOk := true, mirrOk := mo, state := .landed, seq := 0, acked := false, needed := false,
        superseded := false, waitSlc := false, stream := 0, units := 0, raw := false, payload := [], at_ := s.now, reruns := 0,
        ctx := ctx, segment := segment }
    some (id, s.modMedia fun m => { m with nextVersion := id + 1, versions := KV.put m.versions id v })

/-- The write pool is full or has room again (R312). -/
def State.poolFull (s : State) (q : Nat) (full : Bool) : State :=
  s.modPool q fun p =>
    if full then { p with fullSince := some (p.fullSince.getD s.now) } else { p with fullSince := none, fullLogged := false }

/-! ## The content of a grain (R19, R168) -/

/-- What a read of a grain finds: zeros never written, bytes, the media, or nothing that can be read. -/
inductive Content where
  | unmapped | bytes (l : List Byte) | media (entry : Nat) | lost
deriving DecidableEq, Repr

def State.content (s : State) (nsx grain : Nat) : Content :=
  let e := s.entryOf nsx grain
  match entState e with
  | 0 => .unmapped
  | 1 => match s.bufVersion nsx grain e with | some (_, v) => .bytes v.data | none => .lost
  | 2 => .media e
  | _ => .lost

/-- The committed bytes of a grain for a merge, once its read has been made. -/
def State.committedBytes (s : State) (n : NsS) (nsx grain : Nat) : Option (List Byte) :=
  match s.content nsx grain with
  | .unmapped => some n.zeroGrain
  | .bytes l => some l
  | .media e => (s.frameOf e).map fun f => f.2.2.bytes
  | .lost => none

/-! ## Classes (R189, R190) -/

/-- Time since the band or buffer entry that holds a grain was opened, ns. -/
def State.heldSince (s : State) (nsx grain e : Nat) : Nat :=
  if entState e = 1 then match s.bufVersion nsx grain e with | some (_, v) => s.now - v.at_ | none => 0
  else match s.bandOf (entLoc e) with
    | some (n, _) => match KV.get? s.media.bands n with | some b => s.timeNs - b.openAt | none => 0
    | none => 0

/-- The class of a host write to a grain. -/
def State.classify (s : State) (nsx grain : Nat) : Nat :=
  let e := s.entryOf nsx grain
  let pg := Pg.MEDIA
  if entState e = 0 ∨ entState e = 3 then s.cfg pg Fd.MEDIA_CLASSIFY_FIRST
  else
    let t := s.heldSince nsx grain e
    let h := if t < secs (60 * s.cfg pg Fd.MEDIA_CLASSIFY_T0_MAX) then 0
      else if t < secs (3600 * s.cfg pg Fd.MEDIA_CLASSIFY_T1_MAX) then 1
      else if t < secs (86400 * s.cfg pg Fd.MEDIA_CLASSIFY_T2_MAX) then 2 else 3
    if entClass e ≤ 3 then min h (entClass e + 1) else if entClass e = 4 then max h 2 else h

/-! ## Map commit of one grain -/

/-- Commit a landed version: the entry points at the write buffer; what it replaces is superseded, kept while it is
needed (R168, R205, R262). -/
def State.commitVersion (s : State) (id stream : Nat) : State :=
  match KV.get? s.media.versions id with
  | none => s
  | some v =>
    let old := s.entryOf v.nsx v.grain
    let oldV := if entState old = 1 then s.bufVersion v.nsx v.grain old else none
    let u := frameUnits v.data.length
    let s := s.setEntry v.nsx v.grain (entBuffer true stream u v.prim v.nsx v.grain)
    let seq := s.map.seq
    let s := s.modVersion id fun v =>
      { v with state := .committed, seq := seq, stream := stream, units := u, raw := true }
    let s := s.modMap fun m => { m with locked := delNat (grainKey v.nsx v.grain) m.locked }
    match oldV with
    | none => s
    | some (o, w) =>
      if w.needed then s.modVersion o fun w => { w with superseded := true }
      else (s.dropVersion o).endFlushes

/-- Acknowledge a version: it is needed, older ones no longer (R259, R262). -/
def State.ackVersion (s : State) (id : Nat) : State :=
  match KV.get? s.media.versions id with
  | none => s
  | some v =>
    let s := s.modVersion id fun v => { v with acked := true, needed := true }
    s.dropOlder v.nsx v.grain v.seq

/-- The window test for a write of `g` bytes of grains, both copies of every grain written (R18, R129, R259 to R261). -/
def State.windowPasses (s : State) (g : Nat) : Bool :=
  let w := s.hold.w * 2 ^ 20
  0 < w && s.ackedBytes ≤ w && s.ackedBytes + g ≤ w

/-! ## Programming (R18 steps 7 to 9, R174, R179, R384) -/

/-- Bound of R382 on the output for `n` bytes with a flush point `a`. -/
def cmpBound (n a : Nat) : Nat := n + 16 * (if 0 < a ∧ a < n then cdiv a 65536 + cdiv (n - a) 65536 else cdiv n 65536) + 64
/-- A compressor's output, within the bound of R382; `x` holds the format's options and, from bit 3 on, the flush point. -/
def compressed (fmt level x : Nat) (data : List Byte) : List Byte :=
  (Config.compress fmt level x data).take (cmpBound data.length (x / 8))
/-- The bytes a version is stored as: raw, or its compressed form where that saves a unit. -/
def State.framePayload (s : State) (q : Nat) (data : List Byte) : Bool × List Byte :=
  let c := compressed 0 (s.cfg (Pg.CMP q) Fd.CMP_INLINE_LEVEL) 0 data
  if s.cfgB (Pg.CMP q) Fd.CMP_INLINE_ENABLE ∧ frameUnits c.length < frameUnits data.length then (false, c) else (true, data)

/-- Place a compressed version in the open band of its stream (FRAME_PACK); without one it waits. -/
def State.packVersion (s : State) (id : Nat) : State :=
  match KV.get? s.media.versions id with
  | none => s
  | some v =>
    if v.state ≠ .compressed then s
    else
      let f : MFrame :=
        { kind := 0, nsx := v.nsx, grain := v.grain, seq := v.seq, units := v.units, raw := v.raw, bytes := v.data, dmember := 0,
          start := 0, valid := true, version := some id, waitSlc := v.waitSlc, placedAt := s.now, fromBand := none, srcEntry := 0 }
      match s.placeFrame f v.stream (! s.media.direct) with
      | none => s
      | some s => s.modVersion id fun v => { v with state := .placed }

/-- Copy the valid frames of a band being relocated that have no copy yet (R186, R227, R228). -/
def State.packCopies (s : State) (src : Nat) (stream : Nat) (slc : Bool) : State :=
  match KV.get? s.media.bands src with
  | none => s
  | some b =>
    b.frames.foldl (fun s f =>
      let there := s.media.bands.any fun e => e.2.frames.any fun g => g.fromBand = some src && g.kind = f.kind && g.nsx = f.nsx && g.grain = f.grain && g.seq = f.seq
      if ! f.valid ∨ f.version.isSome ∨ there ∨ f.kind ≠ 0 then s
      else
        let c := { f with version := none, waitSlc := false, fromBand := some src, srcEntry := s.entryAt src f, valid := true }
        match s.placeFrame c stream slc with
        | none => s
        | some s => s) s

/-- Where the frames of a victim go: stream and mode. -/
def State.victimTo (s : State) (b : Band) : Nat × Bool :=
  if b.slc then
    if b.permille < 10 * s.cfg Pg.MEDIA Fd.MEDIA_FOLD_CTRL_RECLAIM_PCT ∧ s.cfg Pg.MEDIA Fd.MEDIA_FOLD_CTRL_FOLD_URGENT < s.slcFreePct
    then (b.stream, true) else (b.stream, false)
  else (4, false)

/-- Go on with whatever waits for a band: versions, and the copies of victims. -/
def State.packWaiting (s : State) : State :=
  let s := s.media.versions.foldl (fun s e => if e.2.state = .compressed then s.packVersion e.1 else s) s
  s.media.bands.foldl (fun s e =>
    if e.2.state = .folding then
      let (st, slc) := s.victimTo e.2
      s.packCopies e.1 st slc
    else s) s

/-- A write that waited for SLC ends once none of its versions is left to be programmed (R129). -/
def State.slcDone (s : State) (ctx id : Nat) : State :=
  match s.ctx? ctx with
  | none => s
  | some x =>
    let s := s.modCtx ctx fun x => { x with waitSlc := x.waitSlc.filter (· ≠ id) }
    if x.waitSlc = [id] then s.finish ctx St.ok x.res else s

/-- Every row of a version's frame is programmed: the entry is re-pointed and both copies released (R18 step 9). -/
def State.repointNow (s : State) (band : Nat) (f : MFrame) (id : Nat) : State :=
  match KV.get? s.media.versions id with
  | none => s
  | some v =>
    let e := s.entryOf v.nsx v.grain
    let s := s.modMedia fun m => { m with physWrites := m.physWrites + f.units }
    let s := s.modMedia fun m =>
      { m with mediaBytes := KV.modify 0 m.mediaBytes v.inst (· + 256 * f.units) }
    if entState e = 1 ∧ entHandle e = v.prim then
      let s := s.setEntry v.nsx v.grain (s.entryAt band f)
      let s := s.modBand band fun b => { b with frames := b.frames.map fun g => if g.version = some id then { g with version := none } else g }
      let s := (s.dropOlder v.nsx v.grain v.seq).dropVersion id
      (s.slcDone v.ctx id).endFlushes
    else
      let s := s.modBand band fun b => { b with frames := b.frames.map fun g => if g.version = some id then { g with version := none, valid := false } else g }
      let s := if v.acked ∧ v.needed then s.modVersion id fun v => { v with waitSlc := false } else s.dropVersion id
      (s.slcDone v.ctx id).endFlushes

/-- As its rows are complete; in the flush, a version that was not acknowledged re-points with its whole segment (R265). -/
def State.repoint (s : State) (band : Nat) (f : MFrame) (id : Nat) : State :=
  if s.hold.flush.isSome ∧ (KV.get? s.media.versions id).any (! ·.needed) then s else s.repointNow band f id

/-- A copied frame's rows are programmed: it commits where the grain still points at the source (R186). -/
def State.foldCommit (s : State) (band : Nat) (f : MFrame) (src : Nat) : State :=
  let e := s.entryOf f.nsx f.grain
  let s := if (KV.get? s.media.bands src).any (·.slc) then s.bumpPart Pg.MEDIA Fd.MEDIA_CNT_COUNT 3 (256 * f.units) (2 ^ 20)
    else s.bumpPart Pg.MEDIA Fd.MEDIA_GC_CNT_COUNT 1 (256 * f.units) (2 ^ 20)
  if entState e = 2 ∧ e = f.srcEntry then
    let s := s.setEntry f.nsx f.grain (s.entryAt band f)
    (s.modBand band fun b => { b with frames := b.frames.map fun g => if g = f then { g with fromBand := none } else g }).erasableCheck src
  else
    (s.modBand band fun b => { b with frames := b.frames.map fun g => if g = f then { g with fromBand := none, valid := false } else g }).erasableCheck src

/-- A segment frame's rows are programmed (R206). -/
def State.segmentDone (s : State) (band : Nat) (f : MFrame) : State :=
  let q := s.homeSeg f.nsx f.grain
  let s := s.modBand band fun b => { b with frames := b.frames.map fun g => if g = f then { g with fromBand := none, version := none } else g }
  match (s.cache q).wbs.find? fun w => w.nsx = f.nsx && w.seg = f.grain && w.seq = f.seq with
  | none => s
  | some w => s.wbDone q w band (entLoc (s.entryAt band f))

/-- Pack the queued write-backs into S5 frames: 32 bytes of header and 512 entries of 8 bytes (R206). -/
def State.packSegments (s : State) (q : Nat) : State :=
  (s.cache q).wbs.foldl (fun s w =>
    if w.packed then s
    else
      let f : MFrame :=
        { kind := 1, nsx := w.nsx, grain := w.seg, seq := w.seq, units := 17, raw := true, bytes := [], dmember := 0, start := 0,
          valid := true, version := none, waitSlc := false, placedAt := s.now, fromBand := none, srcEntry := 1 }
      match s.placeFrame f 5 true with
      | none => s
      | some s => s.modCache q fun c => { c with wbs := c.wbs.map fun x => if x = w then { x with packed := true } else x }) s

/-- A row of a band has been programmed on all 34 members. -/
def State.rowDone (s : State) (n : Nat) : State :=
  match KV.get? s.media.bands n with
  | none => s
  | some b =>
    let k := b.nextRow
    let data := b.frames.foldl (fun u f => if f.inRow k then u + (min ((k + 1) * 64) (f.start + f.units) - max (k * 64) f.start) else u) 0
    let s := s.bumpPart Pg.MEDIA Fd.MEDIA_CNT_COUNT 1 (256 * data) (2 ^ 20)
    let s := s.bumpPart Pg.MEDIA Fd.MEDIA_CNT_COUNT 2 (256 * (2048 - data)) (2 ^ 20)
    let s := s.bumpPart Pg.MEDIA Fd.MEDIA_CNT_COUNT 4 32768 (2 ^ 20)
    let s := b.members.foldl (fun s l => s.bump (Pg.LANE (l / 2097152) (l / 131072 % 16)) Fd.LANE_CNT_COUNT 1) s
    let s := s.modBand n fun b => { b with nextRow := k + 1, programming := false }.kick 4096
    let ended := b.frames.filter fun f => f.pages.2 = k
    let s := ended.foldl (fun s f =>
      match f.kind, f.version, f.fromBand with
      | 0, some v, _ => s.repoint n f v
      | 0, none, some src => s.foldCommit n f src
      | 1, _, _ => s.segmentDone n f
      | _, _, _ => s) s
    (s.fullCheck n).capCheck

/-- A version of the module's own (program output, a moved value): committed and acknowledged by the window test, or
waiting for SLC like a write. -/
def State.commitOwn (s : State) (ids : List Nat) (stream : Nat) : State :=
  ids.foldl (fun s v => s.commitVersion v stream) s

end Sys2Proof.Machine
end

