-- ==== Sys2Proof/Machine/NvmOps.lean ====
section
/-! DEFINITION. What the commands of the NVM set do once issued: the parts of a read, landing and committing a
write, the window test, deallocation (R17 to R19, R121 to R123, R129, R133, R165 to R169, R200, R259). -/

namespace Sys2Proof.Machine

/-! ## Checks of a range (R121, R122) -/

/-- The namespace that a controller reaches under an NSID. -/
def State.attachedNs (s : State) (ctrl nsid : Nat) : Except Status (Nat × NsS) :=
  match s.ctrl? ctrl with
  | none => .error St.invalidNs
  | some c =>
    if nsid = 0 ∨ nsid = 0xFFFFFFFF then .error St.invalidNs
    else if ! c.attached.contains nsid then .error St.invalidField
    else match s.nsOf c.inst nsid with
      | none => .error St.invalidNs
      | some x => if x.2.sanitizing then .error St.sanitizing else .ok x
/-- The same for an NVM namespace and a range of at least one sector and at most `most`. -/
def State.nvmRange (s : State) (ctrl nsid slba nlb most : Nat) : Except Status (Nat × NsS) :=
  match s.attachedNs ctrl nsid with
  | .error e => .error e
  | .ok (x, n) =>
    if n.kv then .error St.invalidOpcode
    else if nlb = 0 ∨ most < nlb then .error St.invalidField
    else if n.nsze < slba + nlb then .error St.lbaRange
    else .ok (x, n)

/-! ## Grains of a range -/

/-- The grains of a range. -/
def grainsOf (S slba nlb : Nat) : List Nat :=
  if nlb = 0 then [] else (List.range ((slba + nlb - 1) / S + 1 - slba / S)).map (slba / S + ·)
/-- A grain's share of a range: first sector and count. -/
def grainShare (S slba nlb g : Nat) : Nat × Nat :=
  let lo := max slba (g * S)
  (lo, min (slba + nlb) ((g + 1) * S) - lo)

/-! ## Reading (R17, R19, R176, R200) -/

/-- A map entry whose TAG does not match is not used: its line is reloaded from the journal (R176). -/
def State.checkTag (s : State) (nsx grain : Nat) : State :=
  let e := s.entryOf nsx grain
  if entTag e = mapTag nsx grain then s
  else
    let good := match s.map.journal.find? fun r => r.type = 1 && r.nsx = nsx && r.key = grain with
      | some r => r.value
      | none => match KV.get? s.map.dir (segKey nsx (grain / 512)) with
        | some f => KV.getD (entPlain 0 nsx grain) f.entries (grainKey nsx grain)
        | none => entPlain 0 nsx grain
    (s.modMap fun m => { m with map := KV.set (entPlain 0 nsx grain) m.map (grainKey nsx grain) good }).logEv Pg.MAPC 0x0706 .absorbed

/-- One part of a command's reads is there; an unmapped grain has no bytes. -/
def State.putPart (s : State) (n part : Nat) (l : List Byte) : State :=
  s.modCtx n fun x => { x with parts := KV.put x.parts part l }
def State.failCtx (s : State) (n : Nat) (st : Status) : State :=
  s.modCtx n fun x => { x with failed := some (x.failed.getD st) }

/-- Serve a part whose entry can be read now. -/
def State.servePart (s : State) (n part nsx grain : Nat) : State :=
  let s := s.checkTag nsx grain
  match s.content nsx grain with
  | .unmapped => s.putPart n part []
  | .bytes l => s.putPart n part l
  | .lost => s.failCtx n St.unrecovered
  | .media e => (s.modCtx n fun x => { x with pendReads := x.pendReads + 1 }).startRead (.ctx n part) nsx grain e

/-- Look a part up: served at once, or at the end of the fill it waits for. -/
def State.lookupPart (s : State) (n part nsx grain : Nat) : State :=
  let (there, s) := s.lookup nsx (grain / 512) .demand
  if there then s.servePart n part nsx grain
  else s.modCtx n fun x => { x with waitSeg := x.waitSeg ++ [(nsx, grain, part)] }

/-- Look up the grains of a range as parts `p0`, `p0 + 1`, and so on. -/
def State.readRange (s : State) (n nsx S slba nlb p0 : Nat) : State :=
  let gs := grainsOf S slba nlb
  (List.zip (List.range gs.length) gs).foldl (fun s e => s.lookupPart n (p0 + e.1) nsx e.2) s

/-- Nothing more is to come for a command's reads. -/
def Ctx.readsDone (x : Ctx) : Bool := x.pendReads = 0 && x.waitSeg.isEmpty

/-- The stored sectors of a range from the parts read: whether ever written, and their bytes. -/
def Ctx.sectors (x : Ctx) (n : NsS) (slba nlb p0 : Nat) : List (Bool × List Byte) :=
  (List.range nlb).map fun k =>
    let lba := slba + k
    let l := KV.getD [] x.parts (p0 + lba / n.grain - slba / n.grain)
    if l.isEmpty then (false, n.zeroSector) else (true, sliceB l (lba % n.grain * n.sector) n.sector)

/-! ## Landing (R127, R312) -/

/-- Land stored sectors of a command in the write pools, grain by grain. Without room it waits. -/
def State.landRange (s : State) (c nsx : Nat) (n : NsS) (slba nlb : Nat) (data : List Byte) : Option State :=
  (grainsOf n.grain slba nlb).foldl (fun r g =>
    match r with
    | none => none
    | some s =>
      let (first, count) := grainShare n.grain slba nlb g
      match s.landGrain nsx g n.inst first count (sliceB data ((first - slba) * n.sector) (count * n.sector)) c (first / 256) with
      | none => none
      | some (_, s) => some s) (some s)

/-- Versions of a command, in ascending grain. -/
def State.versionsOf (s : State) (c : Nat) : List (Nat × Version) := s.media.versions.filter fun e => e.2.ctx = c
/-- Release the versions of a command that have not been committed. -/
def State.dropLanded (s : State) (c : Nat) : State :=
  ((s.versionsOf c).filter fun e => e.2.state = .landed).foldl (fun s e =>
    (s.modMap fun m => { m with locked := delNat (grainKey e.2.nsx e.2.grain) m.locked }).dropVersion e.1) s

/-- Land a command's data: all of it or, where a pool is full, none; the pool's full spell is noted. -/
def State.landCtx (s : State) (c nsx : Nat) (n : NsS) (slba nlb : Nat) (data : List Byte) : State :=
  let q := s.home nsx (slba / n.grain)
  match s.landRange c nsx n slba nlb data with
  | some s' =>
    let s' := s'.bumpPart Pg.MEDIA Fd.MEDIA_CNT_COUNT 0 data.length (2 ^ 20)
    let s := (s'.poolFull q false).modCtx c fun x => { x with landed := true, dataAt := some (x.dataAt.getD s'.cmd.nextData) }
    s.modCmd fun m => { m with nextData := m.nextData + 1 }
  | none => (s.poolFull q true).modCtx c fun x => { x with got := data }

/-! ## Merging and committing (R18, R122, R123, R168) -/

/-- A command unmaps or marks a grain, without a version of it. -/
def State.plainTouches (s : State) (y : Ctx) (nsx grain : Nat) : Bool :=
  let hit := fun (nsid slba nlb : Nat) => match s.nsOf y.inst nsid with
    | some (k, n) => k = nsx && nlb ≠ 0 && decide (slba / n.grain ≤ grain ∧ grain ≤ (slba + nlb - 1) / n.grain)
    | none => false
  match y.op with
  | .writeUncorrectable _ r => hit r.nsid r.slba r.nlb
  | .writeZeroes _ r true => hit r.nsid r.slba r.nlb
  | .datasetManagement _ nsid true l => l.any fun e => hit nsid e.1 e.2
  | _ => false

/-- An earlier issued write has not yet committed the grain. -/
def State.earlierWrite (s : State) (c nsx grain : Nat) : Bool :=
  match s.ctx? c with
  | none => false
  | some x =>
    let before := fun (y : Ctx) => (y.state = .issued || y.state = .committed) && decide (y.order < x.order)
    (s.media.versions.any fun e =>
      e.2.nsx = nsx && e.2.grain = grain && e.2.state = .landed && e.2.ctx ≠ c &&
        match s.ctx? e.2.ctx with
        | some y => before y
        | none => false)
      || s.cmd.ctxs.any fun e => e.1 ≠ c && before e.2 && s.plainTouches e.2 nsx grain

/-- A command that fails before its commit leaves no trace. -/
def State.failWrite (s : State) (c : Nat) (st : Status) : State := (s.dropLanded c).finish c st

/-- The committed version of one grain of a write has been read for its merge. -/
def State.mergeGrain (s : State) (c grain : Nat) (ok : Bool) : State :=
  match (s.versionsOf c).find? fun e => e.2.grain = grain && e.2.state = .landed && ! e.2.whole with
  | none => s
  | some (id, v) =>
    match s.ctx? c, KV.get? s.media.nss v.nsx with
    | some x, some n =>
      let key := grainKey v.nsx grain
      if ! (x.state = .issued ∨ x.state = .committed) ∨ s.map.locked.contains key ∨ s.earlierWrite c v.nsx grain then s
      else
        match (if ok then s.committedBytes n v.nsx grain else none) with
        | none => s.failWrite c St.unrecovered
        | some old =>
          let s := s.modVersion id fun v => { v with data := putB old ((v.first - grain * n.grain) * n.sector) v.data, whole := true }
          s.modMap fun m => { m with locked := insNat key m.locked }
    | _, _ => s

/-- The lines of a list of grains are in the caches; the absent ones are asked for. -/
def State.linesThere (s : State) (l : List (Nat × Nat)) : Bool × State :=
  l.foldl (fun r e =>
    let (there, s) := r.2.lookup e.1 (e.2 / 512) .demand
    (r.1 && there, s)) (true, s)

/-- Commit a grain in STATE 0 or 3: what it replaces is let go (R169). -/
def State.plainCommit (s : State) (nsx grain st : Nat) : State :=
  let old := s.entryOf nsx grain
  let oldV := if entState old = 1 then s.bufVersion nsx grain old else none
  let s := s.setEntry nsx grain (entPlain st nsx grain)
  match oldV with
  | none => s
  | some (o, w) => ((s.dropOlder nsx grain (w.seq + 1)).dropVersion o).endFlushes

/-- After the last map commit of a command: the window test, and the completion or the wait for SLC. -/
def State.windowTest (s : State) (c : Nat) (fua : Bool) : State :=
  match s.ctx? c with
  | none => s
  | some x =>
    let l := (s.versionsOf c).filter fun e => ! e.2.acked
    let ids := l.map Prod.fst
    let g := l.foldl (fun n e => n + s.verBytes e.2) 0
    if ids.isEmpty then s.finish c St.ok x.res
    else if ! fua ∧ (l.all fun e => e.2.mirrOk) ∧ s.windowPasses g then
      (ids.foldl (fun s v => s.ackVersion v) s).finish c St.ok x.res
    else
      let s := ids.foldl (fun s v => s.modVersion v fun v => { v with waitSlc := true }) s
      let s := s.modCtx c fun x => { x with waitSlc := ids }
      if fua then s else s.windowBreach x.inst

/-- The class of each grain of a command: that of its placement handle, or the classifier's (R189, R190). -/
def State.streamFor (s : State) (cls : Option Nat) (nsx grain : Nat) : Nat := cls.getD (s.classify nsx grain)

/-- The map commit of a command's next aligned segment: `none` where it cannot be made yet. -/
def State.commitSegment (s : State) (c : Nat) (cls : Option Nat) : Option State :=
  let l := (s.versionsOf c).filter fun e => e.2.state = .landed
  match l with
  | [] => none
  | e0 :: _ =>
    let seg := l.foldl (fun m e => min m e.2.segment) e0.2.segment
    let l := l.filter fun e => e.2.segment = seg
    if ! (l.all fun e => e.2.whole && ! s.earlierWrite c e.2.nsx e.2.grain) then none
    else
      let s := s.modCtx c fun x => { x with state := .committed }
      some (l.foldl (fun s e => s.commitVersion e.1 (s.streamFor cls e.2.nsx e.2.grain)) s)

/-! ## Which grains a deallocation unmaps -/

def wholeGrains (S slba nlb : Nat) : List Nat :=
  (grainsOf S slba nlb).filter fun g => grainShare S slba nlb g = (g * S, S)
def partGrains (S slba nlb : Nat) : List Nat :=
  (grainsOf S slba nlb).filter fun g => grainShare S slba nlb g ≠ (g * S, S)

/-- Land zeros for the sectors of the partly covered grains of a range that hold data. -/
def State.landZeros (s : State) (c nsx : Nat) (n : NsS) (slba nlb : Nat) : State :=
  ((partGrains n.grain slba nlb).filter fun g => entState (s.entryOf nsx g) = 1 ∨ entState (s.entryOf nsx g) = 2).foldl (fun s g =>
    let (first, count) := grainShare n.grain slba nlb g
    match s.landGrain nsx g n.inst first count ((List.replicate count n.zeroSector).flatten) c (first / 256) with
    | none => s
    | some (_, s) => s) s

end Sys2Proof.Machine
end

