-- ==== Sys2Proof/Machine/KvOps.lean ====
section
/-! DEFINITION. The index of a Key Value namespace: buckets, placing of keys, allocation of values, and the
two kinds of slot of the index pipeline (R361 to R367). -/

namespace Sys2Proof.Machine

/-! ## Placing (R361, R362) -/

/-- The smallest power of two at or above a number, at least 64. -/
def pow2Above (n : Nat) : Nat → Nat → Nat
  | 0, k => k
  | f + 1, k => if n ≤ k then k else pow2Above n f (2 * k)
def NsS.grains (n : NsS) : Nat := cdiv n.nsze n.grain
/-- Buckets of a namespace. -/
def NsS.buckets (n : NsS) : Nat := pow2Above (max 64 (cdiv n.grains 32)) 40 64
/-- h of a key. -/
def NsS.keyHash (n : NsS) (nsx : Nat) (key : List Byte) : Nat :=
  let k0 := leNat (sliceB key 0 8)
  let k1 := leNat (sliceB key 8 8)
  mix (mix k0 n.kx0 n.kx1 ^^^ k1) (n.kx0 ^^^ key.length) (n.kx1 ^^^ nsx)
def NsS.bucketOf (n : NsS) (nsx : Nat) (key : List Byte) : Nat := n.keyHash nsx key / 2 ^ 32 % n.buckets
def bucketSeg (b : Nat) : Nat := 2 ^ 39 + b
def kvKey (nsx bucket slot : Nat) : Nat := 2 ^ 48 * nsx + 128 * bucket + slot

/-- The slots in use of a bucket: slot number and entry. -/
def State.bucketSlots (s : State) (nsx bucket : Nat) : List (Nat × KvSlot) :=
  (s.mat.kv.filter fun e => e.1 / 128 = kvKey nsx bucket 0 / 128).map fun e => (e.1 % 128, e.2)
/-- The slot that holds a key; FP hits whose key differs are counted. -/
def State.findKey (s : State) (q nsx : Nat) (n : NsS) (key : List Byte) : Option (Nat × KvSlot) × State :=
  let b := n.bucketOf nsx key
  let l := (s.bucketSlots nsx b).filter fun e => e.2.fp = n.keyHash nsx key % 2 ^ 16
  let bad := (l.filter fun e => e.2.key ≠ key).length
  (l.find? fun e => e.2.key = key, s.bumpBy (Pg.MAT q) Fd.MAT_CNT_COUNT 7 bad)
/-- Keys that a namespace holds. -/
def State.keyCount (s : State) (nsx : Nat) : Nat :=
  (s.mat.kv.filter fun e => e.1 / 2 ^ 48 = nsx).length

/-- The quadrant whose index pipeline serves a bucket: its home, or the partner where the pipeline is fenced (R369). -/
def State.indexQuad (s : State) (nsx bucket : Nat) : Nat :=
  let q := s.homeSeg nsx (bucketSeg bucket)
  if s.fence.unitFenced q .index 0 then (Quad.ofIx q).partner.ix else q

def State.mat! (s : State) (q : Nat) : MatS := KV.getD .init s.mat.quads q
def State.modMatQ (s : State) (q : Nat) (f : MatS → MatS) : State :=
  s.modMat fun m => { m with quads := KV.modify .init m.quads q f }

/-! ## Values (R364, R365) -/

/-- First fit of `need` grains in rising allocations from `at_` below `top`. -/
def firstFit (need top : Nat) : Nat → List (Nat × Nat) → Option Nat
  | at_, [] => if at_ + need ≤ top then some at_ else none
  | at_, (g, k) :: l =>
    if g + k ≤ at_ then firstFit need top at_ l
    else if at_ + need ≤ g then (if at_ + need ≤ top then some at_ else none)
    else firstFit need top (g + k) l
/-- Allocate a value's grains in the zone of the bucket's home quadrant: the first grain. -/
def State.allocValue (s : State) (nsx : Nat) (n : NsS) (bucket need : Nat) : Option (Nat × State) :=
  let z := s.homeSeg nsx (bucketSeg bucket)
  let ng := n.grains
  let l := (s.mat.alloc.filter fun e => e.1 / 2 ^ 48 = nsx).map fun e => (e.1 % 2 ^ 48, e.2)
  let pend := (s.mat.zap.filter fun z => z.1 = nsx).map fun z => (z.2.1, z.2.2)
  let used := (l ++ pend).mergeSort fun a b => a.1 ≤ b.1
  match firstFit need ((z + 1) * ng / 4) (z * ng / 4) used with
  | none => none
  | some g =>
    let s := s.modMat fun m => { m with alloc := KV.put m.alloc (2 ^ 48 * nsx + g) need }
    some (g, s.journal 0x1A nsx g need z)

/-- A value's grains are freed: INDEX_FREE, and their unmapping when no read that found them is left (R365, R367). -/
def State.freeValue (s : State) (nsx g bucket : Nat) : State :=
  match KV.get? s.mat.alloc (2 ^ 48 * nsx + g) with
  | none => s
  | some k =>
    let s := s.journal 0x1E nsx g k (s.homeSeg nsx (bucketSeg bucket))
    s.modMat fun m => { m with alloc := KV.del m.alloc (2 ^ 48 * nsx + g), zap := m.zap ++ [(nsx, g, k)] }

/-- A read of one of the grains is under way. -/
def State.readsOf (s : State) (nsx g k : Nat) : Bool :=
  (s.media.reads.any fun r => r.2.nsx = nsx && g ≤ r.2.grain && r.2.grain < g + k)
    || s.cmd.ctxs.any fun x => (match x.2.op with | .retrieve .. => true | _ => false) && x.2.waitSeg.any fun w =>
      w.1 = nsx && g ≤ w.2.1 && w.2.1 < g + k
/-- Unmap the freed grains that no read holds. -/
def State.zapFreed (s : State) : State :=
  let l := s.mat.zap.filter fun z => ! s.readsOf z.1 z.2.1 z.2.2
  let s := s.modMat fun m => { m with zap := m.zap.filter fun z => s.readsOf z.1 z.2.1 z.2.2 }
  l.foldl (fun s z => (List.range z.2.2).foldl (fun s i =>
    if entState (s.entryOf z.1 (z.2.1 + i)) = 0 then s else s.plainCommit z.1 (z.2.1 + i) 0) s) s

/-! ## Slots (R363) -/

/-- An operation waits for a slot. -/
def State.wantSlot (s : State) (q ctx : Nat) (update : Bool) : State :=
  s.modMatQ q fun m => if update then { m with updates := m.updates ++ [ctx] } else { m with searches := m.searches ++ [ctx] }
def State.unwantSlot (s : State) (ctx : Nat) : State :=
  s.modMat fun m => { m with quads := m.quads.map fun e =>
    (e.1, { e.2 with updates := e.2.updates.filter (· ≠ ctx), searches := e.2.searches.filter (· ≠ ctx) }) }

/-- The lowest empty slot of a bucket. -/
def State.emptySlot (s : State) (nsx bucket : Nat) : Option Nat :=
  let k := firstGap 1 ((s.bucketSlots nsx bucket).map Prod.fst)
  if k ≤ 127 then some k else none

/-- KEY of INDEX_PUT and INDEX_DEL. -/
def indexKey (bucket slot len : Nat) : Nat := bucket * 2 ^ 16 + slot * 2 ^ 8 + len

/-- The update slot of a Store (R364): its status. On success the entry is written, the replaced value freed. -/
def State.storeSlot (s : State) (q nsx : Nat) (n : NsS) (key : List Byte) (noOver must : Bool) (g vlen : Nat) :
    Status × State :=
  let b := n.bucketOf nsx key
  let (f, s) := s.findKey q nsx n key
  let put := fun (s : State) (slot : Nat) (old : Option KvSlot) =>
    let e : KvSlot := { key := key, fp := n.keyHash nsx key % 2 ^ 16, grain := g, vlen := vlen }
    let z := s.homeSeg nsx (bucketSeg b)
    let s := s.journal 0x1B nsx (leNat (sliceB key 0 8)) (leNat (sliceB key 8 8)) z
    let s := s.journal 0x1C nsx (indexKey b slot key.length) (g * 2 ^ 21 + vlen) z
    let s := match old with
      | some o => if o.vlen = 0 then s else s.freeValue nsx o.grain b
      | none => s
    (s.modMat fun m => { m with kv := KV.put m.kv (kvKey nsx b slot) e }).dirtyLine nsx (bucketSeg b)
  match f with
  | some (slot, o) => if noOver then (St.keyExists, s) else (St.ok, put s slot (some o))
  | none =>
    if must then (St.noKey, s)
    else if n.grains ≤ s.keyCount nsx then (St.capExceeded, s)
    else match s.emptySlot nsx b with
      | none => (St.capExceeded, s.logEv (Pg.MAT q) 0x0E03 .notice n.inst (leBytes 2 nsx ++ leBytes 8 b))
      | some slot => (St.ok, put s slot none)

/-- The update slot of a Delete. -/
def State.deleteSlot (s : State) (q nsx : Nat) (n : NsS) (key : List Byte) : Status × State :=
  let b := n.bucketOf nsx key
  let (f, s) := s.findKey q nsx n key
  match f with
  | none => (St.noKey, s)
  | some (slot, o) =>
    let s := s.journal 0x1D nsx (indexKey b slot key.length) 0 (s.homeSeg nsx (bucketSeg b))
    let s := if o.vlen = 0 then s else s.freeValue nsx o.grain b
    (St.ok, (s.modMat fun m => { m with kv := KV.del m.kv (kvKey nsx b slot) }).dirtyLine nsx (bucketSeg b))

/-- The bytes of the namespace's sectors that hold a value, metadata zero. -/
def NsS.valueForm (n : NsS) (value : List Byte) : List Byte :=
  let gs := cdiv value.length (n.grain * 4096)
  ((pieces 4096 (gs * n.grain) value).map fun p => sliceB p 0 n.sector).flatten

end Sys2Proof.Machine
end

