-- ==== Sys2Proof/Machine/Flags.lean ====
section
/-! DEFINITION. The arithmetic of the Kwalia cores and the flags it sets (R323, R334, R335, R338, R342). Every
result is computed exactly on numbers and narrowed to 32 bits; carry and overflow compare the two. -/

namespace Sys2Proof.Machine

/-- The flags word (R323). -/
def Flags.word (f : Flags) : Word :=
  BitVec.ofNat 32 (f.n.toNat + 2 * f.z.toNat + 4 * f.c.toNat + 8 * f.v.toNat + 16 * f.dz.toNat)
/-- The flags that a written word sets (R337). -/
def Flags.ofWord (w : Word) : Flags :=
  ⟨w.getLsbD 0, w.getLsbD 1, w.getLsbD 2, w.getLsbD 3, w.getLsbD 4⟩
def Flags.zero : Flags := ⟨false, false, false, false, false⟩

/-- A result, and the flags set beyond N and Z: `none` leaves a flag as it is. -/
structure AluRes where
  d : Word
  c : Option Bool
  v : Option Bool
  dz : Bool
deriving DecidableEq, Repr

def AluRes.plain (d : Word) : AluRes := ⟨d, none, none, false⟩

/-- N and Z from the result, C and V where the row sets them, DZ sticky (R334). -/
def Flags.after (f : Flags) (r : AluRes) : Flags :=
  { n := r.d.msb, z := r.d = 0, c := r.c.getD f.c, v := r.v.getD f.v, dz := f.dz || r.dz }

/-- A + B + carry in. -/
def Alu.addc (a b : Word) (cin : Bool) : AluRes :=
  let d := a + b + BitVec.ofNat 32 cin.toNat
  ⟨d, some (decide (2 ^ 32 ≤ a.toNat + b.toNat + cin.toNat)),
    some (decide (d.toInt ≠ a.toInt + b.toInt + cin.toNat)), false⟩
/-- A − B − borrow in: C is 1 when no borrow goes out. -/
def Alu.subb (a b : Word) (bor : Bool) : AluRes :=
  let d := a - b - BitVec.ofNat 32 bor.toNat
  ⟨d, some (decide (b.toNat + bor.toNat ≤ a.toNat)),
    some (decide (d.toInt ≠ a.toInt - b.toInt - bor.toNat)), false⟩

def Alu.add (_ : Flags) (a b : Word) : AluRes := Alu.addc a b false
def Alu.adc (f : Flags) (a b : Word) : AluRes := Alu.addc a b f.c
def Alu.sub (_ : Flags) (a b : Word) : AluRes := Alu.subb a b false
def Alu.sbc (f : Flags) (a b : Word) : AluRes := Alu.subb a b (! f.c)
def Alu.and (_ : Flags) (a b : Word) : AluRes := .plain (a &&& b)
def Alu.or (_ : Flags) (a b : Word) : AluRes := .plain (a ||| b)
def Alu.xor (_ : Flags) (a b : Word) : AluRes := .plain (a ^^^ b)
def Alu.andn (_ : Flags) (a b : Word) : AluRes := .plain (a &&& ~~~b)
/-- Logical and arithmetic shifts: every bit leaves at 32 or more (R342). -/
def Alu.shlW (a b : Word) : Word := if b.toNat < 32 then a <<< b.toNat else 0
def Alu.shrW (a b : Word) : Word := if b.toNat < 32 then a >>> b.toNat else 0
def Alu.sarW (a b : Word) : Word := a.sshiftRight (min b.toNat 31)
def Alu.shl (_ : Flags) (a b : Word) : AluRes := .plain (Alu.shlW a b)
def Alu.shr (_ : Flags) (a b : Word) : AluRes := .plain (Alu.shrW a b)
def Alu.sar (_ : Flags) (a b : Word) : AluRes := .plain (Alu.sarW a b)
def Alu.ror (_ : Flags) (a b : Word) : AluRes := .plain (a.rotateRight (b.toNat % 32))
def Alu.rol (_ : Flags) (a b : Word) : AluRes := .plain (a.rotateLeft (b.toNat % 32))
def Alu.minW (a b : Word) : Word := if a.slt b then a else b
def Alu.maxW (a b : Word) : Word := if a.slt b then b else a
def Alu.minuW (a b : Word) : Word := if a.ult b then a else b
def Alu.maxuW (a b : Word) : Word := if a.ult b then b else a
def Alu.min (_ : Flags) (a b : Word) : AluRes := .plain (Alu.minW a b)
def Alu.max (_ : Flags) (a b : Word) : AluRes := .plain (Alu.maxW a b)
def Alu.minu (_ : Flags) (a b : Word) : AluRes := .plain (Alu.minuW a b)
def Alu.maxu (_ : Flags) (a b : Word) : AluRes := .plain (Alu.maxuW a b)
/-- V tells whether the signed product fits. -/
def Alu.mul (_ : Flags) (a b : Word) : AluRes :=
  ⟨a * b, none, some (decide ((a * b).toInt ≠ a.toInt * b.toInt)), false⟩
def Alu.mulhs (_ : Flags) (a b : Word) : AluRes := .plain (BitVec.ofInt 32 (a.toInt * b.toInt / 2 ^ 32))
def Alu.mulhu (_ : Flags) (a b : Word) : AluRes := .plain (BitVec.ofNat 32 (a.toNat * b.toNat / 2 ^ 32))
def Alu.neg (_ : Flags) (a _ : Word) : AluRes :=
  ⟨-a, some (decide (a = 0)), some (decide (a = 0x80000000#32)), false⟩
def Alu.not (_ : Flags) (a _ : Word) : AluRes := .plain (~~~a)

/-- Leading zero bits of the low `n` bits of a number. -/
def clzNat : Nat → Nat → Nat
  | 0, _ => 0
  | n + 1, w => if w.testBit n then 0 else 1 + clzNat n w
/-- Set bits among the low `n`. -/
def popNat : Nat → Nat → Nat
  | 0, _ => 0
  | n + 1, w => (w.testBit n).toNat + popNat n w

def Alu.clz (_ : Flags) (a _ : Word) : AluRes := .plain (BitVec.ofNat 32 (clzNat 32 a.toNat))
def Alu.popc (_ : Flags) (a _ : Word) : AluRes := .plain (BitVec.ofNat 32 (popNat 32 a.toNat))
def Alu.bswap (_ : Flags) (a _ : Word) : AluRes := .plain (BitVec.ofNat 32 (beNat (leBytes 4 a.toNat)))

/-- Quotient and remainder of the rule of R342, with V and whether the divisor is zero. -/
def Alu.divide (signed : Bool) (a b : Word) : Word × Word × Bool × Bool :=
  if b = 0 then (0xFFFFFFFF#32, a, false, true)
  else if signed then
    if a = 0x80000000#32 ∧ b = 0xFFFFFFFF#32 then (0x80000000#32, 0, true, false)
    else (BitVec.ofInt 32 (a.toInt.tdiv b.toInt), BitVec.ofInt 32 (a.toInt.tmod b.toInt), false, false)
  else (BitVec.ofNat 32 (a.toNat / b.toNat), BitVec.ofNat 32 (a.toNat % b.toNat), false, false)
def Alu.quot (signed : Bool) (a b : Word) : AluRes :=
  let (q, _, v, dz) := Alu.divide signed a b
  ⟨q, none, some v, dz⟩
def Alu.remn (signed : Bool) (a b : Word) : AluRes :=
  let (_, r, v, dz) := Alu.divide signed a b
  ⟨r, none, some v, dz⟩

/-- Conditions 0 to 9 on two words; `none` for a bad code (R338). -/
def condWords (code : Nat) (a b : Word) : Option Bool :=
  match code with
  | 0 => some (decide (a = b))
  | 1 => some (decide (a ≠ b))
  | 2 => some (a.slt b)
  | 3 => some (! a.slt b)
  | 4 => some (a.sle b)
  | 5 => some (! a.sle b)
  | 6 => some (a.ult b)
  | 7 => some (! a.ult b)
  | 8 => some (a.ule b)
  | 9 => some (! a.ule b)
  | _ => none

/-- Conditions 0 to 14 on the flags; `none` for a bad code (R338). -/
def condFlags (code : Nat) (f : Flags) : Option Bool :=
  match code with
  | 0 => some f.z
  | 1 => some (! f.z)
  | 2 => some (f.n != f.v)
  | 3 => some (f.n == f.v)
  | 4 => some (f.z || f.n != f.v)
  | 5 => some (! f.z && f.n == f.v)
  | 6 => some (! f.c)
  | 7 => some f.c
  | 8 => some (! f.c || f.z)
  | 9 => some (f.c && ! f.z)
  | 10 => some f.n
  | 11 => some (! f.n)
  | 12 => some f.v
  | 13 => some (! f.v)
  | 14 => some f.dz
  | _ => none

end Sys2Proof.Machine
end

