-- ==== Sys2Proof/Machine/Operands.lean ====
section
/-! DEFINITION. The operand forms of the Kwalia cores: registers, guards, lane masks, and the windows a task
addresses (R322, R323, R325 to R327, R336). -/

namespace Sys2Proof.Machine

/-! ## Registers (R322): G0 reads zero and P0 reads 0xFFFF; writes to them are ignored -/

def TaskRun.rg (r : TaskRun) (i : Fin 32) : Word := if i.val = 0 then 0 else KV.getD 0 r.g i.val
def TaskRun.setG (r : TaskRun) (i : Fin 32) (v : Word) : TaskRun :=
  if i.val = 0 then r else { r with g := KV.set 0 r.g i.val v }
def TaskRun.pg (r : TaskRun) (i : Fin 8) : BitVec 16 := if i.val = 0 then 0xFFFF else KV.getD 0 r.p i.val
def TaskRun.setP (r : TaskRun) (i : Fin 8) (v : BitVec 16) : TaskRun :=
  if i.val = 0 then r else { r with p := KV.set 0 r.p i.val v }
def TaskRun.lane (r : TaskRun) (i : Fin 16) (l : Nat) : Word := KV.getD 0 r.v (16 * i.val + l)
def TaskRun.setLane (r : TaskRun) (i : Fin 16) (l : Nat) (v : Word) : TaskRun :=
  { r with v := KV.set 0 r.v (16 * i.val + l) v }
/-- Give each active lane of a vector register a value. -/
def TaskRun.setLanes (r : TaskRun) (i : Fin 16) (mask : BitVec 16) (f : Nat → Word) : TaskRun :=
  (List.range 16).foldl (fun r l => if mask.getLsbD l then r.setLane i l (f l) else r) r

/-! ## Guards (R327) -/

/-- The lane mask of a guard. -/
def TaskRun.mask (r : TaskRun) (g : Guard) : BitVec 16 := if g.neg then ~~~(r.pg g.p) else r.pg g.p
/-- The test of a scalar guard. -/
def TaskRun.holds (r : TaskRun) (g : Guard) : Bool := (r.mask g).getLsbD 0

/-! ## Windows (R325) -/

/-- The bytes of a buffer from an offset on; where a buffer ends early the rest is zero (R307). -/
def State.bufBytes (s : State) (handle n : Nat) : List Byte :=
  match KV.get? s.buf.bufs (handle / 4096) with
  | none => zeros n
  | some b => sliceB b.data (handle % 4096 * 256) n

def State.bufWrite (s : State) (handle off : Nat) (bs : List Byte) : State :=
  s.modBuf fun b => { b with bufs := KV.adjust b.bufs (handle / 4096) fun x => { x with data := putB x.data off bs } }

/-- Where an address of a task lies. -/
inductive Window where
  | scratch | frame
  | rodata (off : Nat)
  | input (handle off : Nat)
  | output (slot handle off : Nat)
deriving DecidableEq, Repr

/-- The window that holds all `n` bytes from an address, if one does (R325). -/
def TaskRun.window (r : TaskRun) (a n : Nat) : Option Window :=
  if a + n ≤ r.node.scratchKib * 1024 then some .scratch
  else if 0x3C000 ≤ a ∧ a + n ≤ 0x3C100 then some .frame
  else if 0x10000000 ≤ a ∧ a + n ≤ 0x10000000 + r.rodata.length then some (.rodata (a - 0x10000000))
  else if 0x20000000 ≤ a ∧ a < 0x20400000 then
    let k := (a - 0x20000000) / 0x100000
    let off := a % 0x100000
    match r.inputs[k]? with
    | some (some t) =>
      if t.buf ∧ r.inLive.getD k false ∧ off + n ≤ t.aux.toNat % 2 ^ 32 then some (.input (t.value.toNat % 2 ^ 41) off)
      else none
    | _ => none
  else if 0x30000000 ≤ a ∧ a < 0x30800000 then
    let j := (a - 0x30000000) / 0x100000
    let off := a % 0x100000
    match KV.get? r.slots j with
    | some sl => if sl.live ∧ off + n ≤ sl.extent then some (.output j sl.handle off) else none
    | none => none
  else none

/-- Read `n` bytes; `none` is MEM_FAULT. The write-only windows do not exist: CODE is fetched only. -/
def kwRead (s : State) (r : TaskRun) (a n : Nat) : Option (List Byte) :=
  match r.window a n with
  | some .scratch => some (r.scratch.readBytes a n)
  | some .frame => some (r.scratch.readBytes a n)
  | some (.rodata off) => some (sliceB r.rodata off n)
  | some (.input h off) => some (sliceB (s.bufBytes h (off + n)) off n)
  | some (.output _ h off) => some (sliceB (s.bufBytes h (off + n)) off n)
  | none => none

/-- Write bytes; `none` is MEM_FAULT. Scratch and output slots alone may be written. -/
def kwWrite (s : State) (r : TaskRun) (a : Nat) (bs : List Byte) : Option (State × TaskRun) :=
  match r.window a bs.length with
  | some .scratch => some (s, { r with scratch := r.scratch.writeBytes a bs })
  | some (.output _ h off) => some (s.bufWrite h off bs, r)
  | _ => none

end Sys2Proof.Machine

namespace Sys2Proof
open Machine

/-- Format M: the address accessed, and the base register's new value where P is 1 (R333). -/
def MArgs.addr (x : MArgs) (r : TaskRun) : Nat :=
  if x.post then (r.rg x.a).toNat else (r.rg x.a + x.imm.signExtend 32).toNat
def MArgs.bump (x : MArgs) (r : TaskRun) : TaskRun :=
  if x.post then r.setG x.a (r.rg x.a + x.imm.signExtend 32) else r

end Sys2Proof
end

