-- ==== Sys2Proof/Machine/FlowOps.lean ====
section
/-! DEFINITION. Tokens, the matching store, tasks, ordered release and the end of an invocation (R278 to R301),
with Subsystem Local Memory (R274, R277). -/

namespace Sys2Proof.Machine

/-! ## Subsystem Local Memory (R147, R274, R277) -/

def mrsKey (inst rsid : Nat) : Nat := inst * 2 ^ 16 + rsid
def slmAddr (inst rsid off : Nat) : Nat := mrsKey inst rsid * 2 ^ 40 + off
def progKey (inst ix : Nat) : Nat := 16 * inst + ix
/-- Bytes of an instance's memory in use: range sets, images, and four copies of each activated program. -/
def State.slmUsed (s : State) (i : Nat) : Nat :=
  (s.prog.mrs.foldl (fun n e => if e.1 / 2 ^ 16 = i then n + e.2 else n) 0)
    + s.prog.progs.foldl (fun n e =>
        if e.1 / 16 = i then
          n + e.2.image.len + (if e.2.active ∨ e.2.ending then 4 * (e.2.image.code.length + e.2.image.rodata.length) else 0)
        else n) 0
def State.slmLimit (s : State) (i : Nat) : Nat := 2 ^ 24 * s.share i
/-- The instance's free memory is too small for `n` bytes more. -/
def State.slmLacks (s : State) (i n : Nat) : Bool := s.slmLimit i < s.slmUsed i + n
def State.slmRead (s : State) (i rsid off n : Nat) : List Byte := s.prog.slm.readBytes (slmAddr i rsid off) n
def State.slmWrite (s : State) (i rsid off : Nat) (l : List Byte) : State :=
  s.modProg fun p => { p with slm := p.slm.writeBytes (slmAddr i rsid off) l }

/-! ## Flows and dispatchers -/

def State.flow? (s : State) (f : Nat) : Option Flow := KV.get? s.prog.flows f
def State.modFlow (s : State) (f : Nat) (g : Flow → Flow) : State :=
  s.modProg fun p => { p with flows := KV.adjust p.flows f g }
def State.disp (s : State) (q : Nat) : DispS := KV.getD .init s.prog.disp q
def State.modDisp (s : State) (q : Nat) (g : DispS → DispS) : State :=
  s.modProg fun p => { p with disp := KV.modify .init p.disp q g }
def flowHome (f : Nat) : Nat := f / 4096
def State.progOf (s : State) (f : Flow) : Option Prog := KV.get? s.prog.progs (progKey f.inst f.prog)
def State.nodeOf (s : State) (f : Flow) (n : Nat) : Option Node := (s.progOf f).bind fun p => p.image.nodes[n]?
def portRelease : Nat := 0x3FE
def portError : Nat := 0x3FF
def tokenKey (flow seq port : Nat) : Nat := flow * 2 ^ 50 + seq * 2 ^ 10 + port
def keyFlow (k : Nat) : Nat := k / 2 ^ 50
def keySeq (k : Nat) : Nat := k / 2 ^ 10 % 2 ^ 40

/-- The 32 bytes of a token (R289). -/
def tokenBytes (t : Token) : List Byte :=
  leBytes 8 (tokenKey t.flow t.seq t.port) ++ [BitVec.ofNat 8 t.kind,
    BitVec.ofNat 8 (t.buf.toNat + 2 * t.last.toNat + 4 * t.attempt), BitVec.ofNat 8 t.inst, BitVec.ofNat 8 t.node]
    ++ leBytes 2 t.gen ++ leBytes 2 t.err ++ leBytes 8 t.value.toNat ++ leBytes 8 t.aux.toNat

/-- A token of a flow, sent by a node or by the module. -/
def Flow.token (f : Flow) (flow seq port kind : Nat) : Token :=
  { flow := flow, seq := seq, port := port, kind := kind, buf := false, last := seq + 1 = f.count, attempt := 0, inst := f.inst,
    node := 0xFF, gen := f.gen, err := 0, value := 0, aux := 0 }
def State.sendToken (s : State) (t : Token) : State := s.modProg fun p => { p with flight := p.flight ++ [t] }

/-- An ERROR token to the flow's queue, and a VOID result (R291, R300). -/
def State.failSeq (s : State) (f : Flow) (flow seq node err value : Nat) : State :=
  let s := s.sendToken { f.token flow seq portError 4 with node := node, err := err, value := BitVec.ofNat 64 value }
  s.sendToken { f.token flow seq portRelease 3 with node := node }

/-! ## Matching store (R290 to R292) -/

def DispS.used (d : DispS) : Nat := d.entries.length + d.tombs.length
def DispS.heldBy (d : DispS) (i : Nat) : Nat :=
  (d.entries.filter fun e => e.2.tok.inst = i).length + (d.tombs.filter fun e => e.2 = i).length
/-- The instance's flow that was opened first. -/
def State.oldestFlow (s : State) (i : Nat) : Option Nat :=
  (s.prog.flows.foldl (fun (r : Option (Nat × Nat)) e =>
    if e.2.inst ≠ i then r
    else match r with
      | some (o, _) => if e.2.opened < o then some (e.2.opened, e.1) else r
      | none => some (e.2.opened, e.1)) none).map (·.2)
/-- A token of the sequence that its instance's oldest flow releases next. -/
def State.isHead (s : State) (t : Token) : Bool :=
  s.oldestFlow t.inst = some t.flow && match s.flow? t.flow with | some f => f.base = t.seq | none => false
/-- Entries that a quadrant keeps back for the heads of all instances. -/
def State.headReserve (s : State) (d : DispS) : Nat :=
  s.enabledList.foldl (fun n i => n + min 128 (16 * s.share i - d.heldBy i)) 0
/-- Whether a token is granted an entry, and whether from the reserve. -/
def State.grantEntry (s : State) (q : Nat) (t : Token) : Bool × Bool :=
  let d := s.disp q
  let open_ := d.used + s.headReserve d < 65536
  (open_ || (s.isHead t && d.used < 65536), ! open_)

/-- Drop the reference that an entry holds. -/
def State.freeEntry (s : State) (q key : Nat) : State :=
  match KV.get? (s.disp q).entries key with
  | none => s
  | some e => (s.modDisp q fun d => { d with entries := KV.del d.entries key }).dropToken e.tok

/-- The quadrant where a token to a port goes: the flow's home for RELEASE, ERROR and HOME nodes. -/
def State.tokenQuad (s : State) (f : Flow) (flow port here : Nat) : Nat :=
  if 0x3FD ≤ port then flowHome flow
  else match s.nodeOf f (port / 4) with
    | some n => if n.home then flowHome flow else here
    | none => here

/-- The entries of a node's used inputs, in input order. -/
def State.inputsOf (s : State) (q flow seq node inputs : Nat) : List (Option Entry) :=
  (List.range inputs).map fun k => KV.get? (s.disp q).entries (tokenKey flow seq (4 * node + k))
def State.setFired (s : State) (q flow seq node inputs : Nat) : State :=
  (List.range inputs).foldl (fun s k => s.modDisp q fun d =>
    { d with entries := KV.adjust d.entries (tokenKey flow seq (4 * node + k)) fun e => { e with fired := true } }) s
/-- The references of a node's inputs are dropped; the entries stay (R281, R314). -/
def State.dropInputs (s : State) (q flow seq node inputs : Nat) : State :=
  (List.range inputs).foldl (fun s k =>
    let key := tokenKey flow seq (4 * node + k)
    match KV.get? (s.disp q).entries key with
    | none => s
    | some e =>
      (s.modDisp q fun d => { d with entries := KV.adjust d.entries key fun e => { e with tok := { e.tok with buf := false } } }).dropToken e.tok) s

/-! ## Engine items (R293, R388) -/

/-- The first key after `last` in a rising list, or else the first. -/
def nextRound (last : Nat) (l : List Nat) : Option Nat :=
  match l.find? (last < ·) with | some k => some k | none => l.head?
/-- The next instance of a deficit round robin: the present one while it has credit, or the next in turn, each visit
adding its quantum. `n` bounds the visits. -/
def Drr.pick (quantum : Nat → Nat) (backlog : List Nat) : Nat → Drr → Option (Nat × Drr)
  | 0, _ => none
  | n + 1, d =>
    if backlog.contains d.last ∧ 0 < KV.getD 0 d.credit d.last then some (d.last, d)
    else match nextRound d.last backlog with
      | none => none
      | some i => Drr.pick quantum backlog n { credit := KV.modify 0 d.credit i (· + (quantum i : Int)), last := i }
/-- Visits that always find an instance with credit. -/
def Drr.fuel (d : Drr) (backlog : List Nat) : Nat :=
  (backlog.length + 1) * (2 + d.credit.foldl (fun m e => max m e.2.natAbs) 0)
/-- Credit is kept only while an instance is backlogged. -/
def Drr.trim (d : Drr) (backlog : List Nat) : Drr := { d with credit := d.credit.filter fun e => backlog.contains e.1 || e.2 < 0 }

/-- The engine units of a node kind. -/
def engKind : Nat → EngineKind
  | 1 => .scan | 2 => .decompressor | 3 => .compressor | _ => .digest
/-- The units that serve a quadrant's items: its own, or its partner's where it has none left (R390). -/
def State.engUnits (s : State) (q : Nat) (k : EngineKind) : List Nat :=
  match s.fence.unitsUp q k with
  | [] => s.fence.unitsUp (Quad.ofIx q).partner.ix k
  | l => l
/-- The input token of an engine item. -/
def State.itemToken (s : State) (q : Nat) (t : Task) : Option Token :=
  (KV.get? (s.disp q).entries (tokenKey t.flow t.seq (4 * t.node))).map (·.tok)
/-- Bytes of an engine item's input. -/
def State.itemBytes (s : State) (q : Nat) (t : Task) : Nat :=
  match s.itemToken q t with
  | some k => if k.buf then k.aux.toNat % 2 ^ 32 else 16
  | none => 0
/-- Put the first item that `p` picks on a unit. -/
def DispS.onUnit (d : DispS) (e : EngItem) (u : Nat) : DispS :=
  { d with engine := d.engine.map fun x => if x = e then { x with unit := some u, suspended := false } else x }
/-- Idle units take items: a suspended one first, then by deficit round robin over input bytes with a quantum of
16 × share. `n` bounds the items taken. Digest items take contexts instead. -/
def State.engStart (s : State) (q kind : Nat) : Nat → State
  | 0 => s
  | n + 1 =>
    let d := s.disp q
    let busy := d.engine.filterMap fun e => if e.kind = kind then e.unit else none
    match (s.engUnits q (engKind kind)).find? fun u => ! busy.contains u with
    | none => s
    | some u =>
      let mine := d.engine.filter fun e => e.kind = kind ∧ e.unit.isNone
      match mine.find? (·.suspended) with
      | some e => (s.modDisp q (·.onUnit e u)).engStart q kind n
      | none =>
        let backlog := (mine.map (·.task.inst)).foldr insNat []
        let drr := KV.getD .init d.eng kind
        match Drr.pick (fun i => 16 * s.share i) backlog (drr.fuel backlog) (drr.trim backlog) with
        | none => s
        | some (i, drr) =>
          match mine.find? fun e => e.task.inst = i with
          | none => s
          | some e =>
            let cost := s.itemBytes q e.task
            let drr := { drr with credit := KV.modify 0 drr.credit i (· - cost) }
            (s.modDisp q fun d => { d.onUnit e u with eng := KV.put d.eng kind drr }).engStart q kind n
/-- A free context for an instance: the lowest of the 16, at most two for one instance (R395). -/
def DigS.freeCtx (d : DigS) (i : Nat) : Option Nat :=
  if 2 ≤ (d.ctxs.filter fun c => c.2.inst = i).length then none
  else (List.range 16).find? fun k => (KV.get? d.ctxs k).isNone
/-- The idle units of a quadrant's digest engine take contexts with input pending, oldest first. -/
def State.digUnits (s : State) (q : Nat) : State :=
  let d := KV.getD .init s.dig q
  let idle := (s.engUnits q .digest).filter fun u => (KV.get? d.onUnit u).isNone
  let ready := d.ctxs.filter fun c => (! c.2.direct || d.req.any (·.due.isNone)) && ! d.onUnit.any fun u => u.2 = c.1
  let ready := ready.mergeSort fun a b => a.2.since ≤ b.2.since
  s.modDig fun m => KV.put m q { d with onUnit := (List.zip idle (ready.map Prod.fst)).foldl (fun l e => KV.put l e.1 e.2) d.onUnit }
/-- An engine task leaves its queue, and the reference on its input is dropped. -/
def State.endItem (s : State) (q : Nat) (t : Task) : State :=
  (s.modDisp q fun d => { d with engine := d.engine.filter fun e => e.task ≠ t }).dropInputs q t.flow t.seq t.node 1
/-- An engine task fails on its data (R300). -/
def State.failItem (s : State) (q : Nat) (t : Task) (err : Nat) : State :=
  let s := s.endItem q t
  match s.flow? t.flow with
  | none => s
  | some f => s.failSeq f t.flow t.seq t.node err 0

/-- A slot may be used by an instance: its type, its PERM bit, its owner (R405). -/
def KeySlot.usable (k : KeySlot) (type perm inst : Nat) : Bool :=
  k.type = type && k.perm.testBit perm && (k.scopeAll || k.owner = inst)
def State.keySlot (s : State) (k : Nat) : KeySlot := KV.getD .empty s.sec.keys k

/-- Bytes that a node's input token names (R355, R398). -/
def State.tokenData (s : State) (t : Token) : List Byte :=
  if t.buf then s.bufBytes (t.value.toNat % 2 ^ 41) (t.aux.toNat % 2 ^ 32)
  else leBytes 8 t.value.toNat ++ leBytes 8 t.aux.toNat

def State.modDigQ (s : State) (q : Nat) (f : DigS → DigS) : State := s.modDig fun m => KV.modify .init m q f
def State.digQ (s : State) (q : Nat) : DigS := KV.getD .init s.dig q
/-- The wait-list entry that stands for the direct request. -/
def digDirect : Nat × Nat × Nat × Nat := (0, 2 ^ 14, 0, 0)
/-- A task item of a digest engine takes a context and starts: its key is taken now (R398, R402). -/
def State.digTake (s : State) (q c : Nat) (w : Nat × Nat × Nat × Nat) : State :=
  match (s.disp q).engine.find? fun e => e.kind = 4 && e.task.flow = w.2.1 && e.task.seq = w.2.2.1 && e.task.node = w.2.2.2 with
  | none => s
  | some e =>
    match (s.flow? e.task.flow).bind fun f => s.nodeOf f e.task.node, s.itemToken q e.task with
    | some n, some tok =>
      let hmac := n.entry.testBit 4
      let k := s.keySlot (bitsOf n.entry 17 8)
      if hmac ∧ ! k.usable 1 0 w.1 then s.failItem q e.task 0x0286
      else
        let x : DigCtx :=
          { inst := w.1, direct := false, alg := n.entry % 16, hmac := hmac, key := if hmac then k.key else [],
            msg := s.tokenData tok, flow := w.2.1, seq := w.2.2.1, node := w.2.2.2, since := s.now }
        s.modDigQ q fun d => { d with ctxs := KV.put d.ctxs c x }
    | _, _ => s
/-- Waiting items take free contexts in their order, up to a direct request that could take one. -/
def State.digServe (s : State) (q : Nat) : Nat → State
  | 0 => s
  | n + 1 =>
    let d := s.digQ q
    match d.waits.find? fun w => (d.freeCtx w.1).isSome with
    | none => s.digUnits q
    | some w =>
      if w = digDirect then s.digUnits q
      else match d.freeCtx w.1 with
        | none => s
        | some c => ((s.modDigQ q fun d => { d with waits := d.waits.erase w }).digTake q c w).digServe q n

/-- Items of a kind that wait go on where a unit, or a context, is free. -/
def State.engRun (s : State) (q kind : Nat) : State :=
  if kind = 4 then s.digServe q ((s.digQ q).waits.length + 1) else s.engStart q kind 16
/-- An engine task joins its queue. -/
def State.engAdd (s : State) (q kind : Nat) (t : Task) (first : Bool) : State :=
  let e : EngItem := ⟨kind, t, none, false, 0⟩
  let s := s.modDisp q fun d => { d with engine := if first then e :: d.engine else d.engine ++ [e] }
  let w := (t.inst, t.flow, t.seq, t.node)
  let s := if kind = 4 then s.modDigQ q fun d => { d with waits := if first then w :: d.waits else d.waits ++ [w] } else s
  s.engRun q kind

/-- Tasks that wait at a priority. -/
def DispS.readyAt (d : DispS) (prio : Nat) : List Task := d.ready.filter fun t => t.prio = prio

/-- A node fires once all its inputs are stored (R280): VOID passes through, anything else makes a task. A full ready
list holds it back. -/
def State.fire (s : State) (q flow seq node : Nat) : State :=
  match s.flow? flow with
  | none => s
  | some f =>
    match s.nodeOf f node with
    | none => s
    | some n =>
      let ins := s.inputsOf q flow seq node n.inputs
      if ins.any (fun e => match e with | none => true | some e => e.fired) then s
      else
        let toks := ins.filterMap id
        if toks.any fun e => e.tok.kind = 3 then
          let s := (s.setFired q flow seq node n.inputs).dropInputs q flow seq node n.inputs
          (n.arcs.take n.outputs).foldl (fun s p => s.sendToken { f.token flow seq p 3 with node := node }) s
        else if n.kind = 0 ∧ 16384 ≤ ((s.disp q).readyAt n.prio).length then s
        else
          let t : Task :=
            { flow := flow, seq := seq, node := node, inst := f.inst, prog := f.prog, prio := n.prio,
              attempt := toks.foldl (fun a e => max a e.tok.attempt) 0, expiries := 0 }
          let s := (s.setFired q flow seq node n.inputs).bump (Pg.TSK q) Fd.TSK_CNT_COUNT 0
          if n.kind = 0 then s.modDisp q fun d => { d with ready := d.ready ++ [t] }
          else s.engAdd q n.kind t false

/-- A token arrives at an input port. -/
def State.storeToken (s : State) (q : Nat) (t : Token) : State :=
  match s.flow? t.flow with
  | none => s.dropToken t
  | some f =>
    let d := s.disp q
    let key := tokenKey t.flow t.seq t.port
    if t.gen ≠ s.gen t.inst then s.dropToken t
    else if (KV.get? d.entries key).isSome ∨ t.seq < f.base ∨ (KV.get? d.tombs (tokenKey t.flow t.seq (t.port / 4 * 4))).isSome then
      (s.bump (Pg.TSK q) Fd.TSK_CNT_COUNT 4).dropToken t
    else
      let (ok, res) := s.grantEntry q t
      if ! ok then (s.modDisp q fun d => { d with held := d.held ++ [t] }).bump (Pg.TSK q) Fd.TSK_CNT_COUNT 7
      else
        let s := s.modDisp q fun d => { d with entries := KV.put d.entries key ⟨t, false, s.now⟩ }
        let s := if res then s.setEv (Pg.TSK q) 12 else s
        s.fire q t.flow t.seq (t.port / 4)

/-- Nodes held back by a full ready list fire when one has room. -/
def State.retryFire (s : State) (q : Nat) : State :=
  let l := ((s.disp q).entries.filter fun e => ! e.2.fired).map fun e => (keyFlow e.1, keySeq e.1, e.1 % 1024 / 4)
  l.eraseDups.foldl (fun s e => s.fire q e.1 e.2.1 e.2.2) s

/-! ## Freeing the sequence's entries, and the whole flow -/

/-- The retire message of a released sequence (R290). -/
def State.retireSeq (s : State) (q flow seq : Nat) : State :=
  let d := s.disp q
  let keys := (d.entries.filter fun e => keyFlow e.1 = flow ∧ keySeq e.1 = seq).map Prod.fst
  let s := keys.foldl (fun s k => s.freeEntry q k) s
  s.modDisp q fun d => { d with tombs := d.tombs.filter fun e => ! (keyFlow e.1 = flow ∧ keySeq e.1 = seq) }

/-- Buffers that a running task allocated and still holds. -/
def TaskRun.owned (r : TaskRun) : List Nat := ((r.slots.filter fun e => e.2.live).map fun e => e.2.handle) ++ r.decs
/-- A task's core is free: the core time is charged to its instance, and a core wanted for a test is held. -/
def State.idleCore (s : State) (c : Nat) (r : TaskRun) : State :=
  let us := (s.now - r.started - r.stalled) / 1000
  let s := s.modDisp (c / 64) fun d => { d with cores := { d.cores with credit := KV.modify 0 d.cores.credit r.task.inst fun x => x - us } }
  s.modKw fun k => { k with cores := KV.adjust k.cores c fun x => { x with run := none, testing := x.testing || x.testWanted, testWanted := false } }
/-- A task leaves its core with its allocations freed and everything it held back discarded (R314, R344). -/
def State.dropTask (s : State) (c : Nat) : State :=
  match (KV.getD .init s.kw.cores c).run with
  | none => s
  | some r =>
    let s := r.owned.foldl (fun s h => s.decRef h) s
    let s := s.modPool (c / 64) fun p => { p with waits := p.waits.filter fun w => match w.who with | .task k _ => k ≠ c | _ => true }
    s.idleCore c r

/-- Everything of a flow in the quadrants is discarded (R132, R135, R156). -/
def State.discardFlow (s : State) (flow : Nat) : State :=
  let s := (s.prog.flight.filter fun t => t.flow = flow).foldl (fun s t => s.dropToken t) s
  let s := s.modProg fun p => { p with flight := p.flight.filter fun t => t.flow ≠ flow }
  let s := (s.kw.cores.filter fun c => match c.2.run with | some r => r.task.flow = flow | none => false).foldl
    (fun s c => s.dropTask c.1) s
  let s := (List.range 4).foldl (fun s q =>
    let d := s.disp q
    let s := (d.held.filter fun t => t.flow = flow).foldl (fun s t => s.dropToken t) s
    let s := ((d.entries.filter fun e => keyFlow e.1 = flow).map Prod.fst).foldl (fun s k => s.freeEntry q k) s
    s.modDisp q fun d =>
      { d with
        tombs := d.tombs.filter fun e => keyFlow e.1 ≠ flow
        held := d.held.filter fun t => t.flow ≠ flow
        ready := d.ready.filter fun t => t.flow ≠ flow
        engine := d.engine.filter fun t => t.task.flow ≠ flow }) s
  let s := s.media.reads.foldl (fun s r => match r.2.who with | .scan f _ h => if f = flow then s.decRef h else s | _ => s) s
  let s := s.modMedia fun m => { m with reads := m.reads.filter fun r => match r.2.who with | .scan f _ _ => f ≠ flow | _ => true }
  let s := (List.range 4).foldl (fun s q => s.modPool q fun p =>
    { p with waits := p.waits.filter fun w => match w.who with | .scan f _ => f ≠ flow | .engine _ f _ _ => f ≠ flow | _ => true }) s
  let s := s.modDig fun d => d.map fun e =>
    (e.1, { e.2 with
      waits := e.2.waits.filter fun w => w.2.1 ≠ flow
      ctxs := e.2.ctxs.filter fun c => c.2.direct || c.2.flow ≠ flow
      onUnit := e.2.onUnit.filter fun u => match KV.get? e.2.ctxs u.2 with | some c => c.direct || c.flow ≠ flow | none => false })
  (List.range 4).foldl (fun s q => [1, 2, 3, 4].foldl (fun s k => s.engRun q k) s) s

/-- The results in the window are dropped, and the flow is free. -/
def State.freeFlow (s : State) (flow : Nat) : State :=
  match s.flow? flow with
  | none => s
  | some f =>
    let s := f.window.foldl (fun s e => s.dropToken e.2) (s.discardFlow flow)
    let s := s.modProg fun p => { p with flows := KV.del p.flows flow }
    match KV.get? s.prog.progs (progKey f.inst f.prog) with
    | some p =>
      if p.ending ∧ ! s.prog.flows.any (fun e => e.2.inst = f.inst && e.2.prog = f.prog) then
        let s := s.modProg fun k => { k with progs := KV.put k.progs (progKey f.inst f.prog) { p with active := false, ending := false } }
        s.modMat fun m => { m with quads := m.quads.map fun e =>
          (e.1, { e.2 with sections := e.2.sections.filter fun x => x.1 / 4 ≠ progKey f.inst f.prog }) }
      else s
    | none => s

/-! ## Output (R287, R295, R296) -/

/-- A record: header and payload. -/
def outRecord (seq kind : Nat) (payload : List Byte) : List Byte :=
  leBytes 5 seq ++ [BitVec.ofNat 8 kind, 0, 0] ++ leBytes 4 payload.length ++ leBytes 4 (crc32c payload)
    ++ sliceB payload 0 (cdiv payload.length 16 * 16)
/-- The payload of a result. -/
def State.payload (s : State) (t : Token) : List Byte :=
  if t.kind ≠ 2 then []
  else if t.buf then s.bufBytes (t.value.toNat % 2 ^ 41) (t.aux.toNat % 2 ^ 32)
  else leBytes 8 t.value.toNat ++ leBytes 8 t.aux.toNat
/-- Bytes that the output holds, in all. -/
def State.outSpace (s : State) (f : Flow) : Nat :=
  match f.d.outKind.toNat with
  | 0 => match s.ctx? f.ctx with
    | some x => match x.op with | .executeProgram _ _ _ b => b | _ => 0
    | none => 0
  | 1 => f.d.outLen * 4096
  | _ => f.d.outLen

/-- Put bytes into the output: to the host, into the range set, or into the open segment. -/
def State.putOutput (s : State) (flow : Nat) (f : Flow) (l : List Byte) : State :=
  let s := match f.d.outKind.toNat with
    | 0 => s.dataCtx f.ctx l
    | 1 => s.modFlow flow fun f => { f with seg := f.seg ++ l, segAt := some (f.segAt.getD s.now) }
    | _ => s.slmWrite f.inst f.d.outMrs.toNat (f.d.outStart + f.outUsed) l
  s.modFlow flow fun f => { f with outUsed := f.outUsed + l.length }

/-- Write part of a grain for the module itself: the rest is merged in at once. -/
def State.mergeOwn (s : State) (n : NsS) (id : Nat) : State :=
  match KV.get? s.media.versions id with
  | none => s
  | some v =>
    if v.whole then s
    else
      let old := (s.committedBytes n v.nsx v.grain).getD n.zeroGrain
      s.modVersion id fun v => { v with data := putB old ((v.first - v.grain * n.grain) * n.sector) v.data, whole := true }

/-- Write an output segment as a write of stream S6: the versions that the window test leaves unacknowledged, or
none where the write pools have no room. -/
def State.writeSegment (s : State) (nsx : Nat) (n : NsS) (slba : Nat) (bytes : List Byte) : List Nat × State :=
  let nlb := cdiv bytes.length 4096
  let data := ((pieces 4096 nlb bytes).map fun p => n.withPi (sliceB p 0 n.sector) 0 0).flatten
  let first := s.media.nextVersion
  match s.landRange 0 nsx n slba nlb data with
  | none => ([], s.setErr (Pg.BUF (s.home nsx (slba / n.grain))) 0x0102 0)
  | some s =>
    let ids := (List.range (s.media.nextVersion - first)).map (first + ·)
    let s := ids.foldl (fun s v => (s.mergeOwn n v).commitVersion v 6) s
    let l := s.media.versions.filter fun e => ids.contains e.1
    let g := l.foldl (fun k e => k + s.verBytes e.2) 0
    if (l.all fun e => e.2.mirrOk) ∧ s.windowPasses g then ([], ids.foldl (fun s v => s.ackVersion v) s)
    else (ids, ids.foldl (fun s v => s.modVersion v fun v => { v with waitSlc := true }) s)

/-- Close the open segment: its first `n` bytes are written, padded to a 4,096-byte boundary. -/
def State.closeSegment (s : State) (flow : Nat) (n : Nat) : State :=
  match s.flow? flow with
  | none => s
  | some f =>
    if f.seg.isEmpty then s
    else
      match s.nsOf f.inst f.d.outNsid with
      | none => s
      | some (nsx, ns) =>
        let start := f.d.outStart + (f.outUsed - f.seg.length) / 4096
        let body := f.seg.take n
        let padded := cdiv body.length 4096 * 4096
        let pad := padded - body.length
        let body := if pad = 0 then body else sliceB (body ++ outRecord 0 0 []) 0 padded
        let rest := f.seg.drop n
        let (ids, s) := s.writeSegment nsx ns start body
        s.modFlow flow fun f =>
          { f with
            seg := rest, segAt := if rest.isEmpty then none else some s.now, outUsed := f.outUsed + pad
            segWait := f.segWait ++ [(ids, f.placed)] }

/-- Report an end: NEXT and the flags of R287. -/
def Flow.dw1 (f : Flow) (full : Bool) : Nat :=
  f.base / 2 ^ 32 % 256 + 256 * full.toNat + min f.errors 0xFFFF * 65536
/-- An invocation's command completes, and its flow is free. -/
def State.completeFlow (s : State) (flow : Nat) (st : Status) (full : Bool) : State :=
  match s.flow? flow with
  | none => s
  | some f => (s.freeFlow flow).finish f.ctx st (f.base % 2 ^ 32) (f.dw1 full)

/-- Release the sequences of a flow up to `n`: BASE and the counters. -/
def State.advanceBase (s : State) (flow n : Nat) : State :=
  match s.flow? flow with
  | none => s
  | some f =>
    let q := flowHome flow
    let k := n - f.base
    let s := s.bumpBy (Pg.TSK q) Fd.TSK_CNT_COUNT 6 k
    let since := f.since + k
    let now_ := s.cfg (Pg.TSK q) Fd.TSK_BASE_BCAST_RELEASES ≤ since
    s.modFlow flow fun f =>
      { f with
        base := n
        sent := f.sent.filter fun e => n ≤ e.1
        since := if now_ then 0 else since
        known := if now_ then [n, n, n, n] else f.known }

/-- Segments acknowledged in order: their sequences are released; an ending flow completes after the last (R296). -/
def State.segAcks (s : State) (flow : Nat) : Nat → State
  | 0 => s
  | fuel + 1 =>
    match s.flow? flow with
    | none => s
    | some f =>
      match f.segWait with
      | [] =>
        match f.endWith with
        | some (st, full) => if f.seg.isEmpty then s.completeFlow flow (if st = 0 then St.ok else St.ofErr st) full else s
        | none => s
      | (ids, n) :: rest =>
        let left := ids.filter fun v => match KV.get? s.media.versions v with | some w => ! w.acked | none => false
        if left.isEmpty then
          (s.modFlow flow fun f => { f with segWait := rest }).advanceBase flow n |>.segAcks flow fuel
        else s.modFlow flow fun f => { f with segWait := (left, n) :: rest }
def State.allSegAcks (s : State) : State :=
  s.prog.flows.foldl (fun s e => if e.2.segWait.isEmpty then s else s.segAcks e.1 4096) s

/-- End an invocation with the END record in its output: at once, or for a namespace once its segments are
released. `err`: ERR of the status, 0 for success. -/
def State.endFlow (s : State) (flow err : Nat) (full : Bool) : State :=
  match s.flow? flow with
  | none => s
  | some f =>
    let s := s.putOutput flow f (outRecord f.placed 0x0F [])
    if f.d.outKind.toNat = 1 then
      let s := (s.closeSegment flow (2 ^ 30)).modFlow flow fun f => { f with endWith := some (err, full) }
      s.segAcks flow 4096
    else s.completeFlow flow (if err = 0 then St.ok else St.ofErr err) full

/-- Place results in sequence order while the output takes them (R294). -/
def State.releaseLoop (s : State) (flow : Nat) : Nat → State
  | 0 => s
  | fuel + 1 =>
    match s.flow? flow with
    | none => s
    | some f =>
      if f.endWith.isSome then s
      else if f.placed = f.count then s.endFlow flow 0 false
      else
        match KV.get? f.window f.placed with
        | none => s
        | some t =>
          let p := s.payload t
          let rec_ := if p.isEmpty ∧ ! f.d.emitAll then [] else outRecord t.seq (if t.kind = 3 then 3 else 2) p
          if s.outSpace f < f.outUsed + rec_.length + 16 then s.endFlow flow 0 true
          else if f.d.outKind.toNat = 1 ∧ s.media.capExceeded then
            let s := s.modFlow flow fun f => { f with endWith := some (0x0081, false), seg := [] }
            s.segAcks flow 4096
          else
            let s := if rec_.isEmpty then s else s.putOutput flow f rec_
            let s := s.modFlow flow fun f => { f with placed := f.placed + 1, window := KV.del f.window f.placed }
            let s := if t.kind = 3 then s.bump (Pg.TSK (flowHome flow)) Fd.TSK_CNT_COUNT 3 else s
            let s := s.dropToken t
            let s :=
              if f.d.outKind.toNat = 1 then
                match s.flow? flow with
                | some f => if 2 ^ 20 ≤ f.seg.length then s.closeSegment flow (2 ^ 20) else
                    if f.seg.isEmpty ∧ f.segWait.isEmpty then s.advanceBase flow f.placed else s
                | none => s
              else s.advanceBase flow (t.seq + 1)
            s.releaseLoop flow fuel

/-- A result token arrives at the flow's release point. -/
def State.resultIn (s : State) (t : Token) : State :=
  let q := flowHome t.flow
  match s.flow? t.flow with
  | none => s.dropToken t
  | some f =>
    if t.gen ≠ s.gen t.inst then (s.bump (Pg.TSK q) Fd.TSK_CNT_COUNT 5).dropToken t
    else if t.seq < f.placed ∨ f.base + 4096 ≤ t.seq ∨ f.count ≤ t.seq ∨ (KV.get? f.window t.seq).isSome then
      (s.bump (Pg.TSK q) Fd.TSK_CNT_COUNT 4).dropToken t
    else ((s.modFlow t.flow fun f => { f with window := KV.put f.window t.seq t }).releaseLoop t.flow 5000).allSegAcks

/-- An error token arrives at the flow's error queue (R287, R288). -/
def State.errorIn (s : State) (t : Token) : State :=
  match s.flow? t.flow with
  | none => s
  | some f =>
    if t.gen ≠ s.gen t.inst then s
    else
      let s := if f.d.errMrs.toNat ≠ 0xFFFF ∧ f.errUsed + 32 ≤ f.d.errLen then
          s.slmWrite f.inst f.d.errMrs.toNat f.errUsed (tokenBytes t)
        else s
      let s := s.modFlow t.flow fun f =>
        { f with
          errors := f.errors + 1
          firstErr := if f.errors = 0 then t.err else f.firstErr
          errUsed := if f.d.errMrs.toNat ≠ 0xFFFF ∧ f.errUsed + 32 ≤ f.d.errLen then f.errUsed + 32 else f.errUsed }
      if f.d.stopOnError ∧ f.endWith.isNone then
        let e := if f.errors = 0 then t.err else f.firstErr
        (s.logEv (Pg.TSK (flowHome t.flow)) 0x0B05 .info f.inst (leBytes 2 e ++ leBytes 5 f.base)).endFlow t.flow e false
      else s

/-! ## Re-execution (R298 to R300) -/

/-- Queue a task again at the head of its list with ATTEMPT increased, or fail it at the limit. -/
def State.reexec (s : State) (q : Nat) (t : Task) (kind : Nat) : State :=
  let pg := Pg.TSK q
  match s.flow? t.flow with
  | none => s
  | some f =>
    if s.cfg pg Fd.TSK_REEXEC_LIMIT ≤ t.attempt + 1 then
      (s.failSeq f t.flow t.seq t.node 0x0006 0).logEv pg 0x0B01 .degraded t.inst
    else
      let t := { t with attempt := t.attempt + 1 }
      let s := (s.bump pg Fd.TSK_CNT_COUNT 1).setEv pg 11
      let s := if kind = 0 then s.modDisp q fun d => { d with ready := t :: d.ready } else s.engAdd q kind t true
      s.logEv pg 0x0B01 .absorbed t.inst

/-- Replay a sequence after state of it was lost (R301). -/
def State.replaySeq (s : State) (flow seq : Nat) : State :=
  match s.flow? flow with
  | none => s
  | some f =>
    if seq < f.placed then s
    else
      let s := (List.range 4).foldl (fun s q => s.retireSeq q flow seq) s
      let s := match KV.get? f.window seq with | some t => s.dropToken t | none => s
      let s := s.modFlow flow fun f => { f with window := KV.del f.window seq }
      let s := match KV.get? f.sent seq with | some t => s.sendToken t | none => s
      (s.setEv (Pg.TSK (flowHome flow)) 13).logEv (Pg.TSK (flowHome flow)) 0x0B06 .absorbed f.inst

/-! ## Grains read for scans (R285, R286) -/

/-- A scanned grain's bytes go to the source port as a DATA token. -/
def State.scanDeliver (s : State) (flow seq h : Nat) (l : List Byte) : State :=
  match s.flow? flow with
  | none => s.decRef h
  | some f =>
    match s.progOf f with
    | none => s.decRef h
    | some p =>
      (s.bufFill h l).sendToken
        { f.token flow seq p.image.source 2 with buf := true, value := BitVec.ofNat 64 h, aux := BitVec.ofNat 64 l.length }
/-- A read for a scan fails: an ERROR token, and a VOID token to the source port. -/
def State.scanFail (s : State) (flow seq h : Nat) : State :=
  let s := s.decRef h
  match s.flow? flow with
  | none => s
  | some f =>
    let s := s.sendToken { f.token flow seq portError 4 with err := 0x0281 }
    match s.progOf f with
    | none => s
    | some p => s.sendToken (f.token flow seq p.image.source 3)

/-- Read a grain for a scan into its buffer: the version that the READ token's entry names. -/
def State.scanRead (s : State) (flow seq h : Nat) : State :=
  match s.flow? flow with
  | none => s.decRef h
  | some f =>
    match KV.get? f.sent seq, KV.get? s.media.nss f.nsx with
    | some t, some n =>
      let e := t.value.toNat
      let grain := t.aux.toNat % 2 ^ 40
      let media := fun (e : Nat) => s.startRead (.scan flow seq h) f.nsx grain e
      match entState e with
      | 0 => s.scanDeliver flow seq h n.zeroGrain
      | 1 =>
        match s.bufVersion f.nsx grain e with
        | some (_, v) => s.scanDeliver flow seq h v.data
        | none =>
          match s.content f.nsx grain with
          | .unmapped => s.scanDeliver flow seq h n.zeroGrain
          | .bytes l => s.scanDeliver flow seq h l
          | .media e => media e
          | .lost => s.scanFail flow seq h
      | 2 => media e
      | _ => s.scanFail flow seq h
    | _, _ => s.decRef h

end Sys2Proof.Machine
end

