-- ==== Sys2Proof/Machine/ImageOps.lean ====
section
/-! DEFINITION. Program images: the checks of a load (R275, R276, R278, R279, R351, R352, R374, R398, R405), and
automaton memory (R353). -/

namespace Sys2Proof.Machine

def u8 (l : List Byte) (o : Nat) : Nat := (l.getD o 0).toNat
def u16 (l : List Byte) (o : Nat) : Nat := leNat (sliceB l o 2)
def u32 (l : List Byte) (o : Nat) : Nat := leNat (sliceB l o 4)
def u64 (l : List Byte) (o : Nat) : Nat := leNat (sliceB l o 8)
def isZero (l : List Byte) (o n : Nat) : Bool := (sliceB l o n).all (· = 0)
/-- The first offset whose condition fails. -/
def firstBad : List (Nat × Bool) → Option Nat
  | [] => none
  | (o, ok) :: l => if ok then firstBad l else some o

/-! ## Signatures (R405) -/

/-- An image is signed by a program-signing key enabled for the instance (R276 step 1). -/
def State.signedFor (s : State) (inst : Nat) (image : List Byte) : Bool :=
  let n := image.length - 128
  let sig := sliceB image n 128
  128 ≤ image.length && s.sec.keys.any fun e =>
    e.2.usable 4 6 inst && (Config.sha384 e.2.key).take 16 = sig.take 16
      && Config.ecdsaOk e.2.key (Config.sha384 (image.take n)) (sliceB sig 16 96)

/-! ## Sections (R275) -/

/-- A section of an image: type, offset and length. -/
structure Sect where
  type : Nat
  off : Nat
  len : Nat
deriving DecidableEq, Repr

def imageSects (l : List Byte) : List Sect :=
  (List.range (u16 l 0x0C)).map fun k => ⟨u16 l (0x40 + 16 * k), u32 l (0x44 + 16 * k), u32 l (0x48 + 16 * k)⟩
def sectBytes (l : List Byte) (t : Sect) : List Byte := sliceB l t.off t.len

def headerChecks (l : List Byte) : List (Nat × Bool) :=
  let n := u16 l 0x0C
  [(0x00, u32 l 0 = 0x7A4B50E1), (0x04, u16 l 4 = 1), (0x06, u16 l 6 = 0),
   (0x08, u32 l 8 = l.length && l.length % 16 = 0 && 256 ≤ l.length && l.length ≤ 67108864),
   (0x0C, 1 ≤ n && n ≤ 16 && 0x40 + 16 * n + 128 ≤ l.length), (0x0E, u16 l 0x0E = 1), (0x28, isZero l 0x28 24),
   (l.length - 16, isZero l (l.length - 16) 16)]
def sectChecks (l : List Byte) : List (Nat × Bool) :=
  let top := 0x40 + 16 * u16 l 0x0C
  (List.zip (List.range 16) (imageSects l)).flatMap fun (k, t) =>
    let e := 0x40 + 16 * k
    [(e, [1, 2, 3, 4, 0xFF].contains t.type), (e + 2, isZero l (e + 2) 2), (e + 4, t.off % 16 = 0 && decide (top ≤ t.off)),
     (e + 8, decide (t.off + t.len ≤ l.length - 128) && (t.type ≠ 1 || decide (t.len ≤ 2 ^ 20)) && (t.type ≠ 2 || decide (t.len ≤ 2 ^ 24))),
     (e + 12, crc32c (sectBytes l t) = u32 l (e + 12))]

def sectCount (l : List Byte) (type : Nat) : Nat := ((imageSects l).filter fun t => t.type = type).length
/-- One GRAPH, at most one CODE and one RODATA, at most four AUTOMATON sections. -/
def countChecks (l : List Byte) : List (Nat × Bool) :=
  [(0x0C, sectCount l 3 = 1 && sectCount l 1 ≤ 1 && sectCount l 2 ≤ 1 && sectCount l 4 ≤ 4)]

def sectOf (l : List Byte) (type : Nat) : Option Sect := (imageSects l).find? fun t => t.type = type

/-! ## The graph (R278, R279) -/

def parseNode (l : List Byte) (e : Nat) : Node :=
  { kind := u8 l e, home := u8 l (e + 1) = 1, inputs := u8 l (e + 2), prio := u8 l (e + 3), entry := u32 l (e + 4),
    budgetUs := u32 l (e + 8), scratchKib := u16 l (e + 12), outputs := u8 l (e + 14)
    arcs := (List.range 4).map fun k => u32 l (e + 16 + 4 * k) }

/-- The ENTRY of a node is of its kind's form (R352, R374, R398). -/
def Node.entryOk (n : Node) (codeLen autos : Nat) : Bool :=
  let e := n.entry
  match n.kind with
  | 0 => e % 4 = 0 && decide (e < codeLen)
  | 1 => decide (e % 4 < autos) && bitsOf e 3 2 = 0 && decide (bitsOf e 7 4 ≤ 3) && e / 256 = 0
  | 2 => decide (e ≤ 4)
  | 3 =>
    let f := e % 16
    if f = 4 then bitsOf e 7 4 = 0 && e / 2 ^ 11 = 0
    else decide (f ≤ 3) && decide (1 ≤ bitsOf e 7 4) && decide (bitsOf e 7 4 ≤ 9) && e / 2 ^ 8 = 0
  | _ =>
    let hmac := e.testBit 4
    decide (e % 16 ≤ (if hmac then 4 else 6)) && bitsOf e 7 6 = 0 && (hmac || bitsOf e 17 8 = 0) && e / 2 ^ 18 = 0

def Node.out (n : Node) : List Nat := n.arcs.take n.outputs
/-- A port is a used input port of a node. -/
def portUsed (ns : List Node) (p : Nat) : Bool :=
  match ns[p / 4]? with | some n => decide (p % 4 < n.inputs) | none => false

/-- Nodes reached from a set by arcs, in at most `n` rounds. -/
def reachFrom (next : Nat → List Nat) : Nat → List Nat → List Nat
  | 0, l => l
  | n + 1, l => reachFrom next n ((l ++ l.flatMap next).eraseDups)

def nodeChecks (l : List Byte) (g codeLen autos : Nat) (ns : List Node) : List (Nat × Bool) :=
  (List.zip (List.range ns.length) ns).flatMap fun (k, n) =>
    let e := g + 16 + 32 * k
    [(e, decide (n.kind ≤ 4)), (e + 1, decide (u8 l (e + 1) ≤ 1)),
     (e + 2, decide (1 ≤ n.inputs) && decide (n.inputs ≤ (if n.kind = 0 then 4 else 1))), (e + 3, decide (n.prio ≤ 3)),
     (e + 4, n.entryOk codeLen autos),
     (e + 8, if n.kind = 0 then decide (1 ≤ n.budgetUs) && decide (n.budgetUs ≤ 1000000) else n.budgetUs = 0),
     (e + 12, if n.kind = 0 then decide (1 ≤ n.scratchKib) && decide (n.scratchKib ≤ 240) else n.scratchKib = 0),
     (e + 14, decide (n.outputs ≤ (if n.kind = 0 then 4 else 2))), (e + 15, u8 l (e + 15) = 0)]
    ++ (List.zip (List.range n.outputs) n.out).map fun (a, p) => (e + 16 + 4 * a, p = portRelease || portUsed ns p)

/-- The rules of the graph as a whole. -/
def graphRules (g source : Nat) (ns : List Node) : List (Nat × Bool) :=
  let k := ns.length
  let ids := List.range k
  let into := ns.flatMap Node.out
  let succ := fun n => ((ns.getD n ⟨0, false, 0, 0, 0, 0, 0, 0, []⟩).out.filter (· < 0x3FD)).map (· / 4)
  let ends := fun n => (ns.getD n ⟨0, false, 0, 0, 0, 0, 0, 0, []⟩).out.contains portRelease
  let reach := reachFrom succ k [source / 4]
  let homeOf := fun n => (ns.getD n ⟨0, false, 0, 0, 0, 0, 0, 0, []⟩).home
  [(g + 1, source % 4 = 0 && portUsed ns source && ! homeOf (source / 4) && into.count source = 0),
   (g, ids.all fun n => (List.range (ns.getD n ⟨0, false, 0, 0, 0, 0, 0, 0, []⟩).inputs).all fun i =>
      4 * n + i = source || into.count (4 * n + i) = 1),
   (g, ids.all fun n => ! (reachFrom succ k (succ n)).contains n),
   (g, ids.all reach.contains),
   (g, into.count portRelease = 1 && ids.all fun n => (reachFrom succ k [n]).any ends),
   (g, ids.all fun n => ! homeOf n || (succ n).all homeOf)]

/-! ## Automaton sections (R351, R352) -/

/-- Offsets of the tables of an automaton image, each with its size. -/
def autoTables (a : List Byte) : List (Nat × Nat) :=
  [(u32 a 0x20, 256), (u32 a 0x24, 2 * u32 a 0x08 * u16 a 0x0C), (u32 a 0x28, 4 * u32 a 0x08), (u32 a 0x2C, 2 * u32 a 0x18),
   (u32 a 0x30, 4 * u16 a 0x0E), (u32 a 0x34, 48 * u16 a 0x10), (u32 a 0x38, if u16 a 0x10 = 0 then 0 else 8 * 2 ^ u16 a 0x16)]
def autoClass (a : List Byte) (b : Byte) : Nat := u8 a (u32 a 0x20 + b.toNat)
def autoNext (a : List Byte) (st cls : Nat) : Nat := u16 a (u32 a 0x24 + 2 * (st * u16 a 0x0C + cls))
/-- The accept entries of a state: pattern and END_ONLY. -/
def autoAccepts (a : List Byte) (st : Nat) : List (Nat × Bool) :=
  let w := u32 a (u32 a 0x28 + 4 * st)
  (List.range (w / 2 ^ 19)).map fun k =>
    let e := u16 a (u32 a 0x2C + 2 * (w % 2 ^ 19 + k))
    (e % 4096, e.testBit 12)
def autoPattern (a : List Byte) (p : Nat) : Nat := u32 a (u32 a 0x30 + 4 * p)
def autoPrio (a : List Byte) (p : Nat) : Nat := autoPattern a p % 4096
def autoIsLit (a : List Byte) (p : Nat) : Bool := (autoPattern a p).testBit 12
/-- A literal: pattern, length, flags, bytes. -/
structure Literal where
  pattern : Nat
  len : Nat
  flags : Nat
  bytes : List Byte
deriving DecidableEq, Repr
def autoLiteral (a : List Byte) (n : Nat) : Literal :=
  let o := u32 a 0x34 + 48 * n
  ⟨u16 a o, u8 a (o + 2), u8 a (o + 3), sliceB a (o + 8) 32⟩
def Literal.nocase (l : Literal) : Bool := l.flags.testBit 0
def autoBucket (a : List Byte) (k : Nat) : List Nat := (List.range 4).map fun i => u16 a (u32 a 0x38 + 8 * k + 2 * i)
/-- The bucket of four bytes. -/
def litBucket (log2 : Nat) (w : List Byte) : Nat := leNat (sliceB w 0 4) * 0x9E3779B1 % 2 ^ 32 / 2 ^ (32 - log2)
def lowerByte (b : Byte) : Byte := if 0x41 ≤ b.toNat ∧ b.toNat ≤ 0x5A then b + 0x20 else b

/-- Pairs of tables do not overlap. -/
def tablesApart : List (Nat × Nat) → Bool
  | [] => true
  | t :: l => (l.all fun u => t.2 = 0 || u.2 = 0 || decide (t.1 + t.2 ≤ u.1) || decide (u.1 + u.2 ≤ t.1)) && tablesApart l
/-- Descending priority, then ascending index, no pattern twice. -/
def acceptOrder (a : List Byte) : List Nat → Bool
  | p :: q :: l => (decide (autoPrio a q < autoPrio a p) || (autoPrio a p = autoPrio a q && decide (p < q))) && acceptOrder a (q :: l)
  | _ => true

def autoLiteralOk (a : List Byte) (n : Nat) : Bool :=
  let l := autoLiteral a n
  let o := u32 a 0x34 + 48 * n
  decide (l.pattern < u16 a 0x0E) && autoIsLit a l.pattern && decide (4 ≤ l.len) && decide (l.len ≤ 32) && decide (l.flags < 8)
    && isZero a (o + 4) 4 && isZero a (o + 0x28) 8 && (l.bytes.drop l.len).all (· = 0)
    && (! l.nocase || l.bytes.all fun b => lowerByte b = b)
    && (autoBucket a (litBucket (u16 a 0x16) l.bytes)).contains n

/-- The conditions of R352. -/
def autoOk (a : List Byte) : Bool :=
  let states := u32 a 0x08
  let classes := u16 a 0x0C
  let patterns := u16 a 0x0E
  let lits := u16 a 0x10
  let log2 := u16 a 0x16
  decide (64 ≤ a.length) && u32 a 0 = 0xA17C3E02 && u16 a 4 = 1 && u16 a 6 = 0 && decide (1 ≤ states) && decide (states ≤ 65536)
    && decide (1 ≤ classes) && decide (classes ≤ 256) && decide (1 ≤ patterns) && decide (patterns ≤ 4096) && decide (lits ≤ 4096)
    && (if lits = 0 then log2 = 0 else decide (8 ≤ log2) && decide (log2 ≤ 16)) && isZero a 0x1C 4 && isZero a 0x3C 4
    && (autoTables a).all (fun t => t.1 % 64 = 0 && (t.2 = 0 || (decide (64 ≤ t.1) && decide (t.1 + t.2 ≤ a.length))))
    && tablesApart (autoTables a) && decide (states * classes * 2 ≤ 2 ^ 25) && decide (a.length ≤ 48 * 2 ^ 20)
    && decide (u16 a 0x12 < states) && decide (u16 a 0x14 < states)
    && (List.range 256).all (fun b => decide (autoClass a (BitVec.ofNat 8 b) < classes))
    && (List.range (states * classes)).all (fun k => decide (u16 a (u32 a 0x24 + 2 * k) < states))
    && (List.range states).all (fun st =>
      let w := u32 a (u32 a 0x28 + 4 * st)
      let l := (autoAccepts a st).map Prod.fst
      decide (w / 2 ^ 19 ≤ 4096) && decide (w % 2 ^ 19 + w / 2 ^ 19 ≤ u32 a 0x18)
        && (l.all fun p => decide (p < patterns) && ! autoIsLit a p) && acceptOrder a l)
    && (List.range (u32 a 0x18)).all (fun k => u16 a (u32 a 0x2C + 2 * k) / 2 ^ 13 = 0)
    && (List.range patterns).all (fun p => autoPattern a p / 2 ^ 13 = 0
      && (! autoIsLit a p || ((List.range lits).filter fun n => (autoLiteral a n).pattern = p).length = 1))
    && (List.range lits).all (autoLiteralOk a)
    && (lits = 0 || (List.range (2 ^ log2)).all fun k =>
      let l := (autoBucket a k).filter (· ≠ 0xFFFF)
      l.all (fun n => decide (n < lits)) && decide l.Nodup)

/-! ## The whole image -/

def parseImage (l : List Byte) : Image :=
  let g := ((sectOf l 3).map (·.off)).getD 0
  let body := fun t => ((sectOf l t).map (sectBytes l)).getD []
  { len := l.length, progId := sliceB l 0x10 16, source := u8 l (g + 1),
    nodes := (List.range (u8 l g)).map fun k => parseNode l (g + 16 + 32 * k), code := body 1, rodata := body 2,
    automata := ((imageSects l).filter fun t => t.type = 4).map (sectBytes l) }

/-- The GRAPH section's own checks: its size, its header, its nodes, whether CODE is there just when a Kwalia node
is, and its rules. -/
def graphChecks (l : List Byte) : List (Nat × Bool) :=
  let t := (sectOf l 3).getD ⟨3, 0, 0⟩
  let g := t.off
  let im := parseImage l
  let ns := im.nodes
  [(g, decide (1 ≤ ns.length) && decide (ns.length ≤ 32) && decide (16 + 32 * ns.length ≤ t.len)), (g + 2, isZero l (g + 2) 14)]
    ++ nodeChecks l g im.code.length im.automata.length ns
    ++ [(0x0C, decide (sectCount l 1 = 1) == ns.any fun n => n.kind = 0)] ++ graphRules g im.source ns

/-- The first automaton section that fails, by section number in the table. -/
def badAutomaton (l : List Byte) : Option Nat :=
  ((List.zip (List.range 16) (imageSects l)).find? fun e => e.2.type = 4 && ! autoOk (sectBytes l e.2)).map (·.1)

/-- R276: the first failure decides; its status and Command Specific Information. -/
def State.imageCheck (s : State) (inst : Nat) (l : List Byte) : Except (Status × Nat) Image :=
  if ! s.signedFor inst l then .error (St.sigInvalid, 0)
  else match firstBad (headerChecks l) with
    | some o => .error (St.invalidField, o)
    | none => match firstBad (sectChecks l ++ countChecks l) with
      | some o => .error (St.invalidField, o)
      | none => match firstBad (graphChecks l) with
        | some o => .error (St.invalidField, o)
        | none => match badAutomaton l with
          | some k => .error (St.matchInvalid, k)
          | none => .ok (parseImage l)

/-! ## Automaton memory (R353) -/

def autoBlocks (l : List Byte) : Nat := cdiv l.length 65536
/-- Blocks of a quadrant that an instance holds. -/
def MatS.heldBy (m : MatS) (i : Nat) : Nat := m.sections.foldl (fun n e => if e.1 / 64 = i then n + e.2.blocks else n) 0
/-- E(i) of a quadrant with a given AUTO_SPARE. -/
def State.autoE (s : State) (spare i : Nat) : Nat := (8192 - spare) * s.share i / 4096
/-- Blocks held beyond the entitlements. -/
def State.autoBeyond (s : State) (q spare : Nat) : Nat :=
  (List.range 256).foldl (fun n i => n + ((s.mat! q).heldBy i - s.autoE spare i)) 0
/-- A program of `blocks` blocks can be placed in a quadrant. -/
def State.autoFits (s : State) (q i blocks : Nat) : Bool :=
  let spare := s.cfg (Pg.MAT q) Fd.MAT_AUTO_SPARE_BLOCKS
  let held := (s.mat! q).heldBy i
  let e := s.autoE spare i
  let more := (held + blocks - e) - (held - e)
  decide (held + blocks ≤ s.cfg (Pg.MAT q) Fd.MAT_AUTO_LIMIT_BLOCKS) && (more = 0 || decide (s.autoBeyond q spare + more ≤ spare))
/-- Load the automata of a program into every quadrant. -/
def State.loadAutomata (s : State) (i ix : Nat) (im : Image) : State :=
  (List.range 4).foldl (fun s q =>
    (List.zip (List.range 4) im.automata).foldl (fun s a =>
      s.modMatQ q fun m => { m with sections := KV.put m.sections (64 * i + 4 * ix + a.1) ⟨a.2, autoBlocks a.2, false⟩ }) s) s

end Sys2Proof.Machine
end

