-- ==== Sys2Proof/Machine/StartOps.lean ====
section
/-! DEFINITION. What an I/O command does once the arbiter issues it, and once the reads it made have come (R121, R134,
R165 to R169, R190, R204, R274, R277, R282, R364). -/

namespace Sys2Proof

/-- The capsule of a command that takes an I/O context. -/
def Instr.ioCap : Instr → Option Cap
  | .read c .. => some c | .write c .. => some c | .flush c .. => some c | .writeUncorrectable c .. => some c
  | .compare c .. => some c | .writeZeroes c .. => some c | .datasetManagement c .. => some c | .verify c .. => some c
  | .copy c .. => some c | .ioManagementReceive c .. => some c | .ioManagementSend c .. => some c | .store c .. => some c
  | .retrieve c .. => some c | .delete c .. => some c | .exist c .. => some c | .list c .. => some c
  | .loadProgram c .. => some c | .programActivation c .. => some c | .executeProgram c .. => some c
  | .memoryRangeSetManagement c .. => some c | .memoryRead c .. => some c | .memoryWrite c .. => some c
  | .memoryCopy c .. => some c | .memoryFill c .. => some c
  | _ => none

end Sys2Proof

namespace Sys2Proof.Machine

/-! ## Landing the data of a command -/

/-- Where a command writes and what: namespace, first sector, sectors and their stored form. -/
def State.landing (s : State) (x : Ctx) : Option (Nat × NsS × Nat × Nat × List Byte) :=
  match x.op with
  | .write _ r .. => (s.nsOf x.inst r.nsid).map fun (k, n) => (k, n, r.slba, r.nlb, x.got)
  | .writeZeroes _ r _ => (s.nsOf x.inst r.nsid).map fun (k, n) => (k, n, r.slba, r.nlb, (List.replicate r.nlb n.zeroSector).flatten)
  | .copy _ nsid _ src dst => (s.nsOf x.inst nsid).map fun (k, n) => (k, n, dst, src.foldl (fun a e => a + e.2) 0, x.got)
  | .store _ nsid _ _ _ declared _ =>
    (s.nsOf x.inst nsid).map fun (k, n) => (k, n, (x.aux - 1) * n.grain, cdiv declared (n.grain * 4096) * n.grain, x.got)
  | .memoryCopy _ rsid off r _ =>
    (s.nsOf x.inst r.nsid).map fun (k, n) =>
      (k, n, r.slba, r.nlb,
        ((List.zip (List.range r.nlb) (pieces 4096 r.nlb (s.slmRead x.inst rsid.toNat off (4096 * r.nlb)))).map fun p =>
          n.withPi (sliceB p.2 0 n.sector) r.pi.lbat (n.refTag r.pi p.1)).flatten)
  | _ => none

/-- Land it; without room it waits, and is tried again when a buffer frees. -/
def State.landOwn (s : State) (c : Nat) : State :=
  match s.ctx? c with
  | none => s
  | some x =>
    match s.landing x with
    | none => s
    | some (k, n, slba, nlb, data) =>
      let s := s.landCtx c k n slba nlb data
      match x.op with
      | .write .. => s.modMedia fun m => { m with hostBytes := KV.modify 0 m.hostBytes x.inst (· + data.length) }
      | _ => s

/-- A command is ready to land and has not. -/
def Ctx.wantsLanding (x : Ctx) : Bool :=
  ! x.landed && match x.op with
    | .write .. => x.dataAt.isSome
    | .store _ _ _ _ _ d _ => x.dataAt.isSome && d ≠ 0
    | .writeZeroes _ _ d => x.state = .issued && ! d
    | .copy .. => x.state = .issued && x.dataAt.isSome
    | .memoryCopy _ _ _ _ to_ => x.state = .issued && to_
    | _ => false
def State.landWaiting (s : State) : State :=
  s.cmd.ctxs.foldl (fun s e => if e.2.wantsLanding then s.landOwn e.1 else s) s

/-! ## Index operations (R363, R364) -/

/-- The bucket that an index operation looks at next. -/
def Ctx.bucket (x : Ctx) (nsx : Nat) (n : NsS) : Nat :=
  match x.op with
  | .store _ _ key .. => n.bucketOf nsx key
  | .retrieve _ _ key _ => n.bucketOf nsx key
  | .delete _ _ key => n.bucketOf nsx key
  | .exist _ _ key => n.bucketOf nsx key
  | .list _ _ key _ => if x.aux ≠ 0 then x.aux - 1 else if key = [] then 0 else n.bucketOf nsx key
  | _ => 0
def Ctx.kvNsid (x : Ctx) : Nat :=
  match x.op with
  | .store _ n .. => n | .retrieve _ n .. => n | .delete _ n .. => n | .exist _ n .. => n | .list _ n .. => n | _ => 0
def Ctx.isUpdate (x : Ctx) : Bool := match x.op with | .store .. => true | .delete .. => true | _ => false

/-- Ask for a slot; the operation waits first for its bucket's line. -/
def State.wantIndex (s : State) (c : Nat) : State :=
  match s.ctx? c with
  | none => s
  | some x =>
    match s.nsOf x.inst x.kvNsid with
    | none => s.finish c St.invalidNs
    | some (k, n) =>
      let b := x.bucket k n
      let (there, s) := s.lookup k (bucketSeg b) .demand
      if there then s.wantSlot (s.indexQuad k b) c x.isUpdate
      else s.modCtx c fun x => { x with waitSeg := [(k, bucketSeg b * 512, 0)] }

/-- A Store that ends before its update slot frees its allocation (R365). -/
def State.freeOwn (s : State) (c : Nat) : State :=
  match s.ctx? c with
  | none => s
  | some x =>
    match x.op, s.nsOf x.inst x.kvNsid with
    | .store .., some (k, n) =>
      if x.aux = 0 ∨ x.state = .committed then s
      else ((s.freeValue k (x.aux - 1) (x.bucket k n)).modCtx c fun x => { x with aux := 0 }).zapFreed
    | _, _ => s

/-! ## The end of a command's reads -/

/-- Sectors gathered by a Copy, with the reference tags of their new place in types 1 and 2. -/
def State.copyData (s : State) (x : Ctx) (n : NsS) (src : List (Nat × Nat)) (dst : Nat) : List Byte :=
  let _ := s
  let step := fun (r : Nat × List (Bool × List Byte)) (e : Nat × Nat) =>
    (r.1 + (grainsOf n.grain e.1 e.2).length, r.2 ++ x.sectors n e.1 e.2 r.1)
  let l := (src.foldl step (0, [])).2
  ((List.zip (List.range l.length) l).map fun e =>
    if n.piType = 1 ∨ n.piType = 2 then
      n.withPi e.2.2 (beNat (sliceB e.2.2 (4096 + n.piOff + n.guardSize) 2)) ((dst + e.1) % 256 ^ n.refSize)
    else e.2.2).flatten

/-- RELEASE of the segments that a one-time read covers wholly (R204). -/
def State.oneTimeRelease (s : State) (inst nsx S slba nlb : Nat) : State :=
  if s.cfgB Pg.MAPC Fd.MAPC_HINTS_HOST then
    let a := cdiv slba (512 * S)
    let b := (slba + nlb) / (512 * S)
    if a < b then s.hint 2 nsx a (b - a) inst false false else s
  else s

/-- All reads of an issued command have come: what it does with them. -/
def State.partsDone (s : State) (c : Nat) : State :=
  match s.ctx? c with
  | none => s
  | some x =>
    if ! x.readsDone ∨ x.state ≠ .issued then s
    else match x.failed with
    | some st => s.finish c st
    | none =>
      match x.op with
      | .read _ r _ oneTime _ _ =>
        match s.nsOf x.inst r.nsid with
        | none => s.finish c St.invalidNs
        | some (k, n) =>
          match n.hostForm r.pi (x.sectors n r.slba r.nlb 0) with
          | .error st => s.finish c st
          | .ok l =>
            let s := (s.dataCtx c l).finish c St.ok
            if oneTime then s.oneTimeRelease x.inst k n.grain r.slba r.nlb else s
      | .compare _ r _ _ _ =>
        match s.nsOf x.inst r.nsid with
        | none => s.finish c St.invalidNs
        | some (_, n) =>
          match n.hostForm r.pi (x.sectors n r.slba r.nlb 0) with
          | .error st => s.finish c st
          | .ok l => s.finish c (if l = x.got then St.ok else St.compareFailure)
      | .verify _ r _ =>
        match s.nsOf x.inst r.nsid with
        | none => s.finish c St.invalidNs
        | some (_, n) =>
          match n.hostForm r.pi (x.sectors n r.slba r.nlb 0) with
          | .error st => s.finish c st
          | .ok _ => s.finish c St.ok
      | .copy _ nsid _ src dst =>
        match s.nsOf x.inst nsid with
        | none => s.finish c St.invalidNs
        | some (_, n) =>
          if x.dataAt.isSome then s
          else (s.modCtx c fun y => { y with got := s.copyData x n src dst, dataAt := some 0 }).landOwn c
      | .memoryCopy _ rsid off r false =>
        match s.nsOf x.inst r.nsid with
        | none => s.finish c St.invalidNs
        | some (_, n) =>
          match n.hostForm r.pi (x.sectors n r.slba r.nlb 0) with
          | .error st => s.finish c st
          | .ok _ =>
            let l := ((x.sectors n r.slba r.nlb 0).map fun e => sliceB e.2 0 4096).flatten
            (s.slmWrite x.inst rsid.toNat off l).finish c St.ok
      | .retrieve _ nsid _ bufLen =>
        match s.nsOf x.inst nsid with
        | none => s.finish c St.invalidNs
        | some (_, n) =>
          let gs := cdiv x.res (n.grain * 4096)
          let l := ((x.sectors n (x.aux * n.grain) (gs * n.grain) 0).map fun e => sliceB e.2 0 4096).flatten
          ((s.dataCtx c ((l.take x.res).take bufLen)).finish c St.ok x.res).zapFreed
      | _ => s

/-! ## Reclaim unit handles (R190) -/

/-- Sectors left in the open QLC band of a class. -/
def State.ruamw (s : State) (cls : Nat) : Nat :=
  match (s.openBands cls false).head? with
  | none => 524288
  | some b => match KV.get? s.media.bands b with
    | none => 524288
    | some b => b.fill.foldl (fun n u => n + (262144 - u) / 16) 0
/-- Reclaim Unit Handle Status: 16 bytes and 32 for each placement handle. -/
def State.ruhStatus (s : State) (n : NsS) : List Byte :=
  zeros 14 ++ leBytes 2 n.ruhs.length ++ (List.zip (List.range n.ruhs.length) n.ruhs).flatMap fun (p, h) =>
    leBytes 2 p ++ leBytes 2 h ++ leBytes 4 0 ++ leBytes 8 (if n.pendingHandles.contains p then 524288 else s.ruamw h) ++ zeros 16

/-! ## Programs (R274, R277) -/

def progData (im : Image) : List Byte := im.progId
/-- Load Program, its image whole: the check, the quota, the index. -/
def State.loadImage (s : State) (c : Nat) (x : Ctx) (ix : Nat) : State :=
  let refuse := fun (s : State) (st : Status) (o : Nat) =>
    (s.logEv (Pg.TSK 0) 0x0B03 .notice x.inst (leBytes 2 (st.sct * 256 + st.sc) ++ leBytes 4 o)).finish c st 0 0 o
  if (KV.get? s.prog.progs (progKey x.inst ix)).any fun p => p.active || p.ending then refuse s St.progActive 0
  else match s.imageCheck x.inst x.got with
    | .error (st, o) => refuse s st o
    | .ok im =>
      let s' := s.modProg fun p => { p with progs := KV.del p.progs (progKey x.inst ix) }
      if s'.slmLacks x.inst im.len then refuse s St.quota 0
      else
        let s := s'.modProg fun p => { p with progs := KV.put p.progs (progKey x.inst ix) ⟨im, false, false⟩ }
        (s.logEv (Pg.TSK 0) 0x0B02 .info x.inst (progData im)).finish c St.ok

/-- Every clean RODATA line of a program leaves every cluster's L2 (R345). -/
def State.l2DropProg (s : State) (inst ix : Nat) (im : Image) : State :=
  let lines := (List.range (cdiv im.rodata.length 64)).map fun n => Config.dramLine (2 ^ 60 + progKey inst ix * 2 ^ 32 + n)
  let gone := fun (w : Way) => w.valid && ! w.dirty && lines.contains w.seg
  s.modKw fun k => { k with clusters := k.clusters.map fun c =>
    (c.1, { c.2 with sets := c.2.sets.map fun t => (t.1, { t.2 with ways := t.2.ways.map fun w => if gone w then .empty else w }) }) }

/-- Program Activation. -/
def State.activate (s : State) (c : Nat) (x : Ctx) (ix : Nat) (on : Bool) : State :=
  match KV.get? s.prog.progs (progKey x.inst ix) with
  | none => s.finish c St.invalidField
  | some p =>
    let put := fun (s : State) (p : Prog) => s.modProg fun k => { k with progs := KV.put k.progs (progKey x.inst ix) p }
    if on then
      let active := s.prog.progs.filter fun e => e.1 / 16 = x.inst ∧ (e.2.active ∨ e.2.ending)
      let blocks := p.image.automata.foldl (fun n a => n + autoBlocks a) 0
      if p.active then s.finish c St.ok
      else if p.ending then ((put s { p with active := true, ending := false }).l2DropProg x.inst ix p.image).finish c St.ok
      else if 4 ≤ active.length then s.finish c St.invalidField
      else if s.slmLacks x.inst (4 * (p.image.code.length + p.image.rodata.length))
          ∨ ! ((List.range 4).all fun q => s.autoFits q x.inst blocks) then s.finish c St.quota
      else
        let s := ((put s { p with active := true }).loadAutomata x.inst ix p.image).l2DropProg x.inst ix p.image
        (s.logEv (Pg.TSK 0) 0x0B02 .info x.inst (progData p.image)).finish c St.ok
    else if ! p.active then s.finish c St.ok
    else if s.prog.flows.any fun e => e.2.inst = x.inst && e.2.prog = ix then
      (put s { p with active := false, ending := true }).finish c St.ok
    else
      let s := (put s { p with active := false }).l2DropProg x.inst ix p.image
      let s := s.modMat fun m => { m with quads := m.quads.map fun e =>
        (e.1, { e.2 with sections := e.2.sections.filter fun k => k.1 / 4 ≠ progKey x.inst ix }) }
      s.finish c St.ok

/-- The free flow that a new invocation takes: in the quadrant with the most free of its instance's, the lowest
slot (R283). -/
def State.freeFlows (s : State) (i q : Nat) : List Nat :=
  ((List.range 16).map fun k => 4096 * q + 16 * i + k).filter fun f => (s.flow? f).isNone
def State.pickFlow (s : State) (i : Nat) : Option Nat :=
  let best := [1, 2, 3].foldl (fun b q => if (s.freeFlows i b).length < (s.freeFlows i q).length then q else b) 0
  (s.freeFlows i best).head?
/-- Flows of an instance that no issued invocation waits for. -/
def State.flowsLeft (s : State) (i : Nat) : Nat :=
  (List.range 4).foldl (fun n q => n + (s.freeFlows i q).length) 0
    - (s.prog.pendOpen.filter fun c => match s.ctx? c with | some x => x.inst = i | none => false).length

/-! ## Subsystem Local Memory (R121, R147) -/

/-- Bytes `off` to `off + n - 1` lie in the range set. -/
def State.mrsHas (s : State) (i rsid off n : Nat) : Bool :=
  match KV.get? s.prog.mrs (mrsKey i rsid) with
  | none => false
  | some l => decide (off + n ≤ l)

/-! ## Start of an issued command -/

/-- A read of a namespace range into the parts of a command. -/
def State.startReads (s : State) (c : Nat) (x : Ctx) (r : NvmRange) : State :=
  match s.nsOf x.inst r.nsid with
  | none => s.finish c St.invalidNs
  | some (k, n) => (s.readRange c k n.grain r.slba r.nlb 0).partsDone c

/-- Writes of a namespace that a Flush covers: acknowledged and not yet in flash (R134). -/
def State.flushCovers (s : State) (inst nsid : Nat) : List Nat :=
  (s.media.versions.filter fun e => e.2.acked && e.2.needed && match KV.get? s.media.nss e.2.nsx with
    | some n => n.inst = inst && (nsid = 0xFFFFFFFF || n.nsid = nsid)
    | none => false).map Prod.fst

/-- An issued command begins. -/
def State.startOp (s : State) (c : Nat) : State :=
  match s.ctx? c with
  | none => s
  | some x =>
    match x.op with
    | .read _ r .. => s.startReads c x r
    | .compare _ r .. => s.startReads c x r
    | .verify _ r _ => s.startReads c x r
    | .memoryCopy _ _ _ r false => s.startReads c x r
    | .memoryCopy _ _ _ _ true => s.landOwn c
    | .writeZeroes _ r true =>
      match s.nsOf x.inst r.nsid with
      | none => s.finish c St.invalidNs
      | some (k, n) => (s.landZeros c k n r.slba r.nlb).modCtx c fun x => { x with landed := true }
    | .writeZeroes _ _ false => s.landOwn c
    | .datasetManagement _ nsid dealloc ranges =>
      if ! dealloc then s.finish c St.ok
      else match s.nsOf x.inst nsid with
        | none => s.finish c St.invalidNs
        | some (k, n) => (ranges.foldl (fun s e => s.landZeros c k n e.1 e.2) s).modCtx c fun x => { x with landed := true }
    | .copy _ nsid _ src _ =>
      match s.nsOf x.inst nsid with
      | none => s.finish c St.invalidNs
      | some (k, n) =>
        let (_, s) := src.foldl (fun (r : Nat × State) e =>
          (r.1 + (grainsOf n.grain e.1 e.2).length, r.2.readRange c k n.grain e.1 e.2 r.1)) (0, s)
        s.partsDone c
    | .flush .. =>
      (s.modCmd fun m => { m with flushes := m.flushes ++ [⟨c, x.waitSlc.filter fun v => (KV.get? s.media.versions v).isSome⟩] }).endFlushes
    | .ioManagementReceive _ nsid =>
      match s.nsOf x.inst nsid with
      | none => s.finish c St.invalidNs
      | some (k, n) =>
        ((s.dataCtx c (s.ruhStatus n)).modMedia fun m =>
          { m with nss := KV.adjust m.nss k fun n => { n with pendingHandles := [] } }).finish c St.ok
    | .ioManagementSend _ nsid handles =>
      match s.nsOf x.inst nsid with
      | none => s.finish c St.invalidNs
      | some (k, _) =>
        (s.modMedia fun m => { m with nss := KV.adjust m.nss k fun n => { n with pendingHandles := handles.foldl (fun l h => insNat h l) n.pendingHandles } }).finish c St.ok
    | .store _ _ _ _ _ declared _ => if declared = 0 then s.wantIndex c else s
    | .retrieve .. => s.wantIndex c
    | .delete .. => s.wantIndex c
    | .exist .. => s.wantIndex c
    | .list .. => s.wantIndex c
    | .loadProgram _ ix _ _ => s.loadImage c x ix.val
    | .programActivation _ ix on => s.activate c x ix.val on
    | .executeProgram .. => s.modProg fun p => { p with pendOpen := p.pendOpen ++ [c] }
    | .memoryRangeSetManagement _ rsid len =>
      let key := mrsKey x.inst rsid.toNat
      match len, KV.get? s.prog.mrs key with
      | some n, none =>
        if rsid = 0xFFFF ∨ n = 0 then s.finish c St.invalidField
        else if s.slmLacks x.inst n then s.finish c St.quota
        else (s.modProg fun p => { p with mrs := KV.put p.mrs key n }).finish c St.ok
      | some _, some _ => s.finish c St.invalidField
      | none, none => s.finish c St.invalidField
      | none, some _ =>
        (s.modProg fun p => { p with mrs := KV.del p.mrs key, slm := p.slm.filter fun b => b.1 / 2 ^ 40 ≠ key }).finish c St.ok
    | .memoryRead _ rsid off len => (s.dataCtx c (s.slmRead x.inst rsid.toNat off len)).finish c St.ok
    | .memoryWrite _ rsid off _ _ => (s.slmWrite x.inst rsid.toNat off x.got).finish c St.ok
    | .memoryFill _ rsid off len v => (s.slmWrite x.inst rsid.toNat off (List.replicate len v)).finish c St.ok
    | _ => s

end Sys2Proof.Machine
end

