-- ==== Sys2Proof/Machine/CmdOps.lean ====
section
/-! DEFINITION. The command path: admission, write data, arbitration, cutting and resets (R111, R114, R116 to R118,
R121, R124 to R127, R131 to R137, R143, R155 to R157). -/

namespace Sys2Proof.Machine

/-! ## Checks at admission (R113, R121, R122, R137, R190, R245, R364) -/

/-- What a command that programs data meets in PRESERVE and without space. -/
def State.spaceCheck (s : State) : Except Status Unit :=
  if s.mode.mode = .preserve then .error St.writeProtected
  else if s.media.capExceeded then .error St.capExceeded else .ok ()

/-- A Key Value command's namespace and key. -/
def State.kvCheck (s : State) (ctrl nsid : Nat) (key : List Byte) : Except Status Unit :=
  match s.attachedNs ctrl nsid with
  | .error e => .error e
  | .ok (_, n) =>
    if ! n.kv then .error St.invalidOpcode
    else if key.length = 0 ∨ 16 < key.length then .error St.badKeySize else .ok ()

/-- The ranges of a command all lie in a namespace of `nsze` sectors. -/
def rangesIn (nsze : Nat) (l : List (Nat × Nat)) : Bool := l.all fun e => decide (e.1 + e.2 ≤ nsze)

/-- The checks of an I/O command at its admission: a status, or the bytes of data it expects from the host. -/
def State.precheck (s : State) (inst ctrl : Nat) (op : Instr) : Except Status Nat :=
  let nvm := fun (r : NvmRange) most => s.nvmRange ctrl r.nsid r.slba r.nlb most
  match op with
  | .read _ r _ _ prp sgl => do
    if prp then throw St.invalidField
    let (_, n) ← nvm r 512
    if sgl < r.nlb * n.hostSector r.pi then throw St.sglLength
    pure 0
  | .write _ r _ _ fdp prp _ => do
    if prp then throw St.invalidField
    let (_, n) ← nvm r 512
    if fdp.any fun h => n.ruhs.length ≤ h then throw St.badHandle
    s.spaceCheck
    pure (r.nlb * n.hostSector r.pi)
  | .flush _ nsid => do
    if nsid = 0xFFFFFFFF then pure 0
    else
      let _ ← s.attachedNs ctrl nsid
      pure 0
  | .writeUncorrectable _ r => do
    let _ ← nvm r 256
    pure 0
  | .compare _ r _ prp _ => do
    if prp then throw St.invalidField
    let (_, n) ← nvm r 256
    pure (r.nlb * n.hostSector r.pi)
  | .writeZeroes _ r dealloc => do
    let _ ← nvm r 65536
    if ! dealloc then s.spaceCheck
    pure 0
  | .datasetManagement _ nsid _ ranges => do
    let (_, n) ← s.attachedNs ctrl nsid
    if n.kv then throw St.invalidOpcode
    if ranges = [] ∨ 256 < ranges.length then throw St.invalidField
    if ! rangesIn n.nsze ranges then throw St.lbaRange
    pure 0
  | .verify _ r _ => do
    let _ ← nvm r 65536
    pure 0
  | .copy _ nsid format src dst => do
    let (_, n) ← s.attachedNs ctrl nsid
    if n.kv then throw St.invalidOpcode
    if 1 < format ∨ src = [] ∨ 128 < src.length ∨ src.any fun e => e.2 = 0 then throw St.invalidField
    if ! rangesIn n.nsze src ∨ n.nsze < dst + src.foldl (fun a e => a + e.2) 0 then throw St.lbaRange
    s.spaceCheck
    pure 0
  | .ioManagementReceive _ nsid => do
    let (_, n) ← s.attachedNs ctrl nsid
    if n.kv then throw St.invalidOpcode
    pure 0
  | .ioManagementSend _ nsid handles => do
    let (_, n) ← s.attachedNs ctrl nsid
    if n.kv then throw St.invalidOpcode
    if handles.any fun h => n.ruhs.length ≤ h then throw St.badHandle
    pure 0
  | .store _ nsid key _ _ declared _ => do
    s.kvCheck ctrl nsid key
    if 2 ^ 20 < declared then throw St.badValueSize
    s.spaceCheck
    pure declared
  | .retrieve _ nsid key _ => do
    s.kvCheck ctrl nsid key
    pure 0
  | .delete _ nsid key => do
    s.kvCheck ctrl nsid key
    pure 0
  | .exist _ nsid key => do
    s.kvCheck ctrl nsid key
    pure 0
  | .list _ nsid key _ => do
    let (_, n) ← s.attachedNs ctrl nsid
    if ! n.kv then throw St.invalidOpcode
    if 16 < key.length then throw St.badKeySize
    pure 0
  | .loadProgram _ _ declared _ => pure declared
  | .memoryRead _ rsid off len =>
    if 2 ^ 21 < len ∨ ! s.mrsHas inst rsid.toNat off len then throw St.invalidField else pure 0
  | .memoryWrite _ rsid off declared _ =>
    if 2 ^ 21 < declared ∨ ! s.mrsHas inst rsid.toNat off declared then throw St.invalidField else pure declared
  | .memoryFill _ rsid off len _ => if ! s.mrsHas inst rsid.toNat off len then throw St.invalidField else pure 0
  | .memoryCopy _ rsid off r to_ => do
    if ! s.mrsHas inst rsid.toNat off (4096 * r.nlb) then throw St.invalidField
    let _ ← nvm r 512
    if to_ then s.spaceCheck
    pure 0
  | _ => pure 0

/-! ## Costs (R124) -/

/-- Cost in units of 4 KiB. -/
def State.costUnits (s : State) (op : Instr) : Nat :=
  let b := fun n => max 1 (cdiv n 4096)
  let _ := s
  match op with
  | .read _ r .. => b (4096 * r.nlb)
  | .write _ r .. => b (4096 * r.nlb)
  | .compare _ r .. => b (4096 * r.nlb)
  | .verify _ r _ => b (4096 * r.nlb)
  | .store _ _ _ _ _ d _ => b d
  | .retrieve _ _ _ l => b l
  | .memoryRead _ _ _ l => b l
  | .memoryWrite _ _ _ d _ => b d
  | .datasetManagement _ _ _ l => l.length
  | .copy _ _ _ src _ => src.length + src.foldl (fun a e => a + e.2) 0
  | _ => 1
/-- The value's length is known where the key is (a Retrieve reads the value whole, R364). -/
def State.cost (s : State) (inst : Nat) (op : Instr) : Nat :=
  16 * match op with
    | .retrieve _ nsid key _ =>
      match s.nsOf inst nsid with
      | none => 1
      | some (k, n) => match (s.findKey 0 k n key).1 with
        | some (_, e) => max 1 (cdiv e.vlen 4096)
        | none => 1
    | _ => s.costUnits op

/-- Commands that R127 issues as writes, once all their data has come. -/
def isWriteOp : Instr → Bool
  | .write .. => true | .store .. => true | .memoryWrite .. => true | .loadProgram .. => true | _ => false
/-- Commands that take data from the host. -/
def takesData : Instr → Bool
  | .compare .. => true | .firmwareImageDownload .. => true | i => isWriteOp i

/-! ## Write data (R127, R133, R312) -/

/-- Pieces of a firmware bundle are placed in the staging area; a later write of an offset replaces the earlier (R431). -/
def State.stageFirmware (s : State) (off : Nat) (l : List Byte) : State :=
  s.modFw fun f =>
    { f with
      staging := f.staging.writeBytes off l
      pieces := (List.range (l.length / 4096)).foldl (fun p k => insNat (off / 4096 + k) p) f.pieces }

/-- All data of a command has come: it is judged, brought to its stored form and landed. -/
def State.dataWhole (s : State) (c : Nat) : State :=
  match s.ctx? c with
  | none => s
  | some x =>
    let s := (s.modCtx c fun x => { x with xferDue := none, dataAt := some s.cmd.nextData }).modCmd fun m => { m with nextData := m.nextData + 1 }
    match x.op with
    | .write _ r .. =>
      match s.nsOf x.inst r.nsid with
      | none => s.finish c St.invalidNs
      | some (_, n) =>
        match n.storeForm r.pi r.nlb x.got with
        | .error st => s.finish c st
        | .ok l => (s.modCtx c fun x => { x with got := l }).landOwn c
    | .store _ nsid key _ _ declared _ =>
      match s.nsOf x.inst nsid with
      | none => s.finish c St.invalidNs
      | some (k, n) =>
        if declared = 0 then s.modCtx c fun x => { x with landed := true }
        else match s.allocValue k n (n.bucketOf k key) (cdiv declared (n.grain * 4096)) with
          | none => s.finish c St.capExceeded
          | some (g, s) => (s.modCtx c fun x => { x with aux := g + 1, got := n.valueForm x.got }).landOwn c
    | .firmwareImageDownload _ off _ _ => (s.stageFirmware off x.got).finish c St.ok
    | _ => s.modCtx c fun x => { x with landed := true }

/-- The data that a capsule brought. -/
def State.inCapsule (s : State) (c expected : Nat) (data : List Byte) : State :=
  if expected < data.length then
    (s.bumpBy Pg.CMD Fd.CMD_CNT_COUNT 5 (data.length - expected)).finish c St.overrun
  else
    let due := if data = [] then none else some (s.now + msec (s.cfg Pg.CMD Fd.CMD_XFER_TIMEOUT_MS))
    let s := s.modCtx c fun x => { x with got := data, asked := data.length, xferDue := due }
    if data.length = expected then s.dataWhole c else s

def capsuleData : Instr → List Byte
  | .write _ _ _ _ _ _ d => d | .compare _ _ _ _ d => d | .store _ _ _ _ _ _ d => d | .loadProgram _ _ _ d => d
  | .memoryWrite _ _ _ _ d => d | .firmwareImageDownload _ _ _ d => d | _ => []

/-! ## Admission (R116 to R118, R137, R204) -/

/-- PREFETCH hints of a command with the Sequential Request bit. -/
def State.seqHint (s : State) (inst : Nat) (op : Instr) : State :=
  let go := fun (r : NvmRange) =>
    if s.cfgB Pg.MAPC Fd.MAPC_HINTS_HOST then
      match s.nsOf inst r.nsid with
      | none => s
      | some (k, n) => s.hint 1 k ((r.slba + r.nlb - 1) / n.grain / 512 + 1) (s.cfg Pg.MAPC Fd.MAPC_HINTS_DEPTH) inst false false
    else s
  match op with
  | .read _ r true .. => go r
  | .write _ r _ true .. => go r
  | .compare _ r true .. => go r
  | .verify _ r true => go r
  | _ => s

/-- A command takes a context. -/
def State.newCtx (s : State) (cap : Cap) (k : Ctrl) (op : Instr) (expected : Nat) (st : CtxState) : Nat × State :=
  let c := s.cmd.nextCtx
  let x : Ctx :=
    { inst := k.inst, gen := s.gen k.inst, ctrl := cap.ctrl, epoch := k.epoch, qid := cap.qid, cid := cap.cid, op := op,
      cost := s.cost k.inst op, state := st, urgent := false, at_ := s.now, order := s.cmd.nextOrder,
      isWrite := takesData op, expected := expected, got := [], asked := 0, open_ := [], dataAt := none, xferDue := none,
      landed := false, resetDue := none, pendReads := 0, parts := [], failed := none
      waitSlc := (match op with | .flush _ nsid => s.flushCovers k.inst nsid | _ => []), waitSeg := [], res := 0, aux := 0 }
  (c, s.modCmd fun m => { m with nextCtx := c + 1, nextOrder := m.nextOrder + 1, ctxs := KV.put m.ctxs c x })
/-- A command is admitted: it takes a context, unless its identifier or a check ends it. -/
def State.takeIn (s : State) (cap : Cap) (k : Ctrl) (op : Instr) : State :=
  if s.cmd.ctxs.any fun e => e.2.ctrl = cap.ctrl && e.2.qid = cap.qid && e.2.cid = cap.cid && ! s.stale e.2 then s.postCap cap St.idConflict
  else
    match s.precheck k.inst cap.ctrl op with
    | .error st => s.postCap cap st
    | .ok expected =>
      let (c, s) := s.newCtx cap k op expected .admitted
      let s := s.seqHint k.inst op
      if takesData op then s.inCapsule c expected (capsuleData op) else s

/-- A command of the instance can take a context in this queue now. -/
def State.hasRoom (s : State) (ctrl qid : Nat) (k : Ctrl) (q : IoQueue) : Bool :=
  s.queueHeld ctrl qid < s.queueLimit k.inst q.entries && s.ioHeld k.inst < s.ioGrant k.inst

/-! ## Cutting (R132, R133, R135, R365) -/

/-- Everything that a command has done before its commit point is undone. -/
def State.undo (s : State) (c : Nat) : State :=
  let s := ((s.freeOwn c).dropLanded c).unwantSlot c
  let s := s.modMedia fun m => { m with reads := m.reads.filter fun r => match r.2.who with | .ctx x _ => x ≠ c | _ => true }
  let s := s.modProg fun p => { p with pendOpen := p.pendOpen.filter (· ≠ c) }
  s.modCmd fun m => { m with flushes := m.flushes.filter fun f => f.ctx ≠ c }
/-- The transfer of a command is retired. -/
def State.retireXfer (s : State) (c : Nat) : State :=
  s.modCmd fun m => { m with retired := (c :: m.retired).take 65536 }
/-- A command ends before its commit point with a status; an invocation reports NEXT and keeps what it released. -/
def State.cut (s : State) (c : Nat) (st : Status) : State :=
  match s.prog.flows.find? fun f => f.2.ctx = c with
  | some (f, fl) => ((s.putOutput f fl (outRecord fl.placed 0x0F [])).modFlow f fun g => { g with seg := [] }).completeFlow f st false
  | none => (((s.retireXfer c).undo c).finish c st).zapFreed.landWaiting
/-- A command not yet started is dropped by a reset. -/
def State.dropUnstarted (s : State) (c : Nat) : State :=
  (((s.retireXfer c).undo c).freeCtx c).bump Pg.CMD Fd.CMD_CNT_COUNT 7

/-! ## Resets of a controller and of an instance (R114, R135, R156) -/

/-- What a reset does to the contexts it concerns: the unstarted are dropped, invocations stop, the started have
10 ms. -/
def State.resetCtxs (s : State) (p : Ctx → Bool) : State :=
  let l := s.cmd.ctxs.filter fun e => p e.2
  l.foldl (fun s e =>
    match e.2.state with
    | .admitted => s.dropUnstarted e.1
    | .issued =>
      if s.prog.flows.any fun f => f.2.ctx = e.1 then s.cut e.1 St.abortRequested
      else match e.2.op with
        | .executeProgram .. => s.cut e.1 St.abortRequested
        | _ => s.modCtx e.1 fun x => { x with resetDue := some (s.now + msec 10) }
    | _ => s) s

/-- A connection closes, and what was received on it and not yet processed is dropped. -/
def State.closeConn (s : State) (n : Nat) : State :=
  s.modNet fun m => { m with conns := KV.del m.conns n, sram := m.sram.filter (·.conn ≠ n), spill := m.spill.filter (·.conn ≠ n) }
/-- Waiting commands of a controller are dropped; outstanding Asynchronous Event Requests end unposted. -/
def State.dropWaiting (s : State) (c : Nat) : State :=
  match s.ctrl? c with
  | none => s
  | some k =>
    let n := k.adminWait.length + k.queues.foldl (fun n q => n + q.2.waiting.length) 0
    let s := (s.bumpBy Pg.CMD Fd.CMD_CNT_COUNT 7 n).bumpBy Pg.CMD Fd.CMD_CNT_COUNT 6 k.aers.length
    s.modCtrl c fun k => { k with adminWait := [], aers := [], aenPend := [], queues := k.queues.map fun q => (q.1, { q.2 with waiting := [] }) }
def nextGen (n : Nat) : Nat := if n = 0xFFFF then 1 else n + 1

/-- A controller reset: its epoch, its commands, its features, its I/O queues and their connections. `closing`: the association
ends, and every connection with it. -/
def State.resetCtrl (s : State) (c : Nat) (closing : Bool) : State :=
  match s.ctrl? c with
  | none => s
  | some k =>
    let s := s.dropWaiting c
    let s := s.modCtrl c fun k =>
      { k with
        epoch := nextGen k.epoch, resetting := true, closing := k.closing || closing, kaDue := if closing then none else k.kaDue
        aerMask := [], aerCfg := 0, arb := 0, features := [] }
    let s := s.resetCtxs fun x => x.ctrl = c
    let s := k.queues.foldl (fun s q => s.closeConn q.2.conn) s
    let s := s.modCtrl c fun k => { k with queues := [] }
    if closing then s.closeConn k.conn else s

/-- End an association (R114). -/
def State.endAssoc (s : State) (c : Nat) : State := s.resetCtrl c true

/-- Steps 1 and 2 of an instance reset; `bump`: with a new generation. -/
def State.startReset (s : State) (i : Nat) : State :=
  let s := s.modInstOf i fun t => { t with gen := nextGen t.gen, resetting := true }
  let s := (s.ctrlsOf i).foldl (fun s c => s.endAssoc c.1) s
  let s := s.resetCtxs fun x => x.inst = i
  let fl := (s.prog.flows.filter fun f => f.2.inst = i).map Prod.fst
  let s := fl.foldl (fun s f => s.freeFlow f) s
  (s.net.conns.filter fun k => k.2.inst = i && ! k.2.disc).foldl (fun s k => s.closeConn k.1) s

/-- An instance reset begins: event 0x0602 names the path that asked, 0 where the instance is being disabled. -/
def State.resetBegins (s : State) (i who : Nat) : State :=
  let s := s.startReset i
  s.logEv (Pg.INST i) 0x0602 .info i (BitVec.ofNat 8 who :: leBytes 2 (s.gen i))

/-- What a disabled instance gives up besides (R143): mailbox queues, Subsystem Local Memory, programs. -/
def State.disableClean (s : State) (i : Nat) : State :=
  let s := s.modInstOf i fun t =>
    { t with queue := [], m2tFull := false, m2tData := [], t2mPending := false }
  let s := s.modProg fun p =>
    { p with
      progs := p.progs.filter fun e => e.1 / 16 ≠ i
      mrs := p.mrs.filter fun e => e.1 / 2 ^ 16 ≠ i
      slm := p.slm.filter fun e => e.1 / 2 ^ 56 ≠ i }
  s.modMat fun m => { m with quads := m.quads.map fun e => (e.1, { e.2 with sections := e.2.sections.filter fun k => k.1 / 64 ≠ i }) }
/-- An instance is disabled at a round start. -/
def State.disable (s : State) (i : Nat) : State :=
  if (s.instOf i).resetting then s.modInstOf i fun t => { t with disableHeld := true }
  else (s.resetBegins i 0).disableClean i

/-! ## Arbitration (R125 to R127) -/

def State.defOf (s : State) (i : Nat) : Int := KV.getD 0 s.cmd.deficit i
def State.setDef (s : State) (i : Nat) (d : Int) : State := s.modCmd fun m => { m with deficit := KV.set 0 m.deficit i d }
def State.udOf (s : State) (i : Nat) : Nat := KV.getD 0 s.cmd.urgent i
def State.setUd (s : State) (i d : Nat) : State := s.modCmd fun m => { m with urgent := KV.set 0 m.urgent i d }

/-- Admitted, unissued I/O commands of an instance. -/
def State.unissued (s : State) (i : Nat) : KV Ctx :=
  s.cmd.ctxs.filter fun e => e.2.inst = i && e.2.qid ≠ 0 && e.2.state = .admitted
/-- A command that can be issued now: its data has landed; an invocation finds a flow (R127, R283). -/
def State.canIssue (s : State) (x : Ctx) : Bool :=
  x.state = .admitted && x.qid ≠ 0 && (! takesData x.op || x.landed) && match x.op with
    | .executeProgram .. => decide (0 < s.flowsLeft x.inst)
    | _ => true

/-- CC.AMS of a controller is weighted round robin with urgent priority class. -/
def Ctrl.wrrOn (k : Ctrl) : Bool := bitsOf k.cc 13 11 = 1
/-- The class of the queue of a command. -/
def State.classOf (s : State) (x : Ctx) : QClass :=
  match s.ctrl? x.ctrl with
  | none => .medium
  | some k => ((KV.get? k.queues x.qid).map (·.cls)).getD .medium
def State.isUrgent (s : State) (x : Ctx) : Bool :=
  s.classOf x = .urgent && match s.ctrl? x.ctrl with | some k => k.wrrOn | none => false

/-- Issue a command. -/
def State.issue (s : State) (c : Nat) : State :=
  match s.ctx? c with
  | none => s
  | some x =>
    let u := s.isUrgent x
    let s := s.modCtx c fun x => { x with state := .issued, urgent := u, order := s.cmd.nextOrder }
    let s := s.modCmd fun m => { m with nextOrder := m.nextOrder + 1 }
    s.startOp c

def queueKey (x : Ctx) : Nat := x.ctrl * 2 ^ 16 + x.qid
/-- The oldest command that can be issued of a queue. -/
def State.firstOf (s : State) (key : Nat) : Option Nat :=
  (s.cmd.ctxs.find? fun e => queueKey e.2 = key && s.canIssue e.2).map Prod.fst

/-- The next urgent-class command of an instance, round robin over its urgent queues. -/
def State.nextUrgent (s : State) (i : Nat) : Option (Nat × Nat) :=
  let l := (((s.unissued i).filter fun e => s.canIssue e.2 && s.isUrgent e.2).map fun e => queueKey e.2).foldr insNat []
  match nextRound (KV.getD 0 s.cmd.lastUrgQ i) l with
  | none => none
  | some q => (s.firstOf q).map fun c => (c, q)
def State.tookUrgent (s : State) (i q : Nat) : State := s.modCmd fun m => { m with lastUrgQ := KV.put m.lastUrgQ i q }

/-- The urgent pass for one instance. -/
def State.urgentPass (s : State) (i : Nat) : Nat → State
  | 0 => s
  | n + 1 =>
    match s.nextUrgent i with
    | none => s
    | some (c, q) =>
      let cost := ((s.ctx? c).map (·.cost)).getD 0
      if s.udOf i < cost then s
      else
        let s := (s.issue c).tookUrgent i q
        ((s.setUd i (s.udOf i - cost)).setDef i (s.defOf i - cost)).urgentPass i n

/-- Weights of the Arbitration feature: high, medium and low, 0's based; and the burst. -/
def Ctrl.weights (k : Ctrl) : List Nat := [bitsOf k.arb 31 24 + 1, bitsOf k.arb 23 16 + 1, bitsOf k.arb 15 8 + 1]
def Ctrl.burstLen (k : Ctrl) : Nat := if k.arb % 8 = 7 then 2 ^ 20 else 2 ^ (k.arb % 8)
def classIx : QClass → Nat
  | .urgent => 0 | .high => 0 | .medium => 1 | .low => 2

/-- A controller's own choice: the queue, and the controller with its place advanced. -/
def State.ctrlNext (s : State) (c : Nat) (k : Ctrl) : Option (Nat × Ctrl) :=
  let ready := (k.queues.filter fun q => (s.firstOf (c * 2 ^ 16 + q.1)).isSome)
  let rr := fun (l : List Nat) (k : Ctrl) =>
    if l.contains k.lastQ ∧ 0 < k.burst ∧ k.wrrOn then some (k.lastQ, { k with burst := k.burst - 1 })
    else (nextRound k.lastQ l).map fun q => (q, { k with lastQ := q, burst := k.burstLen - 1 })
  if ! k.wrrOn then rr (ready.map Prod.fst) k
  else
    let has := fun n => ready.any fun q => classIx q.2.cls = n
    let pick := fun (k : Ctrl) => [0, 1, 2].find? fun n => has n && decide (0 < k.wrr.getD n 0)
    let k := match pick k with | some _ => k | none => { k with wrr := k.weights }
    match pick k with
    | none => none
    | some n => rr ((ready.filter fun q => classIx q.2.cls = n).map Prod.fst) { k with wrr := k.wrr.set n (k.wrr.getD n 0 - 1) }

/-- The next command of an instance in the main pass, and the state with the turns advanced. -/
def State.nextMain (s : State) (i : Nat) : Option (Nat × State) :=
  match s.nextUrgent i with
  | some (c, q) => some (c, s.tookUrgent i q)
  | none =>
    let l := (((s.unissued i).filter fun e => s.canIssue e.2).map fun e => e.2.ctrl).foldr insNat []
    match nextRound (KV.getD 0 s.cmd.lastCtrl i) l with
    | none => none
    | some c =>
      match s.ctrl? c with
      | none => none
      | some k =>
        match s.ctrlNext c k with
        | none => none
        | some (q, k') =>
          (s.firstOf (c * 2 ^ 16 + q)).map fun x =>
            (x, (s.modCtrl c fun _ => k').modCmd fun m => { m with lastCtrl := KV.put m.lastCtrl i c })

/-- The loop of the main pass for one instance. -/
def State.mainPass (s : State) (i : Nat) : Nat → State
  | 0 => s
  | n + 1 =>
    if s.defOf i ≤ 0 then s
    else
      match s.nextMain i with
      | none => s
      | some (c, s') =>
        let cost := ((s.ctx? c).map (·.cost)).getD 0
        if s.defOf i < cost then s
        else
          let s := s'.issue c
          (s.setDef i (s.defOf i - cost)).mainPass i n

/-- Writes that hold all their data, in order of data completion, whatever D(i) holds. -/
def State.writePass (s : State) (i : Nat) : State :=
  let l := (s.unissued i).filter fun e => isWriteOp e.2.op && e.2.landed
  let l := l.mergeSort fun a b => a.2.dataAt.getD 0 ≤ b.2.dataAt.getD 0
  l.foldl (fun s e => (s.issue e.1).setDef i (s.defOf i - e.2.cost)) s

/-- SHARE.SETTLED is seen to change (R148, R163). -/
def State.settleTrack (s : State) : State :=
  ((List.range 256).filter fun i => (s.enabled i || (s.instOf i).settled) && s.settled i ≠ (s.instOf i).settled).foldl (fun s i =>
    (s.modInstOf i fun t => { t with settled := ! t.settled }).setEv (Pg.INST i) 11) s

/-- The round start: staged shares and enables, new queue classes, and the quanta. -/
def State.roundStart (s : State) : State :=
  let s := (s.modCmd fun m => { m with round := m.round + 1 }).bump Pg.ARB Fd.ARB_ROUNDS_COUNT 0
  let s :=
    if s.inst.applyDue then
      let was := s.enabledList
      let s := s.applyShares
      (was.filter fun i => ! s.enabled i).foldl (fun s i => s.disable i) s
    else s
  let s := s.settleTrack
  let s := s.modCmd fun m => { m with ctrls := m.ctrls.map fun c =>
    (c.1, { c.2 with queues := c.2.queues.map fun q => (q.1, { q.2 with cls := q.2.clsNext }) }) }
  let cap := s.cfg Pg.ARB Fd.ARB_UD_CAP_ROUNDS
  (s.enabledList.filter fun i => ! (s.unissued i).isEmpty).foldl (fun s i =>
    let q := s.share i
    (s.setDef i (s.defOf i + q)).setUd i (min (s.udOf i + q / 10) (cap * (q / 10)))) s

/-- One arbitration round. -/
def State.arbitrate (s : State) : State :=
  let s := s.roundStart
  let start := (s.cmd.round - 1) % 256
  let en := s.enabledList.filter fun i => ! (s.unissued i).isEmpty
  let order := en.filter (start ≤ ·) ++ en.filter (· < start)
  let s := order.foldl (fun s i => s.urgentPass i ((s.unissued i).length + 1)) s
  order.foldl (fun s i =>
    let s := (s.writePass i)
    let s := s.mainPass i ((s.unissued i).length + 1)
    if (s.unissued i).isEmpty then s.setDef i (min (s.defOf i) 0) else s) s

/-! ## Arrival -/

/-- The keep-alive timer restarts on each command of the association (R114). -/
def State.keepAlive (s : State) (c : Nat) : State :=
  s.modCtrl c fun k => { k with kaDue := k.kaDue.map fun _ => s.now + msec k.katoMs }

/-- An I/O command arrives: admitted where its queue has room, waiting otherwise. -/
def State.ioArrive (s : State) (cap : Cap) (op : Instr) : State :=
  match s.ctrl? cap.ctrl with
  | none => s
  | some k =>
    let s := s.keepAlive cap.ctrl
    if cap.qid = 0 then s.postCap cap St.invalidOpcode
    else
      match KV.get? k.queues cap.qid with
      | none => s
      | some q =>
        if s.cmd.drainStopped then s.postCap cap St.notReady
        else if k.resetting ∨ (s.instOf k.inst).resetting then s.bump Pg.CMD Fd.CMD_CNT_COUNT 7
        else if s.cmd.act ≠ .idle ∨ q.waiting ≠ [] ∨ ! s.hasRoom cap.ctrl cap.qid k q then
          s.modCtrl cap.ctrl fun k => { k with queues := KV.adjust k.queues cap.qid fun q => { q with waiting := q.waiting ++ [op] } }
        else
          let s := s.takeIn cap k op
          if cap.roundNow then s.arbitrate else s

/-- The oldest waiting command of an I/O queue is admitted where there is room. -/
def State.admitOldest (s : State) (c qid : Nat) : State :=
  match s.ctrl? c with
  | none => s
  | some k =>
    match KV.get? k.queues qid with
    | none => s
    | some q =>
      match q.waiting with
      | [] => s
      | op :: rest =>
        if s.cmd.act ≠ .idle ∨ ! s.hasRoom c qid k q then s
        else
          let s := s.modCtrl c fun k => { k with queues := KV.adjust k.queues qid fun q => { q with waiting := rest } }
          match op.ioCap with
          | none => s
          | some cap => s.takeIn cap k op

/-! ## Admin commands (R116, R119, R461) -/

/-- Admin commands that NVMe-MI carries (R428). -/
def tunnelled : Instr → Bool
  | .identify .. => true | .getLogPage .. => true | .getFeatures .. => true | .firmwareImageDownload .. => true
  | .firmwareCommit .. => true | .securitySend .. => true | .securityReceive .. => true | _ => false
/-- A controller that has just been connected. -/
def Ctrl.fresh (inst : Nat) (disc : Bool) (conn host entries katoMs : Nat) (attached : List Nat) : Ctrl :=
  { inst := inst, disc := disc, conn := conn, host := host, adminEntries := entries, cc := 0, rdy := false, shst := 0, epoch := 1,
    katoMs := katoMs, kaDue := none, authed := false, authStep := 0, authHash := 0, authGroup := 0, adminWait := [], queues := [],
    aers := [], aerMask := [], aenPend := [], aerCfg := 0, arb := 0, features := [], authChal := 0, authReply := [], attached := attached, changedNs := [],
    errors := [], errCount := 0, lastQ := 0, burst := 0, wrr := [0, 0, 0], resetting := false, closing := false }
/-- The MP answers the management bus: in every mode but OFF and HOLD-UP, and not while it restarts (R420). -/
def State.busUp (s : State) : Bool := s.mode.mode ≠ .off && ! s.inHoldup && ! s.mode.mpRestarting
/-- A tunnelled admin command, applied as instance 0's (R428): it bears controller number 0. -/
def State.tunnelGate (s : State) (cap : Cap) (op : Instr) : Except State (Ctrl × State) :=
  if ! s.busUp then .error s
  else if s.mode.mode = .standby ∨ s.mode.mode = .diagnostic ∨ cap.qid ≠ 0 ∨ ! tunnelled op then .error (s.postCap cap St.invalidOpcode)
  else .ok (Ctrl.fresh 0 false 0 0 32 0 [], s)

/-- What the admin queue makes of a command: a final state, or the controller with the command taken. A command
that waits is held; `ready`: it needs CC.EN and CSTS.RDY; `auth`: it is let through before authentication. -/
def State.adminGate (s : State) (cap : Cap) (op : Instr) (ready auth : Bool) : Except State (Ctrl × State) :=
  match s.ctrl? cap.ctrl with
  | none => if cap.ctrl = 0 then s.tunnelGate cap op else .error s
  | some k =>
    let s := s.keepAlive cap.ctrl
    let reqAuth : Bool := match KV.get? s.net.conns k.conn with | some n => n.reqAuth | none => false
    let held := k.aers.length + (s.cmd.ctxs.filter fun e => e.2.inst = k.inst && e.2.qid = 0).length
    if cap.qid ≠ 0 then
      .error (if (KV.get? k.queues cap.qid).isSome then s.postCap cap St.invalidOpcode else s)
    else if s.cmd.drainStopped then .error (s.postCap cap St.notReady)
    else if (s.instOf k.inst).resetting ∨ k.closing then .error (s.bump Pg.CMD Fd.CMD_CNT_COUNT 7)
    else if s.cmd.act ≠ .idle ∨ 32 ≤ held ∨ k.adminWait ≠ [] ∧ ! k.adminWait.contains op then
      .error (s.modCtrl cap.ctrl fun k => { k with adminWait := k.adminWait ++ [op] })
    else if k.aers.contains cap.cid ∨ s.cmd.ctxs.any fun e => e.2.ctrl = cap.ctrl && e.2.qid = 0 && e.2.cid = cap.cid then
      .error (s.postCap cap St.idConflict)
    else if reqAuth ∧ ! k.authed ∧ ! auth then .error (s.postCap cap St.authRequired)
    else if ready ∧ (! k.rdy ∨ k.resetting) then .error (s.postCap cap St.sequence)
    else .ok (k, (s.setDef k.inst (s.defOf k.inst - 16)))

/-- An admin command of a ready controller that only the manager may send, or any instance. -/
def State.admin (s : State) (cap : Cap) (op : Instr) (managerOnly : Bool) (f : Ctrl → State → State) : State :=
  match s.adminGate cap op true false with
  | .error s => s
  | .ok (k, s) =>
    if k.disc ∨ (managerOnly ∧ k.inst ≠ 0) then s.postCap cap St.invalidOpcode else f k s

end Sys2Proof.Machine
end

