-- ==== Sys2Proof/Machine/MediaEvents.lean ====
section
/-! DEFINITION. The events of the write path and of the media: merges and map commits, compression, rows, reads and
their escalation, rebuilds, folds and parity checks (R17, R18, R168 to R196, R240, R384). -/

namespace Sys2Proof.Machine

/-- Whatever waited for room on media, in the write pool or for reads to end goes on. -/
def State.goOn (s : State) : State :=
  let s := (List.range 4).foldl (fun s q => s.packSegments q) s
  ((s.packWaiting.landWaiting).zapFreed).allSegAcks

/-! ## Merges and map commits (R18, R123, R168, R205) -/

/-- R168. -/
def execGrainMerge (ctx grain : Nat) (ok : Bool) (s : State) : Res := .next (s.mergeGrain ctx grain ok)

/-- The landed versions of a command's next aligned segment. -/
def State.nextLanded (s : State) (c : Nat) : List (Nat × Version) :=
  let l := (s.versionsOf c).filter fun e => e.2.state = .landed
  match l with
  | [] => []
  | e :: _ =>
    let seg := l.foldl (fun m e => min m e.2.segment) e.2.segment
    l.filter fun e => e.2.segment = seg
def State.anyLanded (s : State) (c : Nat) : Bool := ! (s.nextLanded c).isEmpty

/-- Checkpoint `no` begins, in the area other than the last counted one's (R208). -/
def State.startCkpt (s : State) : State :=
  if s.map.ckptRunning.isSome then s
  else
    let area := match s.map.ckpt with | some c => 1 - c.area % 2 | none => 0
    let k : Ckpt := { no := s.map.ckptNo + 1, seq := s.map.seq, replayFrom := s.replayFrom, dir := s.map.dir, area := area }
    s.modMap fun m => { m with ckptNo := k.no, ckptRunning := some k, ckptDue := s.now + secs (s.cfg Pg.MAPC Fd.MAPC_CKPT_INTERVAL_S) }
/-- What a commit brings with it: the cleaner, and a checkpoint once the replay lag reaches JOURNAL_GIB (R207, R208). -/
def State.afterCommit (s : State) : State :=
  let high := 2 ^ 30 * s.cfg Pg.MAPC Fd.MAPC_CKPT_JOURNAL_GIB ≤ s.replayLag
  let s := (List.range 4).foldl (fun s q => if high then s.writeBackAll q else s.cleaner q) s
  let s := if high ∧ ! s.map.lagLogged then (s.modMap fun m => { m with lagLogged := true }).logEv Pg.MAPC 0x0804 .notice else s
  let s := if high then s.startCkpt else s
  ((List.range 4).foldl (fun s q => s.packSegments q) s).capCheck

/-- Commit the next segment of a command's versions; after the last, `k`. -/
def State.commitNext (s : State) (c : Nat) (cls : Option Nat) (k : State → State) : State :=
  let l := s.nextLanded c
  if l.isEmpty then s
  else
    let (there, s) := s.linesThere (l.map fun e => (e.2.nsx, e.2.grain))
    if ! there then s
    else match s.commitSegment c cls with
      | none => s
      | some s => (if s.anyLanded c then s else k s).afterCommit

/-- Commit grains in STATE 0 or 3, one map segment at a time: those still to do, and after the last, `k`. -/
def State.plainNext (s : State) (c nsx st : Nat) (todo : List Nat) (k : State → State) : State :=
  match todo with
  | [] => k s
  | g :: _ =>
    let l := todo.filter fun h => h / 512 = g / 512
    let (there, s) := s.linesThere [(nsx, g)]
    if ! there ∨ l.any (fun h => s.earlierWrite c nsx h) then s
    else
      let s := s.modCtx c fun x => { x with state := .committed }
      let s := l.foldl (fun s h => s.plainCommit nsx h st) s
      (if todo.length = l.length then k s else s).afterCommit

/-- The class that a write's placement handle names. -/
def NsS.classOf (n : NsS) (h : Fdp) : Option Nat := h.map fun k => n.ruhs.getD k 0

/-- R18 steps 4 to 6: the map commit of a command's next segment, the window test after the last. -/
def execMapCommit (ctx : Nat) (s : State) : Res :=
  .next <| match s.ctx? ctx with
    | none => s
    | some x =>
      if ! (x.state = .issued ∨ x.state = .committed) ∨ ! x.waitSlc.isEmpty then s
      else
        let unmap := fun (s : State) (nsid : Nat) (ranges : List (Nat × Nat)) =>
          if s.anyLanded ctx then s.commitNext ctx none fun s => s
          else match s.nsOf x.inst nsid with
            | none => s.finish ctx St.invalidNs
            | some (k, n) =>
              let todo := (ranges.flatMap fun e => wholeGrains n.grain e.1 e.2).filter fun g => entState (s.entryOf k g) ≠ 0
              s.plainNext ctx k 0 todo.eraseDups fun s => s.windowTest ctx false
        match x.op with
        | .write _ r fua _ fdp _ _ =>
          match s.nsOf x.inst r.nsid with
          | none => s.failWrite ctx St.invalidNs
          | some (_, n) => s.commitNext ctx (n.classOf fdp) fun s => s.windowTest ctx fua
        | .writeZeroes _ _ false => s.commitNext ctx none fun s => s.windowTest ctx false
        | .copy .. => s.commitNext ctx none fun s => s.windowTest ctx false
        | .memoryCopy _ _ _ _ true => s.commitNext ctx none fun s => s.windowTest ctx false
        | .writeZeroes _ r true => if x.landed then unmap s r.nsid [(r.slba, r.nlb)] else s
        | .datasetManagement _ nsid true ranges => if x.landed then unmap s nsid ranges else s
        | .writeUncorrectable _ r =>
          match s.nsOf x.inst r.nsid with
          | none => s.finish ctx St.invalidNs
          | some (k, n) =>
            let todo := (grainsOf n.grain r.slba r.nlb).filter fun g => entState (s.entryOf k g) ≠ 3
            s.plainNext ctx k 3 todo fun s => s.finish ctx St.ok
        | .store .. =>
          s.commitNext ctx none fun s => (s.modCtx ctx fun x => { x with state := .issued }).wantIndex ctx
        | _ => s

/-! ## Compression and packing (R171, R172, R174, R383, R384, R417) -/

/-- The lowest unit of a kind in service; the quadrant's partner where it has none. -/
def State.someUnit (s : State) (q : Nat) (k : EngineKind) : Nat × Nat :=
  match s.fence.unitsUp q k with
  | u :: _ => (q, u)
  | [] => let p := (Quad.ofIx q).partner.ix
    (p, (s.fence.unitsUp p k).headD 0)

/-- A frame's compressed form is fixed: RATIO and the counters, then its place in a band. -/
def State.framed (s : State) (id : Nat) (raw : Bool) (payload : List Byte) : State :=
  match KV.get? s.media.versions id with
  | none => s
  | some v =>
    let u := frameUnits payload.length
    let s := s.modVersion id fun v => { v with state := .compressed, raw := raw, units := u, payload := payload }
    let s := s.modCmp fun m => KV.modify ⟨0, 0⟩ m v.home fun c => { c with framed := c.framed + u, rawUnits := c.rawUnits + frameUnits v.data.length }
    let s := s.bump (Pg.CMP v.home) Fd.CMP_CNT_COUNT (if raw then 1 else 0)
    let s := s.bump (Pg.XTS v.home) Fd.XTS_CNT_COUNT 0
    (s.bumpPart (Pg.XTS v.home) Fd.XTS_CNT_COUNT 2 (cdiv payload.length 4096) 1000).packVersion id

/-- R384, R383, R417. -/
def execCompressionDone (version : Nat) (verifyMismatch xtsMismatch : Bool) (s : State) : Res :=
  .next <| match KV.get? s.media.versions version with
    | none => s
    | some v =>
      if v.state ≠ .committed then s
      else
        let bad := verifyMismatch ∧ s.cfgB (Pg.CMP v.home) Fd.CMP_INLINE_ENABLE
        let s :=
          if bad then
            let (q, u) := s.someUnit v.home .compressor
            let s := ((s.bump (Pg.CMP v.home) Fd.CMP_CNT_COUNT 5).setEv (Pg.CMP v.home) 9).fenceUnit q .compressor u
            if v.reruns = 0 then s.logEv (Pg.CMP v.home) 0x0F01 .absorbed else s.logEv (Pg.CMP v.home) 0x0F02 .absorbed
          else s
        if bad ∧ v.reruns = 0 then
          (s.bump (Pg.CMP v.home) Fd.CMP_CNT_COUNT 7).modVersion version fun v => { v with reruns := 1 }
        else
          let (raw, payload) := if bad then (true, v.data) else s.framePayload v.home v.data
          let s :=
            if xtsMismatch then
              let (q, u) := s.someUnit v.home .xts
              (((s.bump (Pg.XTS v.home) Fd.XTS_CNT_COUNT 4).setEv (Pg.XTS v.home) 8).logEv (Pg.XTS v.home) 0x1007 .absorbed).fenceUnit q .xts u
            else s
          s.framed version raw payload

/-! ## Bands and rows (R177, R179, R183, R187, R188, R231) -/

/-- R177. -/
def execBandOpen (stream : Fin 7) (slc : Bool) (s : State) : Res :=
  .next <| if ! s.isUp Dom.FABRIC then s
    else match s.openBand stream.val slc with
      | none => s
      | some (_, s) => s.goOn

/-- When the next row of a band closes early: its oldest frame that `p` picks, after a wait. -/
def Band.rowDue (b : Band) (p : MFrame → Bool) (wait : Nat) : Option Nat :=
  match ((b.frames.filter fun f => f.inRow b.nextRow && p f).map fun f => f.placedAt) with
  | [] => none
  | t :: ts => some (ts.foldl min t + wait)
/-- Close the row that is next to be programmed, padded. -/
def State.closeRow (s : State) (n : Nat) (due : Band → Option Nat) : State :=
  match KV.get? s.media.bands n with
  | none => s
  | some b =>
    if b.state ≠ .open_ ∨ b.programming then s
    else match due b with
      | none => s
      | some t => (s.reach t).modBand n fun b => (b.padRow).kick 4096

/-- R179. -/
def execRowCloseWaitExpiry (band : Nat) (s : State) : Res :=
  .next <| s.closeRow band fun b => b.rowDue
    (fun f => match f.version.bind (KV.get? s.media.versions) with | some v => v.waitSlc | none => false)
    (usec (s.cfg Pg.MEDIA Fd.MEDIA_ROW_CLOSE_WAIT_US))
/-- R179. -/
def execRowCloseIdleExpiry (band : Nat) (s : State) : Res :=
  .next <| s.closeRow band fun b => b.rowDue (fun _ => true) (msec (s.cfg Pg.MEDIA Fd.MEDIA_ROW_CLOSE_IDLE_MS))

/-- An open band closes at the row being programmed; the frames with units in that row or above are placed again. -/
def State.earlyClose (s : State) (n : Nat) : State :=
  match KV.get? s.media.bands n with
  | none => s
  | some b =>
    if b.state ≠ .open_ then s
    else
      let redo := b.frames.filter fun f => b.nextRow ≤ f.pages.2
      let s := s.modBand n fun b => { b with frames := b.frames.filter fun f => f.pages.2 < b.nextRow, programming := false }
      let s := redo.foldl (fun s f =>
        if f.kind = 1 then
          let q := s.homeSeg f.nsx f.grain
          s.modCache q fun c => { c with wbs := c.wbs.map fun w => if w.nsx = f.nsx ∧ w.seg = f.grain ∧ w.seq = f.seq then { w with packed := false } else w }
        else match f.version with
          | some v => s.modVersion v fun v => { v with state := .compressed }
          | none => s) s
      ((s.logEv Pg.MEDIA 0x0705 .absorbed 0 (leBytes 4 n ++ leBytes 2 b.nextRow)).closeBand n).goOn

/-- R179, R183, R231. -/
def execRowProgramDone (band : Nat) (failed : Option (Fin 34)) (s : State) : Res :=
  .next <| match KV.get? s.media.bands band with
    | none => s
    | some b =>
      if b.state ≠ .open_ ∨ ! b.programming then s
      else match failed with
        | none => (s.rowDone band).goOn
        | some m =>
          let loc := b.members.getD m.val 0
          let s := s.modBlock loc fun k => { k with state := .retirePending }
          let s := s.bump (Pg.LANE (loc / 2097152) (loc / 131072 % 16)) Fd.LANE_CNT_COUNT 5
          s.earlyClose band

/-! ## Patrol results (R233, R240, R241) -/

/-- The margin of a patrolled block sets its next patrol or marks it for refresh; `deep`: a page needed step 2. -/
def State.patrolResult (s : State) (loc margin : Nat) (deep : Bool) : State :=
  let pg := Pg.MEDIA
  let margin := min margin 100
  let days := s.cfg pg Fd.MEDIA_PATROL_CTRL_DAYS
  let mark := deep ∨ margin < s.cfg pg Fd.MEDIA_PATROL_CTRL_MARGIN_REFRESH
  let s := s.modMedia fun m => { m with patrolHead := m.patrolHead.filter (· ≠ loc) }
  let s := s.modBlock loc fun b =>
    { b with
      margin := margin
      patrolD := s.retNow / 24
      interval := if s.cfg pg Fd.MEDIA_PATROL_CTRL_MARGIN_OK ≤ margin then days
        else max 1 ((if b.interval = 0 then days else b.interval) / 2)
      refresh := b.refresh || decide mark
      firstRefresh := if b.patrolled then b.firstRefresh else if mark then b.firstRefresh + 1 else 0
      patrolled := true }
  if mark then s.logEv pg 0x0904 .info 0 (leBytes 4 (mediaLoc loc) ++ [BitVec.ofNat 8 margin]) else s

/-! ## Reads (R17, R170, R180, R181, R286) -/

def State.dropRead (s : State) (id : Nat) : State := s.modMedia fun m => { m with reads := KV.del m.reads id }
def State.stepRead (s : State) (id step : Nat) : State :=
  s.modMedia fun m => { m with reads := KV.adjust m.reads id fun r => { r with step := step } }
def MRead.loc (r : MRead) (s : State) : Nat :=
  match KV.get? s.media.bands r.band with | some b => b.members.getD r.member 0 | none => 0
def MRead.lanePage (r : MRead) (s : State) : Nat := Pg.LANE (r.loc s / 2097152) (r.loc s / 131072 % 16)

/-- The grain has been read: it goes to whoever asked. -/
def State.deliverRead (s : State) (id : Nat) (r : MRead) : State :=
  let s := s.dropRead id
  match r.who with
  | .ctx c part => ((s.modCtx c fun x => { x with pendReads := x.pendReads - 1 }).putPart c part r.sent).partsDone c
  | .scan flow seq h => s.scanDeliver flow seq h r.sent
  | .patrol => s

/-- A read reaches step 5: "Unrecovered Read Error"; with three pages of the row unreadable the module is beyond
its limit. -/
def State.unrecovered (s : State) (id : Nat) (r : MRead) : State :=
  let s := (s.dropRead id).setEv Pg.MEDIA 10
  let s := s.logEv Pg.MEDIA 0x0701 .critical 0 (leBytes 4 r.band ++ leBytes 2 r.row ++ leBytes 2 r.nsx ++ leBytes 8 r.grain)
  match r.who with
  | .ctx c _ => ((s.modCtx c fun x => { x with pendReads := x.pendReads - 1 }).failCtx c St.unrecovered).partsDone c
  | .scan flow seq h => s.scanFail flow seq h
  | .patrol => s

/-- A page was recovered at step 2, 3 or 4: its block goes to the head of the patrol queue. The frame is checked next. -/
def State.recovered (s : State) (id : Nat) (r : MRead) (rebuilt : Bool) : State :=
  match r.who with
  | .patrol => s.dropRead id
  | _ =>
    let s := s.modMedia fun m => { m with patrolHead := insNat (r.loc s) m.patrolHead }
    s.stepRead id (if rebuilt then 7 else 6)

/-- R17, R181 step 1, R240. -/
def execPageReadDone (readId : Nat) (r : DecodeResult) (s : State) : Res :=
  .next <| match KV.get? s.media.reads readId with
    | none => s
    | some x =>
      if x.step ≠ 1 then s
      else match r, x.who with
        | .ok margin, .patrol => (s.dropRead readId).patrolResult (x.loc s) margin false
        | .ok _, _ => s.stepRead readId 6
        | .fail, who =>
          let s := (s.bump (x.lanePage s) Fd.LANE_CNT_COUNT 2).bump Pg.MEDIA Fd.MEDIA_CNT_COUNT 5
          let s := if who = .patrol then s.patrolResult (x.loc s) 0 true else s
          s.stepRead readId 2

/-- R181 steps 2 to 4, R178, R180. -/
def execEscalationStepDone (readId : Nat) (ok : Bool) (s : State) : Res :=
  .next <| match KV.get? s.media.reads readId with
    | none => s
    | some x =>
      let lane := x.lanePage s
      match x.step with
      | 2 =>
        let (n, s) := if ok then s.draw else (6, s)
        let s := s.bumpBy lane Fd.LANE_CNT_COUNT 3 (1 + n % 7)
        if ok then s.recovered readId x false else s.stepRead readId 3
      | 3 =>
        let s := s.bump lane Fd.LANE_CNT_COUNT 4
        if ok then s.recovered readId x false
        else
          let s := s.modBand x.band fun b => { b with badPages := if b.badPages.contains (x.member, x.row) then b.badPages else b.badPages ++ [(x.member, x.row)] }
          s.stepRead readId 4
      | 4 =>
        match KV.get? s.media.bands x.band with
        | none => s.unrecovered readId x
        | some b =>
          let lost := s.rowLost x.band b x.row
          if ok ∧ lost ≤ 2 then
            let s := (s.bump Pg.MEDIA Fd.MEDIA_CNT_COUNT 6).bump Pg.PAR Fd.PAR_CNT_COUNT 0
            let s :=
              if s.media.reconstructed.contains (x.loc s) then s
              else (s.modMedia fun m => { m with reconstructed := insNat (x.loc s) m.reconstructed }).logEv lane 0x0702 .absorbed
            s.recovered readId x true
          else ((s.bump Pg.PAR Fd.PAR_CNT_COUNT 2).unrecovered readId x).preserveFor (if s.inHoldup then 6 else 1)
      | 5 => s.unrecovered readId x
      | _ => s

/-- R170, R385: inflation and the CRC check end. -/
def execInlineInflateDone (readId : Nat) (ok : Bool) (s : State) : Res :=
  .next <| match KV.get? s.media.reads readId with
    | none => s
    | some x =>
      let q := x.loc s / 2097152
      if x.step ≠ 6 ∧ x.step ≠ 7 then s
      else if ok then
        let s := (s.bump (Pg.CMP q) Fd.CMP_CNT_COUNT 2).bump (Pg.XTS q) Fd.XTS_CNT_COUNT 1
        let s := if x.second then s.logEv Pg.MEDIA 0x0707 .absorbed else s
        s.deliverRead readId x
      else
        let s := s.bump (Pg.CMP q) Fd.CMP_CNT_COUNT 6
        if x.step = 7 then s.unrecovered readId x
        else
          let s := if x.second then s else s.bump Pg.MEDIA Fd.MEDIA_CNT_COUNT 5
          s.modMedia fun m => { m with reads := KV.adjust m.reads readId fun r => { r with step := 4, second := true } }

/-! ## Rebuild (R24, R182, R230, R234) -/

/-- Remaining margin of a band and its number, in rebuild order; `none`: nothing to rebuild. -/
def State.rebuildRank (s : State) (n : Nat) (b : Band) : Option Nat :=
  let lost := (s.lostMembers b).length
  if b.state = .open_ ∨ b.state = .erasable ∨ 3 ≤ lost then none
  else if lost = 0 then (if b.badPages.isEmpty then none else some (2 * 2 ^ 32 + n))
  else some ((2 - lost) * 2 ^ 32 + n)
/-- The band whose rebuild is next. -/
def State.rebuildBand (s : State) : Option Nat :=
  ((s.media.bands.filterMap fun e => s.rebuildRank e.1 e.2).foldl (fun (r : Option Nat) k =>
    match r with | none => some k | some j => some (min j k)) none).map (· % 2 ^ 32)
/-- The spare block for a rebuild: on a lane without another member, least worn, lowest place. -/
def State.rebuildTarget (s : State) (b : Band) : Option Nat :=
  let used := b.members.map (· / 131072)
  leastWear (((List.range 64).filter fun l => ! used.contains l && ! s.fence.lanes.contains l).flatMap fun l =>
    (dieList l).flatMap fun d => s.dieCands d true false)

/-- R182. -/
def execMemberRebuildCommit (band : Nat) (member : Fin 34) (s : State) : Res :=
  .next <| match KV.get? s.media.bands band with
    | none => s
    | some b =>
      let m := member.val
      if s.rebuildBand ≠ some band ∨ ! (s.memberLost b m ∨ b.badPages.any fun p => p.1 = m) then s
      else match s.rebuildTarget b with
        | none => if s.mode.mode = .preserve then s.logEv Pg.MEDIA 0x0907 .critical 0 (retireData s) else s
        | some loc =>
          let old := b.members.getD m 0
          let lane := loc / 131072
          let s := s.modBand band fun b =>
            { b with
              members := b.members.set m loc
              unreadable := b.unreadable.filter (· ≠ m)
              badPages := b.badPages.filter fun p => p.1 ≠ m
              aliases := b.aliases ++ [(m, old)]
              rebuildRow := 0 }
          let s := s.modBlock old fun k => { k with state := .fenced }
          let s := s.modBlock loc fun k => { k with state := .member, slc := b.slc, progH := s.retNow, reads := 0, patrolled := false, refresh := false, margin := 127 }
          let s := s.journal 0x16 0 (64 * band + m) (mediaLoc loc) (lane / 16)
          let s := ((s.bump Pg.PAR Fd.PAR_CNT_COUNT 1).setEv Pg.PAR 10).logEv Pg.PAR 0x0703 .info 0 (leBytes 4 band ++ [BitVec.ofNat 8 m])
          ((s.refill lane).spareCheck).followReduced

/-! ## Folds (R185, R186, R225) -/

/-- A band holds a block that must be relocated: retire pending, or marked for refresh. -/
def State.holdsRetire (s : State) (b : Band) : Bool := b.members.any fun l => (s.blockRec l).state = .retirePending
def State.holdsRefresh (s : State) (b : Band) : Bool := b.members.any fun l => (s.blockRec l).refresh

/-- The order in which folds take streams. -/
def foldRank (stream : Nat) : Nat := match stream with | 3 => 0 | 2 => 1 | 1 => 2 | 6 => 3 | _ => 4
/-- No read and no row is under way. -/
def State.mediaIdle (s : State) : Bool := s.media.reads.isEmpty && ! s.media.bands.any fun e => e.2.programming
/-- The band that is folded next. -/
def State.foldVictim (s : State) : Option Nat :=
  let ready := s.slcFreePct ≤ s.cfg Pg.MEDIA Fd.MEDIA_FOLD_CTRL_FOLD_HI ∨ s.mediaIdle
  let l := s.media.bands.filter fun e => e.2.state = .closed ∧ e.2.slc ∧ e.2.stream ≠ 5
  let first := l.find? fun e => s.holdsRetire e.2 || s.holdsRefresh e.2 || s.sec.erases.any fun x => x.2.step = 4 && x.2.bands.contains e.1
  match first with
  | some e => some e.1
  | none =>
    let l := l.filter fun e => decide ready || decide (s.cfg Pg.MEDIA Fd.MEDIA_SLC_CTRL_FOLD_AGE_H < s.retNow - e.2.closeH)
    (l.mergeSort fun a b => foldRank a.2.stream < foldRank b.2.stream
      || (foldRank a.2.stream = foldRank b.2.stream && a.2.closeOrder ≤ b.2.closeOrder)).head?.map Prod.fst

/-- A victim's relocation begins. -/
def State.relocate (s : State) (n : Nat) (b : Band) : State :=
  let s := s.modBand n fun b => { b with state := .folding }
  let s := s.modMedia fun m => { m with victims := insNat n m.victims, folding := m.folding || b.slc }
  let (st, slc) := s.victimTo b
  ((if s.holdsRefresh b then s.bump Pg.MEDIA Fd.MEDIA_GC_CNT_COUNT 7 else s).packCopies n st slc).erasableCheck n

/-- R185, R186. -/
def execFoldStart (band : Nat) (s : State) : Res :=
  .next <| match KV.get? s.media.bands band with
    | none => s
    | some b => if s.foldVictim ≠ some band ∨ s.inHoldup then s else s.relocate band b

/-! ## Parity check (R194, R195) -/

/-- CHECK_GO: a closed band's rows are compared with P and Q. -/
def State.startCheck (s : State) : State :=
  let b := s.cfg Pg.PAR Fd.PAR_CHECK_BAND_BAND
  if s.media.checkBusy ∨ ! ((KV.get? s.media.bands b).any fun k => k.state = .closed) then s
  else s.modMedia fun m => { m with checkBusy := true, checkMis := false, checkRow := 0 }

/-- The parity check ends; a row that disagreed is rebuilt from its data pages. -/
def execParityCheckDone (mismatchRow : Option (Fin 4096)) (s : State) : Res :=
  .next <| if ! s.media.checkBusy then s
    else
      let s := (s.modMedia fun m => { m with checkBusy := false }).setEv Pg.PAR 11
      match mismatchRow with
      | none => s
      | some r => (s.modMedia fun m => { m with checkMis := true, checkRow := r.val }).bump Pg.PAR Fd.PAR_CNT_COUNT 4

end Sys2Proof.Machine
end

