-- ==== Sys2Proof/Machine/FlowEvents.lean ====
section
/-! DEFINITION. The events of invocations and their tokens: opening, walking, arrival, timeouts and release (R282 to
R296). -/

namespace Sys2Proof.Machine

/-! ## Opening (R282 to R284) -/

/-- The checks of an invocation at issue, in their order: the namespaces' records on success. -/
def State.execCheck (s : State) (i ix : Nat) (d : ExecDesc) (bufBytes : Nat) : Except Status (Nat × NsS) := do
  let kind := d.outKind.toNat
  if ! (KV.get? s.prog.progs (progKey i ix)).any fun p => p.active then throw St.progNotActive
  let inNs := s.nsOf i d.inNsid
  let outNs := s.nsOf i d.outNsid
  if ! inNs.any (fun n => ! n.2.kv) ∨ (kind = 1 ∧ ! outNs.any fun n => ! n.2.kv) then throw St.invalidNs
  match inNs with
  | none => throw St.invalidNs
  | some (k, n) =>
    let outMrs := KV.get? s.prog.mrs (mrsKey i d.outMrs.toNat)
    let errMrs := KV.get? s.prog.mrs (mrsKey i d.errMrs.toNat)
    if ! d.reservedZero ∨ 2 < kind ∨ d.inSlba % n.grain ≠ 0 ∨ d.inNlb = 0 ∨ d.inNlb % n.grain ≠ 0
        ∨ d.inNlb / n.grain ≤ d.startSeq ∨ 60000000 < d.waitUs ∨ d.errLen % 32 ≠ 0
        ∨ (kind = 2 ∧ (d.outStart % 16 ≠ 0 ∨ d.outLen % 16 ≠ 0 ∨ outMrs.isNone))
        ∨ (d.errMrs.toNat ≠ 0xFFFF ∧ errMrs.isNone) then throw St.invalidField
    if n.nsze < d.inSlba + d.inNlb
        ∨ (kind = 1 ∧ outNs.any fun o => o.2.nsze < d.outStart + d.outLen)
        ∨ (kind = 2 ∧ outMrs.any fun l => l < d.outStart + d.outLen)
        ∨ (d.errMrs.toNat ≠ 0xFFFF ∧ errMrs.any fun l => l < d.errLen) then throw St.lbaRange
    if kind = 0 ∧ bufBytes < 32 then throw St.sglLength
    if kind = 1 ∧ s.mode.mode = .preserve then throw St.writeProtected
    if kind = 1 ∧ s.media.capExceeded then throw St.capExceeded
    return (k, n)

/-- R283, R284. -/
def execFlowOpen (ctx : Nat) (s : State) : Res :=
  .next <| if ! s.prog.pendOpen.contains ctx then s
    else match s.ctx? ctx with
      | none => s
      | some x =>
        match x.op with
        | .executeProgram _ ix d bufBytes =>
          let s := s.modProg fun p => { p with pendOpen := p.pendOpen.filter (· ≠ ctx) }
          match s.execCheck x.inst ix.val d bufBytes with
          | .error st => s.finish ctx st
          | .ok (k, n) =>
            match s.pickFlow x.inst with
            | none => s.modProg fun p => { p with pendOpen := ctx :: p.pendOpen }
            | some f =>
              let waitUs := if d.waitUs = 0 then s.cfg (Pg.TSK (flowHome f)) Fd.TSK_WAIT_DEFAULT_US else d.waitUs
              let fl : Flow :=
                { ctx := ctx, inst := x.inst, gen := x.gen, prog := ix.val, d := d, nsx := k, sectors := n.grain,
                  grain0 := d.inSlba / n.grain, count := d.inNlb / n.grain, waitUs := waitUs, opened := s.prog.nextOpen,
                  base := d.startSeq, placed := d.startSeq, window := [], sent := [], walked := List.replicate 4 d.startSeq,
                  known := List.replicate 4 d.startSeq, since := 0, errors := 0, firstErr := 0, errUsed := 0, outUsed := 0,
                  seg := [], segAt := none, segWait := [], endWith := none }
              s.modProg fun p => { p with nextOpen := p.nextOpen + 1, flows := KV.put p.flows f fl }
        | _ => s

/-! ## The walk (R285, R204) -/

/-- The quadrant that reads a grain for a scan: where its frame lies, or its home. -/
def State.readQuad (s : State) (t : Token) : Nat :=
  let e := t.value.toNat
  if entState e = 2 then entLane e / 16 else s.home (t.aux.toNat / 2 ^ 40) (t.aux.toNat % 2 ^ 40)
/-- The quadrant where a sequence's DATA nodes run. -/
def State.seqQuad (s : State) (f : Flow) (seq : Nat) : Nat :=
  match KV.get? f.sent seq with
  | some t => s.readQuad t
  | none => s.home f.nsx (f.grain0 + seq)

/-- R285. The walker of a quadrant looks at its next grain. -/
def execWalkerGrain (flow : Fin 16384) (quad : Quad) (s : State) : Res :=
  .next <| match s.flow? flow.val with
    | none => s
    | some f =>
      let q := quad.ix
      let at_ := f.walked.getD q 0
      let top := min f.count (f.known.getD q 0 + 4096)
      match ((List.range (top - at_)).find? fun i => s.home f.nsx (f.grain0 + at_ + i) = q), f.endWith with
      | some i, none =>
        let seq := at_ + i
        let grain := f.grain0 + seq
        let first := seq = f.d.startSeq ∨ grain % 512 = 0
        let s := if first then s.hint 1 f.nsx (grain / 512 + 1) (s.cfg Pg.MAPC Fd.MAPC_HINTS_SCAN_AHEAD) f.inst false true else s
        let (there, s) := s.lookup f.nsx (grain / 512) .scan
        if ! there then s
        else
          let s := s.checkTag f.nsx grain
          let e := s.entryOf f.nsx grain
          let s := s.modFlow flow.val fun f => { f with walked := f.walked.set q (seq + 1) }
          match s.flow? flow.val with
          | none => s
          | some f =>
            if entState e = 0 ∧ ! f.d.readUnmapped then s.sendToken (f.token flow.val seq portRelease 3)
            else if entState e = 3 then s.failSeq f flow.val seq 0xFF 0x0281 0
            else
              match s.progOf f with
              | none => s
              | some p =>
                let t : Token :=
                  { f.token flow.val seq p.image.source 1 with value := BitVec.ofNat 64 e, aux := BitVec.ofNat 64 (grainKey f.nsx grain) }
                (s.modFlow flow.val fun f => { f with sent := KV.put f.sent seq t }).sendToken t
      | _, _ => s

/-- R285. BASE goes to every walker. -/
def execBaseBroadcast (flow : Fin 16384) (s : State) : Res :=
  .next <| s.modFlow flow.val fun f => if f.since = 0 then f else { f with since := 0, known := List.replicate 4 f.base }

/-! ## Tokens (R286, R290 to R292) -/

/-- Take a token that is on its way. -/
def State.takeFlight (s : State) (t : Token) : Option State :=
  if s.prog.flight.contains t then some (s.modProg fun p => { p with flight := p.flight.erase t }) else none

/-- R286. A READ token is taken; its grain is read into a buffer, when one is to be had. -/
def execReadTokenReceive (quad : Quad) (flow : Fin 16384) (seq : Nat) (s : State) : Res :=
  .next <|
    let q := quad.ix
    match s.prog.flight.find? fun t => t.kind = 1 && t.flow = flow.val && t.seq = seq with
    | none => s
    | some t =>
      if s.readQuad t ≠ q then s
      else match s.takeFlight t, s.flow? flow.val with
        | some s, some f =>
          if t.gen ≠ s.gen t.inst then s
          else
            let size := match KV.get? s.media.nss f.nsx with | some n => n.grainBytes | none => 0
            match s.bufAlloc q f.inst 0 size with
            | some (h, s) => s.scanRead flow.val seq h
            | none => s.bufWait q ⟨f.inst, 0, size, .scan flow.val seq⟩
        | some s, none => s
        | none, _ => s

/-- R290. -/
def execTokenArrive (quad : Quad) (t : Token) (s : State) : Res :=
  .next <|
    let q := quad.ix
    if t.kind = 1 ∨ 0x3FD ≤ t.port then s
    else match s.takeFlight t with
      | none => s
      | some s' =>
        match s'.flow? t.flow with
        | none => s'.dropToken t
        | some f => if s'.tokenQuad f t.flow t.port (s'.seqQuad f t.seq) ≠ q then s else s'.storeToken q t

/-- R292. The first held token that an entry can be granted to takes it. -/
def execHeldTokenGrant (quad : Quad) (s : State) : Res :=
  .next <|
    let q := quad.ix
    match (s.disp q).held.find? fun t => (s.grantEntry q t).1 with
    | none => s
    | some t => (s.modDisp q fun d => { d with held := d.held.erase t }).storeToken q t

/-- R291. -/
def execPartialMatchTimeout (quad : Quad) (flow : Fin 16384) (seq node : Nat) (s : State) : Res :=
  .next <|
    let q := quad.ix
    match s.flow? flow.val with
    | none => s
    | some f =>
      match s.nodeOf f node with
      | none => s
      | some n =>
        let ins := s.inputsOf q flow.val seq node n.inputs
        let got := ins.filterMap id
        match got with
        | [] => s
        | e :: es =>
          if got.length = ins.length ∨ got.any fun e => e.fired then s
          else
            let s := s.reach (es.foldl (fun t e => min t e.at_) e.at_ + usec f.waitUs)
            let s := (List.range n.inputs).foldl (fun s k => s.freeEntry q (tokenKey flow.val seq (4 * node + k))) s
            let s := s.modDisp q fun d => { d with tombs := KV.put d.tombs (tokenKey flow.val seq (4 * node)) f.inst }
            let s := (s.bump (Pg.TSK q) Fd.TSK_CNT_COUNT 2).setEv (Pg.TSK q) 10
            let s := s.logEv (Pg.TSK q) 0x0B04 .info f.inst (leBytes 2 flow.val ++ leBytes 5 seq ++ [BitVec.ofNat 8 node])
            s.failSeq f flow.val seq node 0x0785 node

/-! ## Release (R288, R290, R294 to R296) -/

/-- R294. -/
def execResultArrive (t : Token) (s : State) : Res :=
  .next <| if t.port ≠ portRelease then s
    else match s.takeFlight t with
      | none => s
      | some s => s.resultIn t

/-- R290. A released sequence's entries in a quadrant are freed. -/
def execRetireMessage (quad : Quad) (flow : Fin 16384) (seq : Nat) (s : State) : Res :=
  .next <| match s.flow? flow.val with
    | none => s
    | some f => if f.base ≤ seq then s else s.retireSeq quad.ix flow.val seq

/-- R296. 1 ms after the first record of an output segment. -/
def execOutputSegmentTimer (flow : Fin 16384) (s : State) : Res :=
  .next <| match s.flow? flow.val with
    | none => s
    | some f =>
      match f.segAt with
      | none => s
      | some t => ((s.reach (t + msec 1)).closeSegment flow.val (2 ^ 30)).segAcks flow.val 4096

/-- R287, R288. -/
def execErrorTokenArrive (t : Token) (s : State) : Res :=
  .next <| if t.port ≠ portError then s
    else match s.takeFlight t with
      | none => s
      | some s => s.errorIn t

end Sys2Proof.Machine
end

