-- ==== Sys2Proof/Machine/Encoding.lean ====
section
/-! DEFINITION. The words of the Kwalia cores: which words R333 accepts, and the word of each instruction (R333 to
R339). -/

namespace Sys2Proof.Machine

/-! ## The opcode table -/

/-- A row: opcode, the FN values it takes where it has an FN, the bits that must be zero, and the bits that its
instruction does not use, which are not looked at. -/
structure KRow where
  op : Nat
  fns : Option (Nat × Nat)
  zero : Word
  skip : Word
deriving DecidableEq, Repr

/-- R334 and R335. -/
def kwRows0 : List KRow :=
  [⟨0x00, some (0x00, 0x17), 0, 0⟩, ⟨0x00, some (0x18, 0x1C), 0xF80, 0⟩, ⟨0x00, some (0x1D, 0x1D), 0x3E0000, 0⟩,
   ⟨0x01, none, 0, 0⟩, ⟨0x02, none, 0, 0⟩, ⟨0x03, none, 0, 0⟩, ⟨0x04, none, 0, 0⟩, ⟨0x05, none, 0xFE0, 0⟩,
   ⟨0x06, none, 0xFE0, 0⟩, ⟨0x07, none, 0xFE0, 0⟩, ⟨0x08, none, 0xFE0, 0⟩, ⟨0x09, none, 0x3E0000, 0⟩, ⟨0x0A, none, 0, 0⟩,
   ⟨0x0B, none, 0x10000, 0⟩]
/-- R336 and R337; REP stands aside. -/
def kwRows1 : List KRow :=
  [⟨0x10, none, 0, 0⟩, ⟨0x11, none, 0, 0⟩, ⟨0x12, none, 0, 0⟩, ⟨0x13, none, 0, 0⟩, ⟨0x14, none, 0, 0⟩, ⟨0x15, none, 0, 0⟩,
   ⟨0x16, none, 0, 0⟩, ⟨0x17, none, 0, 0⟩, ⟨0x18, none, 0x200000, 0⟩, ⟨0x19, none, 0x200000, 0⟩,
   ⟨0x20, none, 0, 0⟩, ⟨0x21, none, 0, 0⟩, ⟨0x22, none, 0x3E0FFF, 0⟩, ⟨0x23, none, 0x3E0FFF, 0⟩, ⟨0x24, none, 0x3FFFFF, 0⟩,
   ⟨0x25, none, 0x3E0000, 0⟩, ⟨0x26, none, 0, 0⟩, ⟨0x28, none, 0x3FFFFF, 0⟩, ⟨0x29, none, 0x3FFFFF, 0⟩,
   ⟨0x2A, none, 0x1F000, 0⟩, ⟨0x2B, none, 0x3E0000, 0⟩]
/-- R338 and R339. -/
def kwRows2 : List KRow :=
  [⟨0x30, some (0, 9), 0x300000, 0⟩, ⟨0x31, some (0, 14), 0x31FF80, 0⟩, ⟨0x32, some (0, 3), 0x318C00, 0⟩,
   ⟨0x32, some (4, 4), 0x318000, 0xF80⟩, ⟨0x33, none, 0x300000, 0x10000⟩, ⟨0x34, none, 0x300000, 0xFFF⟩,
   ⟨0x35, none, 0x18000, 0xFFF⟩, ⟨0x36, none, 0x18000, 0xFFF⟩, ⟨0x38, some (0, 12), 0x210800, 0⟩,
   ⟨0x38, some (13, 13), 0x210000, 0xF80⟩, ⟨0x39, some (0, 9), 0x310800, 0⟩, ⟨0x3A, none, 0x200000, 0xFFF⟩,
   ⟨0x3B, none, 0x10000, 0xFF0⟩, ⟨0x3C, none, 0x200000, 0xFF0⟩, ⟨0x3D, none, 0x10000, 0xFFF⟩,
   ⟨0x3F, some (0, 0), 0x380000, 0xF80⟩, ⟨0x3F, some (1, 1), 0x380000, 0⟩, ⟨0x3F, some (2, 2), 0x380000, 0x1FF80⟩,
   ⟨0x3F, some (3, 3), 0, 0x3E0F80⟩, ⟨0x3F, some (4, 4), 0, 0xF80⟩, ⟨0x3F, some (5, 5), 0, 0x3E0F80⟩,
   ⟨0x3F, some (6, 8), 0, 0x3E0000⟩]

/-- OP and FN of a word. -/
def kwOp (w : Word) : Nat := bitsOf w.toNat 27 22
def kwFn (w : Word) : Nat := bitsOf w.toNat 6 0
def KRow.takes (r : KRow) (w : Word) : Bool :=
  r.op = kwOp w && match r.fns with
    | some (lo, hi) => decide (lo ≤ kwFn w) && decide (kwFn w ≤ hi)
    | none => true

/-- OFF12 of LOOP and LOOPI is at least 1. -/
def kwOffOk (w : Word) : Bool := ! ((kwOp w = 0x25 || kwOp w = 0x26) && w &&& 0xFFF = 0)
/-- REP: a count of 1 to 65,535 with R = 0, a register with R = 1. -/
def kwRepOk (w : Word) : Bool := if w.getLsbD 21 then w &&& 0xFFFF = 0 else w &&& 0x1F0000 = 0 && w &&& 0xFFFF ≠ 0

/-- The word of an instruction with the bits cleared that it does not use; `none` where R333 raises ILLEGAL_OP. -/
def kwCanon (w : Word) : Option Word :=
  if kwOp w = 0x27 then if kwRepOk w then some w else none
  else match (kwRows0 ++ kwRows1 ++ kwRows2).find? fun r => r.takes w with
    | none => none
    | some r => if w &&& r.zero = 0 && kwOffOk w then some (w &&& ~~~r.skip) else none

/-! ## Encoding -/

def encG (g : Guard) (op low : Nat) : Word := BitVec.ofNat 32 (g.neg.toNat * 2 ^ 31 + g.p.val * 2 ^ 28 + op * 2 ^ 22 + low)
def encF (g : Guard) (op d a b fn : Nat) : Word := encG g op (d * 2 ^ 17 + a * 2 ^ 12 + b * 2 ^ 7 + fn)
def encR (x : RArgs) (fn : Nat) : Word := encF x.g 0 x.d.val x.a.val x.b.val fn
def encI (x : IArgs) (op : Nat) : Word := encG x.g op (x.d.val * 2 ^ 17 + x.a.val * 2 ^ 12 + x.imm.toNat)
def encU (x : UArgs) (op : Nat) : Word := encG x.g op (x.d.val * 2 ^ 17 + x.imm.toNat)
def encM (x : MArgs) (op : Nat) : Word :=
  encG x.g op (x.d.val * 2 ^ 17 + x.a.val * 2 ^ 12 + x.post.toNat * 2 ^ 11 + x.imm.toNat)
def encV (x : VArgs) (fn : Nat) : Word := encF x.g 0x38 x.d.val x.a.val x.b.val fn
def encP (x : PArgs) (fn : Nat) : Word := encF x.g 0x32 x.d.val x.a.val x.b.val fn

def encRep (c : CArgs) : RepCount → Word
  | .imm n => encG c.g 0x27 n.toNat
  | .reg a => encG c.g 0x27 (2 ^ 21 + a.val * 2 ^ 16)

/-- The word of a Kwalia instruction; `none` for every other command. -/
def kwEncode : Instr → Option Word
  | .kAdd x => some (encR x 0x00) | .kAdc x => some (encR x 0x01) | .kSub x => some (encR x 0x02) | .kSbc x => some (encR x 0x03)
  | .kAnd x => some (encR x 0x04) | .kOr x => some (encR x 0x05) | .kXor x => some (encR x 0x06) | .kAndn x => some (encR x 0x07)
  | .kShl x => some (encR x 0x08) | .kShr x => some (encR x 0x09) | .kSar x => some (encR x 0x0A) | .kRor x => some (encR x 0x0B)
  | .kRol x => some (encR x 0x0C) | .kMin x => some (encR x 0x0D) | .kMax x => some (encR x 0x0E) | .kMinu x => some (encR x 0x0F)
  | .kMaxu x => some (encR x 0x10) | .kMul x => some (encR x 0x11) | .kMulhs x => some (encR x 0x12)
  | .kMulhu x => some (encR x 0x13) | .kDivs x => some (encR x 0x14) | .kDivu x => some (encR x 0x15)
  | .kRems x => some (encR x 0x16) | .kRemu x => some (encR x 0x17) | .kNeg x => some (encR x 0x18) | .kNot x => some (encR x 0x19)
  | .kClz x => some (encR x 0x1A) | .kPopc x => some (encR x 0x1B) | .kBswap x => some (encR x 0x1C) | .kCmp x => some (encR x 0x1D)
  | .kAddi x => some (encI x 0x01) | .kAndi x => some (encI x 0x02) | .kOri x => some (encI x 0x03) | .kXori x => some (encI x 0x04)
  | .kShli x => some (encI x 0x05) | .kShri x => some (encI x 0x06) | .kSari x => some (encI x 0x07) | .kRori x => some (encI x 0x08)
  | .kCmpi x => some (encI x 0x09) | .kMovi x => some (encU x 0x0A) | .kMovh x => some (encU x 0x0B)
  | .kLdw x => some (encM x 0x10) | .kLdh x => some (encM x 0x11) | .kLdhu x => some (encM x 0x12) | .kLdb x => some (encM x 0x13)
  | .kLdbu x => some (encM x 0x14) | .kStw x => some (encM x 0x15) | .kSth x => some (encM x 0x16) | .kStb x => some (encM x 0x17)
  | .kVld x => some (encM x 0x18) | .kVst x => some (encM x 0x19)
  | .kBr x => some (encG x.g 0x20 x.off.toNat) | .kCall x => some (encG x.g 0x21 x.off.toNat)
  | .kJr c a => some (encF c.g 0x22 0 a.val 0 0) | .kCallr c a => some (encF c.g 0x23 0 a.val 0 0) | .kRet c => some (encG c.g 0x24 0)
  | .kLoop c a off => some (encG c.g 0x25 (a.val * 2 ^ 12 + off.toNat))
  | .kLoopi c n off => some (encG c.g 0x26 (n.toNat * 2 ^ 12 + off.toNat))
  | .kRep c n => some (encRep c n)
  | .kEnd c => some (encG c.g 0x28 0) | .kNop c => some (encG c.g 0x29 0)
  | .kMfsr c d sr => some (encG c.g 0x2A (d.val * 2 ^ 17 + sr.toNat)) | .kMtsr c a sr => some (encG c.g 0x2B (a.val * 2 ^ 12 + sr.toNat))
  | .kPcmp c d a b cond => some (encF c.g 0x30 d.val a.val b.val cond.toNat) | .kPflag c d cond => some (encF c.g 0x31 d.val 0 0 cond.toNat)
  | .kPlogAnd x => some (encP x 0) | .kPlogOr x => some (encP x 1) | .kPlogXor x => some (encP x 2) | .kPlogAndn x => some (encP x 3)
  | .kPlogNot x => some (encF x.g 0x32 x.d.val x.a.val 0 4) | .kPset c d imm => some (encG c.g 0x33 (d.val * 2 ^ 17 + imm.toNat))
  | .kPmov c d a => some (encF c.g 0x34 d.val a.val 0 0) | .kPget c d a => some (encF c.g 0x35 d.val a.val 0 0)
  | .kPcnt c d a => some (encF c.g 0x36 d.val a.val 0 0)
  | .kVadd x => some (encV x 0) | .kVsub x => some (encV x 1) | .kVmul x => some (encV x 2) | .kVand x => some (encV x 3)
  | .kVor x => some (encV x 4) | .kVxor x => some (encV x 5) | .kVshl x => some (encV x 6) | .kVshr x => some (encV x 7)
  | .kVsar x => some (encV x 8) | .kVmin x => some (encV x 9) | .kVmax x => some (encV x 10) | .kVminu x => some (encV x 11)
  | .kVmaxu x => some (encV x 12) | .kVmov x => some (encF x.g 0x38 x.d.val x.a.val 0 13)
  | .kVcmp c d a b cond => some (encF c.g 0x39 d.val a.val b.val cond.toNat) | .kVbcast c d a => some (encF c.g 0x3A d.val a.val 0 0)
  | .kVext c d a l => some (encF c.g 0x3B d.val a.val 0 l.val) | .kVins c d a l => some (encF c.g 0x3C d.val a.val 0 l.val)
  | .kVsum c d a => some (encF c.g 0x3D d.val a.val 0 0)
  | .kSendv c arc a => some (encF c.g 0x3F arc.val a.val 0 0) | .kSendb c arc a b => some (encF c.g 0x3F arc.val a.val b.val 1)
  | .kSendn c arc => some (encF c.g 0x3F arc.val 0 0 2) | .kSendh c a => some (encF c.g 0x3F 0 a.val 0 3)
  | .kBalloc c d a => some (encF c.g 0x3F d.val a.val 0 4) | .kBrel c a => some (encF c.g 0x3F 0 a.val 0 5)
  | .kL2pf c a b => some (encF c.g 0x3F 0 a.val b.val 6) | .kL2rel c a b => some (encF c.g 0x3F 0 a.val b.val 7)
  | .kL2wb c a b => some (encF c.g 0x3F 0 a.val b.val 8)
  | .kUnassigned _ w => some w
  | _ => none

end Sys2Proof.Machine
end

