-- ==== Sys2Proof/Machine/KwOps.lean ====
section
/-! DEFINITION. How the Kwalia cores run: starting a task, the run of one instruction under its guard and REP, the end test
of the loops, exceptions, and the cluster's L2 (R293, R298 to R300, R322 to R333, R340 to R345). -/

namespace Sys2Proof.Machine

def State.core (s : State) (c : Nat) : CoreS := KV.getD .init s.kw.cores c
def State.modCore (s : State) (c : Nat) (f : CoreS → CoreS) : State :=
  s.modKw fun k => { k with cores := KV.modify .init k.cores c f }
def State.putRun (s : State) (c : Nat) (r : TaskRun) : State := s.modCore c fun x => { x with run := some r }
/-- The page of a core's cluster. -/
def cluPage (c : Nat) : Nat := Pg.CLU (c / 64) (c % 64 / 16)

/-! ## Starting a task (R293, R324, R326) -/

/-- The 256 bytes of the frame region. -/
def frameBytes (t : Task) (f : Flow) (n : Node) (toks : List (Option Token)) : List Byte :=
  let img := (List.range 4).flatMap fun k => match toks.getD k none with | some t => tokenBytes t | none => zeros 32
  img ++ sliceB f.d.params 0 64 ++ leBytes 5 t.seq
    ++ [BitVec.ofNat 8 t.node, BitVec.ofNat 8 t.inst, BitVec.ofNat 8 t.attempt, BitVec.ofNat 8 n.outputs, 0]
    ++ leBytes 2 t.flow ++ leBytes 2 f.gen ++ [0, 0] ++ leBytes 4 (n.scratchKib * 1024) ++ leBytes 4 n.budgetUs ++ zeros 40

/-- A task's first state on a core. -/
def TaskRun.start (t : Task) (f : Flow) (n : Node) (im : Image) (toks : List (Option Token)) (rswrap : Bool) (now : Nat) : TaskRun :=
  { task := t, node := n, gen := f.gen, started := now, stalled := 0, stallAt := none, ballocD := 0, rswrap := rswrap,
    g := [], p := [], v := [], pc := n.entry, flags := .zero, dze := false, repcnt := 0, rep := false, ls := [0, 0, 0],
    le := [0, 0, 0], lc := [0, 0, 0], ldepth := 0, rstack := [],
    scratch := Mem.writeBytes [] 0x3C000 (frameBytes t f n toks), code := im.code, rodata := im.rodata, inputs := toks,
    inLive := toks.map fun t => t.any (·.buf), slots := [], sends := [], hints := [], incs := [], decs := [] }

/-- Idle healthy cores of a quadrant, ascending. -/
def State.idleCores (s : State) (q : Nat) : List Nat :=
  if ! s.kw.tested then []
  else (List.range 64).filter fun k =>
    let x := s.core (64 * q + k)
    ! coreFenced s.fence q k && x.run.isNone && ! x.testing
/-- The core for a task (R293). -/
def State.pickCore (s : State) (q : Nat) (t : Task) : Option Nat :=
  let idle := s.idleCores q
  let same := fun (cl : Nat) => (List.range 16).any fun k => match (s.core (64 * q + 16 * cl + k)).run with
    | some r => r.task.inst = t.inst && r.task.prog = t.prog
    | none => false
  let near := if s.cfgB (Pg.TSK q) Fd.TSK_DISPATCH_AFFINITY then idle.filter fun k => same (k / 16) else []
  match near with
  | k :: _ => some k
  | [] => idle.head?

/-! ## The cluster's L2 (R216, R345) -/

def State.cluster (s : State) (q cl : Nat) : ClusterS := KV.getD .init s.kw.clusters (4 * q + cl)
def State.modCluster (s : State) (q cl : Nat) (f : ClusterS → ClusterS) : State :=
  s.modKw fun k => { k with clusters := KV.modify .init k.clusters (4 * q + cl) f }
def ClusterS.setOf (c : ClusterS) (line : Nat) : Nat := mix line c.ks0 c.ks1 % 4096
/-- An access to a line: a hit, or a miss that takes a way; a dirty victim is written back. -/
def State.l2Touch (s : State) (q cl line : Nat) (write pref : Bool) : State :=
  let c := s.cluster q cl
  if ! c.enabled then s
  else
    let ix := c.setOf line
    let t := KV.getD .empty c.sets ix
    let put := fun (s : State) (w : Nat) (x : Way) =>
      s.modCluster q cl fun c =>
        { c with sets := KV.put c.sets ix (((t.modWay w fun _ => x).access w pref).modWay w fun y => { y with pref := x.pref }) }
    match t.find 0 line with
    | some w =>
      let x := t.ways.getD w .empty
      put s w { x with dirty := x.dirty || write, pref := x.pref && pref }
    | none =>
      match t.victim with
      | none => s
      | some w => (put s w { Way.fresh 0 line pref with dirty := write }).bump (Pg.CLU q cl) Fd.CLU_CNT_COUNT 6
/-- Change a resident line of an L2. -/
def State.l2Line (s : State) (q cl line : Nat) (f : CacheSet → Nat → CacheSet) : State :=
  let c := s.cluster q cl
  let ix := c.setOf line
  match (KV.getD .empty c.sets ix).find 0 line with
  | none => s
  | some w => s.modCluster q cl fun c => { c with sets := KV.modify .empty c.sets ix fun t => f t w }
/-- The number of the L2 line behind an address of a window; `none` where it is not backed by DRAM. -/
def TaskRun.l2Line (r : TaskRun) : Window → Option Nat
  | .rodata off => some (Config.dramLine (2 ^ 60 + progKey r.task.inst r.task.prog * 2 ^ 32 + off / 64))
  | .input h off => if keyPool (h / 4096) = 1 then some (Config.dramLine (h / 4096 * 2 ^ 20 + off / 64)) else none
  | .output _ h off => if keyPool (h / 4096) = 1 then some (Config.dramLine (h / 4096 * 2 ^ 20 + off / 64)) else none
  | _ => none
/-- A load's or a store's access passes through the L2 where its window is cached. -/
def State.l2Data (s : State) (c : Nat) (r : TaskRun) (a n : Nat) (write : Bool) : State :=
  match (r.window a n).bind r.l2Line with
  | some line => s.l2Touch (c / 64) (c % 64 / 16) line write false
  | none => s

/-! ## Loops (R328, R329) -/

/-- The end test at the instruction just completed; `n` levels at most. -/
def TaskRun.endTest (r : TaskRun) : Nat → TaskRun
  | 0 => { r with pc := r.pc + 4 }
  | n + 1 =>
    let m := r.ldepth - 1
    if 0 < r.ldepth ∧ r.pc = (r.le.getD m 0).toNat then
      let c := r.lc.getD m 0
      if c.toNat ≤ 1 then TaskRun.endTest { r with lc := r.lc.set m 0, ldepth := m } n
      else { r with lc := r.lc.set m (c - 1), pc := (r.ls.getD m 0).toNat }
    else { r with pc := r.pc + 4 }
/-- The instruction completes. -/
def TaskRun.advance (r : TaskRun) : TaskRun := r.endTest 4
/-- One iteration under REP, or the instruction, completes. -/
def TaskRun.iterate (r : TaskRun) : TaskRun :=
  if r.rep then
    let r := { r with repcnt := r.repcnt - 1 }
    if r.repcnt = 0 then { r with rep := false }.advance else r
  else r.advance
/-- A taken branch closes the loops that its target leaves. -/
def TaskRun.branch (r : TaskRun) (target : Nat) : Nat → TaskRun
  | 0 => { r with pc := target }
  | n + 1 =>
    let m := r.ldepth - 1
    if 0 < r.ldepth ∧ (target < (r.ls.getD m 0).toNat ∨ (r.le.getD m 0).toNat < target) then
      TaskRun.branch { r with ldepth := m } target n
    else { r with pc := target }

/-! ## Exceptions (R300, R343, R344) -/

/-- The exception codes. -/
def Exc.ILLEGAL_OP : Nat := 1
def Exc.ILLEGAL_PREFIX : Nat := 2
def Exc.STACK_OVERFLOW : Nat := 3
def Exc.STACK_UNDERFLOW : Nat := 4
def Exc.DIV_ZERO : Nat := 5
def Exc.ALIGN : Nat := 6
def Exc.MEM_FAULT : Nat := 7
def Exc.BOUNDS : Nat := 8
def Exc.LOOP_NEST : Nat := 9
def Exc.WATCHDOG : Nat := 10

/-- An exception is taken: the core's last exception, the task's end, and its ERROR and VOID tokens. -/
def State.takeExc (s : State) (c : Nat) (r : TaskRun) (code : Nat) : State :=
  let t := r.task
  let s := s.modCore c fun x => { x with excCode := code, excInst := t.inst, excPc := r.pc }
  let s := (s.setEv (cluPage c) 8).bump (cluPage c) Fd.CLU_CNT_COUNT 1
  let s := s.dropTask c
  let s := s.logEv (cluPage c) 0x0D01 .info t.inst
    ([BitVec.ofNat 8 code] ++ leBytes 3 r.pc ++ [BitVec.ofNat 8 t.node, BitVec.ofNat 8 t.prog])
  match s.flow? t.flow with
  | none => s
  | some f => s.failSeq f t.flow t.seq t.node 0x0784 (code + r.pc % 2 ^ 20 * 2 ^ 32)

/-! ## One instruction -/

/-- How the body of an instruction ends: completed, with its own PC, by an exception, waiting, or with the task. -/
inductive KOut where
  | next (s : State) (r : TaskRun)
  | goto (s : State) (r : TaskRun)
  | exc (code : Nat) (r : TaskRun)
  | wait (s : State) (r : TaskRun)
  | fin (s : State)

/-- The word at the PC of a task; `none`: a fetch outside CODE, or a misaligned one (R325). -/
def TaskRun.fetch (r : TaskRun) : Option Word :=
  if r.pc % 4 = 0 ∧ r.pc + 4 ≤ r.code.length then some (BitVec.ofNat 32 (leNat (sliceB r.code r.pc 4))) else none

/-- An instruction runs on a core. It has no effect where the core runs no task, its BALLOC waits, or the word at its PC
holds another instruction than `i`. `vec`: its guard is a lane mask; `ill`: it names a special register that does not exist, or its
word breaks a rule of R333 (as every word does that `kwCanon` refuses); `noRep`: R332 forbids it under REP. -/
def State.kStep (s : State) (i : Word) (core : CoreId) (g : Guard) (vec ill noRep : Bool) (body : State → TaskRun → KOut) : State :=
  let c := core.key
  match (s.core c).run with
  | none => s
  | some r =>
    if r.stallAt.isSome then s
    else match r.fetch with
    | none => s.takeExc c r Exc.MEM_FAULT
    | some w =>
      if (kwCanon w).getD w ≠ i then s
      else
        let on := if vec then decide (r.mask g ≠ 0) else r.holds g
        let r0 := if r.rep then { r with pc := r.pc - 4 } else r
        if on ∧ (ill ∨ (kwCanon w).isNone) then s.takeExc c r0 Exc.ILLEGAL_OP
        else if r.rep ∧ noRep then s.takeExc c r0 Exc.ILLEGAL_PREFIX
        else if r.rep ∧ r.repcnt = 0 then s.putRun c { r with rep := false }.advance
        else if ! on then s.putRun c r.iterate
        else match body s r with
          | .next s r => s.putRun c r.iterate
          | .goto s r => s.putRun c r
          | .exc code r => s.takeExc c r code
          | .wait s r => s.putRun c r
          | .fin s => s

/-- A register ALU instruction (R334). -/
def State.kAlu (s : State) (i : Word) (x : RArgs) (f : Flags → Word → Word → AluRes) (write : Bool := true) : State :=
  s.kStep i x.core x.g false false false fun s r =>
    let a := f r.flags (r.rg x.a) (r.rg x.b)
    if a.dz ∧ r.dze then .exc Exc.DIV_ZERO { r with flags := { r.flags with dz := true } }
    else
      let r := { r with flags := r.flags.after a }
      .next s (if write then r.setG x.d a.d else r)
/-- An immediate instruction (R335). -/
def State.kImm (s : State) (i : Word) (x : IArgs) (b : Word) (f : Flags → Word → Word → AluRes) (write : Bool := true) : State :=
  s.kStep i x.core x.g false false false fun s r =>
    let a := f r.flags (r.rg x.a) b
    let r := { r with flags := r.flags.after a }
    .next s (if write then r.setG x.d a.d else r)

/-- A scalar load of `n` bytes (R336): the loaded value wins over the increment. -/
def State.kLoad (s : State) (i : Word) (x : MArgs) (n : Nat) (ext : List Byte → Word) : State :=
  s.kStep i x.core x.g false false false fun s r =>
    let a := x.addr r
    if a % n ≠ 0 then .exc Exc.ALIGN r
    else match kwRead s r a n with
      | none => .exc Exc.MEM_FAULT r
      | some l => .next (s.l2Data x.core.key r a n false) ((x.bump r).setG x.d (ext l))
/-- A scalar store of the low `n` bytes of D. -/
def State.kStore (s : State) (i : Word) (x : MArgs) (n : Nat) : State :=
  s.kStep i x.core x.g false false false fun s r =>
    let a := x.addr r
    if a % n ≠ 0 then .exc Exc.ALIGN r
    else
      let s' := s.l2Data x.core.key r a n true
      match kwWrite s' r a (leBytes n (r.rg x.d).toNat) with
      | none => .exc Exc.MEM_FAULT r
      | some (s, r) => .next s (x.bump r)

def signW (n : Nat) (l : List Byte) : Word :=
  let v := leNat l
  BitVec.ofNat 32 (if v.testBit (8 * n - 1) then v + 2 ^ 32 - 2 ^ (8 * n) else v)
def zeroW (l : List Byte) : Word := BitVec.ofNat 32 (leNat l)

/-- An arc may not be sent on: at or above OUTPUTS, or sent already (R340). -/
def TaskRun.arcBad (r : TaskRun) (arc : Fin 4) : Bool := decide (r.node.outputs ≤ arc.val) || (KV.get? r.sends arc.val).isSome
/-- The buffer of a slot 0 to 7, or of an input 8 to 11: its handle and extent. -/
def TaskRun.slotBuf (r : TaskRun) (k : Nat) : Option (Nat × Nat) :=
  if k < 8 then (KV.get? r.slots k).bind fun s => if s.live then some (s.handle, s.extent) else none
  else match r.inputs[k - 8]? with
    | some (some t) => if t.buf ∧ r.inLive.getD (k - 8) false ∧ k < 12 then some (t.value.toNat % 2 ^ 41, t.aux.toNat % 2 ^ 32) else none
    | _ => none
/-- A token that a task holds for an arc. -/
def TaskRun.hold (r : TaskRun) (arc : Fin 4) (kind : Nat) (buf : Bool) (value aux : Dword) : TaskRun :=
  let t := r.task
  let tok : Token :=
    { flow := t.flow, seq := t.seq, port := r.node.arcs.getD arc.val 0, kind := kind, buf := buf, last := false, attempt := t.attempt,
      inst := t.inst, node := t.node, gen := r.gen, err := 0, value := value, aux := aux }
  { r with sends := KV.put r.sends arc.val tok }

/-- Bytes of a task's scratch, for SENDV and SENDH. -/
def TaskRun.scratchAt (r : TaskRun) (a n : Nat) : Option (List Byte) :=
  if a + n ≤ r.node.scratchKib * 1024 then some (r.scratch.readBytes a n) else none

/-- A buffer request of a BALLOC has been served (R339). -/
def TaskRun.gotBuf (r : TaskRun) (reg slot h size : Nat) : TaskRun :=
  (r.setG (Fin.ofNat 32 reg) (BitVec.ofNat 32 slot)) |> fun r => { r with slots := KV.put r.slots slot ⟨h, size, 0, true⟩ }

/-- A hint command of a program (R204, R281). -/
def State.taskHint (s : State) (inst cmd : Nat) : State :=
  let op := cmd / 2 ^ 60
  if op = 1 ∨ op = 2 then s.hint op (bitsOf cmd 59 48) (bitsOf cmd 47 8) (bitsOf cmd 7 0 + 1) inst false false
  else (s.modCache 0 (·.count 7 1)).setEv Pg.MAPC 13

/-- A clean END (R339, R340). -/
def State.kEndTask (s : State) (c : Nat) (r : TaskRun) : State :=
  let t := r.task
  let s := r.incs.foldl (fun s h => s.incRef h) s
  let s := r.decs.foldl (fun s h => s.decRef h) s
  let s := (r.slots.filter fun e => e.2.live && e.2.sends = 0).foldl (fun s e => s.decRef e.2.handle) s
  let s := s.dropInputs (c / 64) t.flow t.seq t.node r.node.inputs
  let s := r.hints.reverse.foldl (fun s h => s.taskHint t.inst h) s
  let s := (r.slots.filter fun e => e.2.sends ≠ 0 && keyPool (e.2.handle / 4096) = 1).foldl (fun s e =>
    (List.range (cdiv e.2.extent 64)).foldl (fun s n =>
      s.l2Line (c / 64) (c % 64 / 16) (Config.dramLine (e.2.handle / 4096 * 2 ^ 20 + n)) fun t w => t.modWay w fun y => { y with dirty := false }) s) s
  let last := match s.flow? t.flow with | some f => t.seq + 1 = f.count | none => false
  let s := r.sends.foldl (fun s e => s.sendToken { e.2 with last := last }) s
  s.idleCore c r

end Sys2Proof.Machine
end

