-- ==== Sys2Proof/Machine/EngineEvents.lean ====
section
/-! DEFINITION. The engines' task items: scanning, compression, decompression and digests, and the probe (R280, R293, R298,
R354 to R360, R369, R381 to R390, R394 to R399). -/

namespace Sys2Proof.Machine

/-! ## Results of an engine task (R280, R311) -/

/-- The item of a reference, on the unit it names. -/
def State.itemOn (s : State) (t : TaskRef) (kind : Nat) : Option (EngItem × Flow × Node × Token) :=
  let q := t.quad.ix
  match (s.disp q).engine.find? fun e => e.kind = kind && e.task.flow = t.flow && e.task.seq = t.seq && e.task.node = t.node with
  | none => none
  | some e =>
    if kind ≠ 4 ∧ e.unit ≠ some t.unit.val then none
    else match s.flow? t.flow, s.itemToken q e.task with
      | some f, some k => (s.nodeOf f t.node).map fun n => (e, f, n, k)
      | _, _ => none
/-- The item waits for its output buffer. -/
def State.itemWaits (s : State) (q : Nat) (t : Task) : Bool :=
  (s.pool q).waits.any fun w => w.who = .engine q t.flow t.seq t.node
/-- A result goes out on ARC[0], the input on ARC[1] with a reference of its own, and the item ends. -/
def State.engSend (s : State) (q : Nat) (t : Task) (f : Flow) (n : Node) (k : Token) (buf : Bool) (value aux : Nat) : State :=
  let out : Token :=
    { f.token t.flow t.seq (n.arcs.getD 0 0) 2 with
      node := t.node, attempt := t.attempt, buf := buf, value := BitVec.ofNat 64 value, aux := BitVec.ofNat 64 aux }
  let s := if 1 ≤ n.outputs then s.sendToken out else if buf then s.decRef value else s
  let s :=
    if 2 ≤ n.outputs then
      (if k.buf then s.incRef (k.value.toNat % 2 ^ 41) else s).sendToken { k with port := n.arcs.getD 1 0, node := t.node }
    else s
  s.endItem q t
/-- Allocate an output buffer and send it, or wait for one. -/
def State.engOut (s : State) (q cls : Nat) (t : Task) (f : Flow) (n : Node) (k : Token) (size : Nat) (out : List Byte) : State :=
  match s.bufAlloc q t.inst cls size with
  | some (h, s) => (s.bufFill h out).engSend q t f n k true h out.length
  | none => s.bufWait q ⟨t.inst, cls, size, .engine q t.flow t.seq t.node⟩

/-! ## Scanning (R355 to R359) -/

/-- The data of a MATCH task: a scanned grain's sectors without their metadata, or what its token names. -/
def State.scanData (s : State) (f : Flow) (k : Token) : List Byte :=
  let l := s.tokenData k
  if k.node = 0xFF ∧ k.buf then
    match KV.get? s.media.nss f.nsx with
    | some n => ((pieces n.sector n.grain l).map fun p => sliceB p 0 4096).flatten
    | none => l
  else l

/-- One match: its end, pattern, and whether the literal prefilter found it. -/
structure Hit where
  at_ : Nat
  pat : Nat
  lit : Bool
deriving DecidableEq, Repr

/-- The automaton's matches, from a state on at an offset. -/
def autoHits (a : List Byte) (len : Nat) : Nat → Nat → List Byte → List Hit
  | _, _, [] => []
  | st, o, b :: bs =>
    let st := autoNext a st (autoClass a b)
    ((autoAccepts a st).filter fun e => ! e.2 || o + 1 = len).map (fun e => ⟨o + 1, e.1, false⟩) ++ autoHits a len st (o + 1) bs
/-- Literals of an image. -/
def autoLits (a : List Byte) : List Nat := List.range (u16 a 0x10)
/-- Candidates at an offset: literals in the bucket of the four bytes, and of their fold where a literal is NOCASE. -/
def litCands (a w : List Byte) : List Nat :=
  if w.length < 4 ∨ u16 a 0x10 = 0 then []
  else
    let hit := fun (w : List Byte) => (autoBucket a (litBucket (u16 a 0x16) w)).filter (· ≠ 0xFFFF)
    let fold := (autoLits a).any fun n => (autoLiteral a n).nocase
    (hit w ++ if fold then hit (w.map lowerByte) else []).eraseDups
/-- A literal stands at an offset of the data. -/
def litAt (l : Literal) (len o : Nat) (rest : List Byte) : Bool :=
  let t := rest.take l.len
  (if l.nocase then t.map lowerByte else t) = l.bytes.take l.len && (! l.flags.testBit 2 || o = 0)
    && (! l.flags.testBit 1 || o + l.len = len)
/-- Literal matches, and the offsets of the candidates refused. -/
def litHits (a : List Byte) (len : Nat) : Nat → List Byte → List Hit × List Nat
  | _, [] => ([], [])
  | o, b :: bs =>
    let c := litCands a (sliceB (b :: bs) 0 (min 4 (bs.length + 1)))
    let ok := c.filter fun n => litAt (autoLiteral a n) len o (b :: bs)
    let (h, r) := litHits a len (o + 1) bs
    (ok.map (fun n => ⟨o + (autoLiteral a n).len, (autoLiteral a n).pattern, true⟩) ++ h,
      List.replicate (c.length - ok.length) o ++ r)
/-- Order of report: ascending end; in a group descending priority, then ascending index. -/
def hitBefore (a : List Byte) (x y : Hit) : Bool :=
  if x.at_ ≠ y.at_ then decide (x.at_ < y.at_)
  else if autoPrio a x.pat ≠ autoPrio a y.pat then decide (autoPrio a y.pat < autoPrio a x.pat) else decide (x.pat ≤ y.pat)
/-- Every match in the data, in order of report, and the offsets of refused candidates. -/
def scanAll (a data : List Byte) : List Hit × List Nat :=
  let h := autoHits a data.length (u16 a 0x14) 0 data
  let (l, r) := litHits a data.length 0 data
  ((h ++ l).mergeSort (hitBefore a), r)

/-- The best of a list in order of report. -/
def bestHit (a : List Byte) : List Hit → Option Hit
  | [] => none
  | h :: hs => some (hs.foldl (fun b x =>
      if autoPrio a b.pat < autoPrio a x.pat ∨ (autoPrio a b.pat = autoPrio a x.pat ∧ x.pat < b.pat) then x else b) h)
/-- END and match words of an entry. -/
def hitWords (a : List Byte) (h : Hit) (multi : Bool) : Nat × Nat :=
  (h.at_ + multi.toNat * 2 ^ 24 + h.lit.toNat * 2 ^ 25, h.pat + autoPrio a h.pat * 65536)
/-- Entries with MULTI: another entry of the same group follows in the record. -/
def entriesOf (a : List Byte) : List Hit → List (Nat × Nat)
  | [] => []
  | [h] => [hitWords a h false]
  | h :: k :: t => hitWords a h (h.at_ = k.at_) :: entriesOf a (k :: t)
/-- What a mode reports of the matches in report order: those counted, and the entries. -/
def modeEntries (a : List Byte) (mode most : Nat) (l : List Hit) : List Hit × List (Nat × Nat) :=
  match mode with
  | 0 =>
    let g := l.takeWhile fun h => h.at_ = (l.head?.map (·.at_)).getD 0
    (g, entriesOf a g)
  | 1 => (l, entriesOf a (l.take most))
  | 2 => (l, match bestHit a l with
    | some b => [hitWords a b ((l.filter fun h => autoPrio a h.pat = autoPrio a b.pat).length ≠ 1)]
    | none => [])
  | _ => (l, [])
/-- A match record (R359). -/
def matchRecord (a : List Byte) (mode most : Nat) (l : List Hit) : List Byte :=
  let (seen, es) := modeEntries a mode most l
  let cut := mode = 1 ∧ most < l.length
  let best := bestHit a seen
  leBytes 4 es.length ++ leBytes 4 (min seen.length 0xFFFFFFFF)
    ++ [BitVec.ofNat 8 mode, BitVec.ofNat 8 ((decide cut).toNat + 2 * (! seen.isEmpty).toNat)]
    ++ leBytes 2 ((best.map fun b => autoPrio a b.pat).getD 0xFFFF) ++ leBytes 2 ((best.map (·.pat)).getD 0xFFFF) ++ [0, 0]
    ++ es.flatMap fun e => leBytes 4 e.1 ++ leBytes 4 e.2

/-- The end of a MATCH task's scan: the counters, and its record. -/
def State.matchOut (s : State) (q : Nat) (t : Task) (f : Flow) (n : Node) (k : Token) : State :=
  let pg := Pg.MAT q
  match KV.get? (s.mat! q).sections (64 * f.inst + 4 * f.prog + n.entry % 4) with
  | none => s.failItem q t 0x078B
  | some x =>
    if x.broken then s.failItem q t 0x078B
    else
      let data := s.scanData f k
      let mode := bitsOf n.entry 7 4
      let (hits, bad) := scanAll x.bytes data
      let rec_ := matchRecord x.bytes mode (s.cfg pg Fd.MAT_LIMIT_MAX_ENTRIES) hits
      let stop := if mode = 0 then (hits.head?.map (·.at_)).getD data.length else data.length
      let done := fun (s : State) =>
        let s := (s.bump pg Fd.MAT_CNT_COUNT 0).bumpPart pg Fd.MAT_CNT_COUNT 1 stop (2 ^ 20)
        let s := s.bumpBy pg Fd.MAT_CNT_COUNT 2 (u32 rec_ 0)
        let s := if rec_.getD 9 0 &&& 1 = 1 then s.bump pg Fd.MAT_CNT_COUNT 3 else s
        s.bumpBy pg Fd.MAT_CNT_COUNT 4 (bad.filter (· < stop)).length
      if mode = 3 then (done s).engSend q t f n k false (u64 rec_ 0) (u64 rec_ 8)
      else
        match s.bufAlloc q t.inst 1 rec_.length with
        | some (h, s) => ((done s).bufFill h rec_).engSend q t f n k true h rec_.length
        | none => s.bufWait q ⟨t.inst, 1, rec_.length, .engine q t.flow t.seq t.node⟩

/-- R354 to R359. -/
def execMatchTaskDone (t : TaskRef) (s : State) : Res :=
  .next <| match s.itemOn t 1 with
    | none => s
    | some (e, f, n, k) =>
      if s.itemWaits t.quad.ix e.task then s else (s.matchOut t.quad.ix e.task f n k).engRun t.quad.ix 1

/-! ## Compression and decompression (R381 to R387) -/

/-- Elements of `w` bytes of a payload; `none` where it ends inside one. -/
def trlElems (w : Nat) : Nat → List Byte → Option (List Nat × List Byte)
  | 0, l => some ([], l)
  | n + 1, l =>
    if l.length < w then none
    else match trlElems w n (l.drop w) with
      | none => none
      | some (es, r) => some (leNat (l.take w) :: es, r)
/-- Elements of a RUNS payload (R378); `none` where a token is cut. -/
def trlTokens (w : Nat) : Nat → List Byte → Option (List Nat)
  | 0, l => if l.isEmpty then some [] else none
  | n + 1, l =>
    match l with
    | [] => some []
    | c :: r =>
      let c := c.toNat
      let rest := fun (es : List Nat) (r : List Byte) => (trlTokens w n r).map (es ++ ·)
      if c < 0x80 then (trlElems w (c + 1) r).bind fun x => rest x.1 x.2
      else if c < 0xC0 then (trlElems w 1 r).bind fun x => rest (List.replicate (c % 64 + 2) (x.1.headD 0)) x.2
      else match r with
        | [] => none
        | e :: r =>
          let k := c % 32 * 256 + e.toNat
          if c < 0xE0 then (trlElems w 1 r).bind fun x => rest (List.replicate (k + 66) (x.1.headD 0)) x.2
          else rest (List.replicate (k + 1) 0) r
/-- Undo the delta transform. -/
def trlDelta (w : Nat) (prev : Nat) : List Nat → List Nat
  | [] => []
  | x :: xs => let y := (prev + x) % 256 ^ w; y :: trlDelta w y xs
/-- Decode blocks (R379): the error of R386 met first, or the decoded bytes and what follows the last block. -/
def trlBlocks (w : Nat) (delta : Bool) (orig : Nat) : Nat → List Byte → List Byte → Except Nat (List Byte × List Byte)
  | 0, _, _ => .error 0x89
  | n + 1, acc, l =>
    if l.length < 8 then .error 0x89
    else
      let dlen := u32 l 0
      let plen := leNat (sliceB l 4 3)
      let fl := u8 l 7
      let type := bitsOf fl 2 1
      if 8 ≤ fl ∨ 2 ≤ type ∨ dlen = 0 ∨ 65536 < dlen ∨ (type = 0 ∧ plen ≠ dlen) ∨ (type = 1 ∧ (plen = 0 ∨ 66048 < plen ∨ dlen % w ≠ 0)) then
        .error 0x86
      else if orig < acc.length + dlen then .error 0x88
      else if l.length < 8 + plen then .error 0x89
      else
        let body := (l.drop 8).take plen
        let out := if type = 0 then some body
          else (trlTokens w (plen + 1) body).map fun es => ((if delta then trlDelta w 0 es else es).map (leBytes w)).flatten
        match out with
        | none => .error 0x86
        | some o =>
          if o.length ≠ dlen then .error 0x86
          else if fl.testBit 0 then .ok (acc ++ o, l.drop (8 + plen))
          else trlBlocks w delta orig n (acc ++ o) (l.drop (8 + plen))
/-- The TRL decoder: a status code of R386, 0 for success, and the bytes. -/
def trlDecode (l : List Byte) : Nat × List Byte :=
  if l.length < 16 then (if l.take 4 = [0xC7, 0x52, 0x4C, 0x01].take (min 4 l.length) then (0x89, []) else (0x86, []))
  else
    let fl := u8 l 4
    let orig := u64 l 8
    if l.take 4 ≠ [0xC7, 0x52, 0x4C, 0x01] ∨ 8 ≤ fl ∨ ! isZero l 5 3 ∨ orig = 0 ∨ 2 ^ 20 < orig then (0x86, [])
    else match trlBlocks (2 ^ (fl % 4)) (fl.testBit 2) orig l.length [] (l.drop 16) with
      | .error e => (e, [])
      | .ok (o, r) =>
        if r.length < 4 then (0x89, [])
        else if u32 r 0 ≠ crc32c o then (0x8A, [])
        else if o.length < orig then (0x80, [])
        else if 4 < r.length then (0x81, []) else (0, o)

/-- An INFLATE task's decoding: its status and output; DECLARED from AUX[63:32] where the stream declares none. -/
def inflateOf (fmt declared : Nat) (l : List Byte) : Nat × List Byte := if fmt = 4 then trlDecode l else Config.inflate fmt l declared
/-- The output buffer of an INFLATE task: the declared length, or 1 MiB where the stream declares none (R386). -/
def inflateSize (fmt declared : Nat) (l : List Byte) : Nat :=
  let n := if fmt = 4 then u64 l 8 else if fmt = 3 then (Config.zstdContent l).getD declared else declared
  if n = 0 ∨ 2 ^ 20 < n then 2 ^ 20 else n
def errsIx (st : Nat) : Nat := if st = 0x80 then 5 else if st = 0x81 then 6 else st - 0x86

def State.inflateOut (s : State) (q : Nat) (t : Task) (f : Flow) (n : Node) (k : Token) : State :=
  let pg := Pg.CMP q
  let declared := if k.buf then k.aux.toNat / 2 ^ 32 else 0
  let (st, out) := inflateOf (n.entry % 16) declared (s.tokenData k)
  if st ≠ 0 then ((s.bump pg Fd.CMP_ERRS_COUNT (errsIx st)).setEv pg 11).failItem q t (0x700 + st)
  else
    let size := inflateSize (n.entry % 16) declared (s.tokenData k)
    match s.bufAlloc q t.inst 2 size with
    | some (h, s) => ((s.bump pg Fd.CMP_CNT_COUNT 3).bufFill h out).engSend q t f n k true h out.length
    | none => s.bufWait q ⟨t.inst, 2, size, .engine q t.flow t.seq t.node⟩

/-- R386, R387. -/
def execInflateTaskDone (t : TaskRef) (s : State) : Res :=
  .next <| match s.itemOn t 2 with
    | none => s
    | some (e, f, n, k) =>
      if s.itemWaits t.quad.ix e.task then s else (s.inflateOut t.quad.ix e.task f n k).engRun t.quad.ix 2

/-- A DEFLATE task's output; its flush point is AUX[63:32]. -/
def State.deflateOut (s : State) (q : Nat) (t : Task) (f : Flow) (n : Node) (k : Token) : State :=
  let pg := Pg.CMP q
  let l := s.tokenData k
  let a := if k.buf then k.aux.toNat / 2 ^ 32 else 0
  let fmt := n.entry % 16
  let out := compressed fmt (bitsOf n.entry 7 4) (bitsOf n.entry 10 8 + 8 * (if a < l.length then a else 0)) l
  if 2 ^ 20 < out.length then ((s.bump pg Fd.CMP_ERRS_COUNT 6).setEv pg 11).failItem q t 0x0781
  else
    let size := min (2 ^ 20) (cmpBound l.length a)
    match s.bufAlloc q t.inst 2 size with
    | some (h, s) => ((s.bump pg Fd.CMP_CNT_COUNT 3).bufFill h out).engSend q t f n k true h out.length
    | none => s.bufWait q ⟨t.inst, 2, size, .engine q t.flow t.seq t.node⟩

/-- A unit fault of an engine task: it is queued again, or failed at its limit (R298, R390). -/
def State.itemFault (s : State) (q kind : Nat) (t : Task) : State :=
  let s := s.modDisp q fun d => { d with engine := d.engine.filter fun e => e.task ≠ t }
  let s := s.modDigQ q fun d =>
    let mine := (d.ctxs.filter fun c => ! c.2.direct && c.2.flow = t.flow && c.2.seq = t.seq && c.2.node = t.node).map Prod.fst
    { d with
      ctxs := d.ctxs.filter fun c => ! mine.contains c.1
      onUnit := d.onUnit.filter fun u => ! mine.contains u.2 }
  let s := match kind with
    | 2 => s.bump (Pg.CMP q) Fd.CMP_CNT_COUNT 7
    | 3 => s.bump (Pg.CMP q) Fd.CMP_CNT_COUNT 7
    | 4 => s.bump (Pg.DIG q) Fd.DIG_CNT_COUNT 6
    | _ => s
  let left := s.cfg (Pg.TSK q) Fd.TSK_REEXEC_LIMIT ≤ t.attempt + 1
  let s := if left then s.dropInputs q t.flow t.seq t.node 1 else s
  (s.reexec q t kind).engRun q kind

/-- R381 to R383. A mismatch of the verification decoder is a unit fault. -/
def execDeflateTaskDone (t : TaskRef) (verifyMismatch : Bool) (s : State) : Res :=
  .next <|
    let q := t.quad.ix
    match s.itemOn t 3 with
    | none => s
    | some (e, f, n, k) =>
      if s.itemWaits q e.task then s
      else if verifyMismatch then
        let s := ((s.bump (Pg.CMP q) Fd.CMP_CNT_COUNT 5).setEv (Pg.CMP q) 9).fenceUnit q .compressor t.unit.val
        (s.logEv (Pg.CMP q) 0x0F01 .absorbed e.task.inst).itemFault q 3 e.task
      else (s.deflateOut q e.task f n k).engRun q 3

/-- R389. A task item yields its unit to an inline item that waits. -/
def execTaskItemYield (quad : Quad) (dir : CmpDir) (unit : Fin 4) (s : State) : Res :=
  .next <|
    let q := quad.ix
    let kind := match dir with | .compress => 3 | .decompress => 2
    let mine := (s.disp q).engine.filter fun e => e.kind = kind
    match mine.find? fun e => e.unit = some unit.val with
    | none => s
    | some e =>
      let held := mine.filter (·.suspended)
      if 16 ≤ held.length ∨ s.cfg (Pg.CMP q) Fd.CMP_YIELD_MAX_SUSP ≤ (held.filter fun x => x.task.inst = e.task.inst).length then s
      else
        (s.modDisp q fun d => { d with engine := d.engine.filter (· ≠ e) ++ [{ e with unit := none, suspended := true }] }).bump
          (Pg.CMP q) Fd.CMP_CNT_COUNT 4

/-! ## The probe (R360) -/

/-- The bytes of PROBE_DATA that a run covers. -/
def State.probeData (s : State) (q : Nat) : List Byte :=
  sliceB ((List.range 64).flatMap fun n => leBytes 4 (s.cfgAt (Pg.MAT q) Fd.MAT_PROBE_DATA_DATA n)) 0 (s.cfg (Pg.MAT q) Fd.MAT_PROBE_CTRL_LENGTH)
/-- The section that PROBE_SEL names. -/
def State.probeSection (s : State) (q : Nat) : Option Section :=
  let pg := Pg.MAT q
  if ! s.cfgB pg Fd.MAT_PROBE_SEL_VALID then none
  else KV.get? (s.mat! q).sections
    (64 * s.cfg pg Fd.MAT_PROBE_SEL_INSTANCE + 4 * s.cfg pg Fd.MAT_PROBE_SEL_PROGRAM + s.cfg pg Fd.MAT_PROBE_SEL_SECTION)
/-- GO: refused, ignored during a run, or the run begins. -/
def State.startProbe (s : State) (q : Nat) : State :=
  if (s.mat! q).probeBusy then s
  else if (s.probeSection q).isNone then s.setErr (Pg.MAT q) 0x0100 (s.live (Pg.MAT q * 4096 + Fd.MAT_PROBE_SEL_VALID.off))
  else s.modMatQ q fun m => { m with probeBusy := true, probe := [], probeAt := 0, probeOver := false }
/-- STEP: the next entry. -/
def State.stepProbe (s : State) (q : Nat) : State :=
  if (s.mat! q).probeBusy then s else s.modMatQ q fun m => { m with probeAt := min (m.probe.length) (m.probeAt + 1) }
/-- The run ends: at most 64 entries are kept and the first is shown. -/
def execProbeDone (quad : Quad) (s : State) : Res :=
  .next <|
    let q := quad.ix
    if ! (s.mat! q).probeBusy then s
    else
      let l := match s.probeSection q with
        | some x => (scanAll x.bytes (s.probeData q)).1.map (fun h => (h, x.bytes))
        | none => []
      let a := (l.head?.map (·.2)).getD []
      let es := entriesOf a (l.map (·.1))
      (s.modMatQ q fun m => { m with probeBusy := false, probe := es.take 64, probeAt := 0, probeOver := decide (64 < es.length) }).setEv
        (Pg.MAT q) 11

/-! ## Automaton memory (R369) -/

/-- R369. The section is whole again and its tasks run again, or it stays broken. -/
def execSectionReloadDone (quad : Quad) (inst : Fin 256) (prog : Fin 16) (sect : Fin 4) (ok : Bool) (s : State) : Res :=
  .next <|
    let q := quad.ix
    let key := 64 * inst.val + 4 * prog.val + sect.val
    match KV.get? (s.mat! q).sections key with
    | none => s
    | some _ =>
      let s := (s.modMatQ q fun m => { m with sections := KV.adjust m.sections key fun x => { x with broken := ! ok } }).setEv (Pg.MAT q) 10
      let s := if ok then s.logEv (Pg.MAT q) 0x0E01 .absorbed inst.val else s.logEv (Pg.MAT q) 0x0E02 .degraded inst.val
      let mine := (s.disp q).engine.filter fun e =>
        e.kind = 1 && e.task.inst = inst.val && e.task.prog = prog.val && match s.flow? e.task.flow with
          | some f => match s.nodeOf f e.task.node with | some n => n.entry % 4 = sect.val | none => false
          | none => false
      if ok then (mine.filter fun e => e.unit.isSome).foldl (fun s e => s.itemFault q 1 e.task) s
      else (mine.foldl (fun s e => s.failItem q e.task 0x078B) s).engRun q 1

/-! ## Digest items (R394, R397 to R399) -/

/-- Block and result bytes of an algorithm. -/
def digBlock (alg : Nat) : Nat := match alg with | 0 => 64 | 1 => 128 | 2 => 128 | 3 => 136 | 4 => 104 | _ => 64
def digLen (alg : Nat) : Nat := match alg with | 0 => 32 | 1 => 48 | 2 => 64 | 3 => 32 | 4 => 48 | 5 => 4 | _ => 8
def hashOf (alg : Nat) (m : List Byte) : List Byte :=
  match alg with
  | 0 => Config.sha256 m | 1 => Config.sha384 m | 2 => Config.sha512 m | 3 => Config.sha3x256 m | 4 => Config.sha3x384 m
  | 5 => leBytes 4 (crc32c m) | _ => leBytes 8 (Config.crc64 m)
/-- RFC 2104. -/
def hmacOf (alg : Nat) (key m : List Byte) : List Byte :=
  let b := digBlock alg
  let k := sliceB (if b < key.length then hashOf alg key else key) 0 b
  hashOf alg (k.map (· ^^^ 0x5C) ++ hashOf alg (k.map (· ^^^ 0x36) ++ m))
def DigCtx.result (c : DigCtx) (m : List Byte) : List Byte := if c.hmac then hmacOf c.alg c.key m else hashOf c.alg m

/-- The record of a digest task (R398). -/
def digRecord (alg : Nat) (hmac compare eq neq : Bool) (len : Nat) (res : List Byte) : List Byte :=
  [BitVec.ofNat 8 alg, BitVec.ofNat 8 (hmac.toNat + 2 * compare.toNat), BitVec.ofNat 8 eq.toNat, BitVec.ofNat 8 neq.toNat]
    ++ leBytes 4 len ++ [BitVec.ofNat 8 (digLen alg)] ++ zeros 7 ++ sliceB (if compare then [] else res) 0 64
/-- The context that a unit runs. -/
def State.unitCtx (s : State) (q u : Nat) : Option (Nat × DigCtx) :=
  match KV.get? (s.digQ q).onUnit u with
  | none => none
  | some c => (KV.get? (s.digQ q).ctxs c).map fun x => (c, x)
/-- A context is free again. -/
def State.freeDigCtx (s : State) (q c : Nat) : State :=
  s.modDigQ q fun d => { d with ctxs := KV.del d.ctxs c, onUnit := d.onUnit.filter fun u => u.2 ≠ c }
/-- The message of a task: with COMPARE, without the expected value at its end. -/
def digMessage (compare : Bool) (d : Nat) (l : List Byte) : List Byte := if compare then l.take (l.length - d) else l

/-- A digest task's record is sent. -/
def State.digestOut (s : State) (q : Nat) (t : Task) (f : Flow) (n : Node) (k : Token) (c : Nat) (x : DigCtx) (eq neq : Bool) : State :=
  let cmp := n.entry.testBit 5
  let m := digMessage cmp (digLen x.alg) x.msg
  let out := digRecord x.alg x.hmac cmp (cmp && eq) (cmp && neq) m.length (x.result m)
  match s.bufAlloc q t.inst 3 80 with
  | some (h, s) =>
    let s := ((s.bump (Pg.DIG q) Fd.DIG_CNT_COUNT 0).bumpPart (Pg.DIG q) Fd.DIG_CNT_COUNT 1 m.length (2 ^ 20)).bufFill h out
    (s.engSend q t f n k true h 80).freeDigCtx q c
  | none => s.bufWait q ⟨t.inst, 3, 80, .engine q t.flow t.seq t.node⟩

/-- R398, R399. What the comparators wrote is the truth, each turned round by a fault of its own. -/
def execDigestTaskDone (t : TaskRef) (eqFault neqFault : Bool) (s : State) : Res :=
  .next <|
    let q := t.quad.ix
    match s.itemOn t 4, s.unitCtx q t.unit.val with
    | some (e, f, n, k), some (c, x) =>
      if x.direct ∨ x.flow ≠ t.flow ∨ x.seq ≠ t.seq ∨ x.node ≠ t.node ∨ s.itemWaits q e.task then s
      else
        let cmp := n.entry.testBit 5
        let d := digLen x.alg
        if cmp ∧ x.msg.length < d then ((s.failItem q e.task 0x0780).freeDigCtx q c).engRun q 4
        else
          let same := decide (x.result (digMessage true d x.msg) = x.msg.drop (x.msg.length - d))
          let eq := same != eqFault
          let neq := (! same) != neqFault
          if cmp ∧ eq = neq then
            let s := ((s.bump (Pg.DIG q) Fd.DIG_CNT_COUNT 4).setEv (Pg.DIG q) 9).logEv (Pg.DIG q) 0x1001 .absorbed x.inst
            (s.fenceUnit q .digest t.unit.val).itemFault q 4 e.task
          else (s.digestOut q e.task f n k c x eq neq).engRun q 4
    | _, _ => s

/-- R397. A unit at a block boundary yields to the next context with input pending. -/
def execDigestUnitSwitch (quad : Quad) (unit : Fin 4) (s : State) : Res :=
  .next <|
    let q := quad.ix
    let d := s.digQ q
    match KV.get? d.onUnit unit.val with
    | none => s
    | some c =>
      let ready := d.ctxs.filter fun x => (! x.2.direct || d.req.any (·.due.isNone)) && ! d.onUnit.any fun u => u.2 = x.1
      let backlog := (ready.map fun x => x.2.inst).foldr insNat []
      let drr := KV.getD .init (s.disp q).eng 4
      match Drr.pick s.share backlog (drr.fuel backlog) (drr.trim backlog) with
      | none => s
      | some (i, drr) =>
        match (ready.filter fun x => x.2.inst = i).mergeSort fun a b => a.2.since ≤ b.2.since with
        | [] => s
        | x :: _ =>
          let run := s.cfg (Pg.DIG q) Fd.DIG_SCHED_BLOCKS
          let drr := { drr with credit := KV.modify 0 drr.credit i (· - run) }
          let s := s.modDigQ q fun d =>
            { d with onUnit := KV.put d.onUnit unit.val x.1, ctxs := KV.adjust d.ctxs c fun y => { y with since := s.now } }
          (s.modDisp q fun d => { d with eng := KV.put d.eng 4 drr }).bump (Pg.DIG q) Fd.DIG_CNT_COUNT 2

/-- A buffer that an engine item waited for has come: its output goes out. -/
def State.engGot (s : State) (q : Nat) (flow seq node : Nat) : State :=
  match (s.disp q).engine.find? fun e => e.task.flow = flow && e.task.seq = seq && e.task.node = node, s.flow? flow with
  | some e, some f =>
    match s.nodeOf f node, s.itemToken q e.task with
    | some n, some k =>
      match e.kind with
      | 1 => (s.matchOut q e.task f n k).engRun q 1
      | 2 => (s.inflateOut q e.task f n k).engRun q 2
      | 3 => (s.deflateOut q e.task f n k).engRun q 3
      | _ =>
        match (s.digQ q).ctxs.find? fun c => ! c.2.direct && c.2.flow = flow && c.2.seq = seq && c.2.node = node with
        | none => s
        | some (c, x) =>
          let d := digLen x.alg
          let same := decide (x.result (digMessage true d x.msg) = x.msg.drop (x.msg.length - d))
          (s.digestOut q e.task f n k c x same (! same)).engRun q 4
    | _, _ => s
  | _, _ => s

end Sys2Proof.Machine
end

