-- ==== Sys2Proof/Machine/BufEvents.lean ====
section
/-! DEFINITION. Events of the buffer pools and of the clusters (R307, R310, R313, R319, R345, R346). -/

namespace Sys2Proof.Machine

/-! ## Waiting requests (R310, R311) -/

/-- The task of a core has its buffer: the time it waited does not count. -/
def State.taskGot (s : State) (c slot h size : Nat) : State :=
  match (s.core c).run with
  | none => s.decRef h
  | some r =>
    let r := { r with stalled := r.stalled + (s.now - r.stallAt.getD s.now), stallAt := none }
    s.putRun c (r.gotBuf r.ballocD slot h size).iterate
/-- Serve waiting requests, in order. -/
def State.serveList (s : State) (q : Nat) : List BufReq → State
  | [] => s
  | r :: rs =>
    match s.bufAlloc q r.inst r.eng r.size with
    | none => s.serveList q rs
    | some (h, s') =>
      let gone := fun (s : State) => s.modPool q fun p => { p with waits := p.waits.erase r }
      let s := match r.who with
        | .scan flow seq => (gone s').scanRead flow seq h
        | .task c slot => (gone s').taskGot c slot h r.size
        | .engine k flow seq node => (gone s).engGot k flow seq node
      s.serveList q rs

/-- R307, R310. The buffer is free again, and waiting requests are served. -/
def execBufferZeroed (handle : BitVec 41) (s : State) : Res :=
  .next <|
    let k := handle.toNat / 4096
    match KV.get? s.buf.bufs k with
    | none => s
    | some b =>
      if ! b.zeroing then s
      else
        let s := s.modBuf fun m =>
          { m with bufs := if b.refs = 0 then KV.del m.bufs k else KV.adjust m.bufs k fun b => { b with zeroing := false, idle := true } }
        s.serveList (keyQuad k) (s.waitOrder (keyQuad k) (keyClass k))

/-- R313. -/
def execReferenceIncrement (handle : BitVec 41) (s : State) : Res := .next (s.incRef handle.toNat)
/-- R313. -/
def execReferenceDecrement (handle : BitVec 41) (s : State) : Res := .next (s.decRef handle.toNat)

/-- R319. -/
def execWritePoolFullTimeout (quad : Quad) (s : State) : Res :=
  .next <|
    let q := quad.ix
    match (s.pool q).fullSince with
    | none => s
    | some t =>
      if (s.pool q).fullLogged then s
      else (((s.reach (t + secs 1)).modPool q fun p => { p with fullLogged := true })).logEv (Pg.BUF q) 0x0C04 .notice

/-! ## Cluster L2s and the background test of cores (R345, R346, R216) -/

/-- R345, R213. No line is dirty any more: all are invalidated and the disable takes effect. -/
def execL2DrainDone (quad : Quad) (cluster : Fin 4) (s : State) : Res :=
  .next <|
    let q := quad.ix
    if ! (s.cluster q cluster.val).draining then s
    else
      let s := s.modCluster q cluster.val fun c => { c with draining := false, enabled := false, sets := [], evb := [] }
      (s.setEv (Pg.CLU q cluster.val) 11).logEv (Pg.CLU q cluster.val) 0x0D04 .notice 0 [0]

/-- A cluster's fence record changed: its L2 takes a new set key. -/
def State.redrawL2 (s : State) (q cl : Nat) : State :=
  let (a, s) := s.draw
  let (b, s) := s.draw
  s.modCluster q cl fun c => { c with ks0 := a % 2 ^ 64, ks1 := b % 2 ^ 64, sets := [] }
/-- A core is fenced (R23). -/
def State.fenceCore (s : State) (c : Nat) : State :=
  if s.fence.cores.contains c then s
  else
    let q := c / 64
    let cl := c % 64 / 16
    let s := (s.modFence fun f => { f with cores := insNat c f.cores }).saveFence
    let s := (s.redrawL2 q cl).setEv (cluPage c) 9
    let ok := s.fence.coresLost q cl < 16 ∧ 240 ≤ s.fence.healthyCores
    s.failure (cluPage c) 0x0103 (decide ok) none [BitVec.ofNat 8 (c % 64)]
/-- SKIP_LATCH.OCT goes once the background test has passed or fenced every fenced core and unit (R62). -/
def State.octCheck (s : State) : State :=
  if s.mode.skipLatch.testBit 9 ∧ s.fence.cores.all s.kw.bgCores.contains ∧ s.fence.units.all s.kw.bgUnits.contains then
    (s.modMode fun m => { m with skipLatch := m.skipLatch - 2 ^ 9 }).saveSkip
  else s

/-- TEST_GO: the core is held once its task ends. -/
def State.testCore (s : State) (c : Nat) : State :=
  s.modCore c fun x => if x.run.isSome then { x with testWanted := true } else { x with testing := true }
/-- R346, R299. -/
def execCoreTestDone (core : CoreId) (pass : Bool) (s : State) : Res :=
  .next <|
    let c := core.key
    if ! ((s.core c).testing ∨ s.fence.cores.contains c) ∨ ! s.isUp (Dom.CPU core.quad.ix) then s
    else
      let s := s.modCore c fun x => { x with testing := false }
      let s := s.modKw fun k => { k with bgCores := insNat c k.bgCores }
      let s :=
        if ! pass then s.fenceCore c
        else if s.fence.cores.contains c then
          let s := (s.modFence fun f => { f with cores := delNat c f.cores }).saveFence
          ((s.redrawL2 core.quad.ix core.cluster).logEv (cluPage c) 0x0D05 .info 0 [BitVec.ofNat 8 (c % 64)]).followReduced
        else s
      (s.setEv (cluPage c) 12).octCheck

end Sys2Proof.Machine
end

