-- ==== Sys2Proof/Machine/CtlOps.lean ====
section
/-! DEFINITION. Who reaches a page, and what time does to its unlocks and its staging image (R36, R37, R39, R41, R44, R45,
R49). -/

namespace Sys2Proof

/-- A path reaches a word (R36, R37). -/
def Path.reaches (path : Path) (pg off : Nat) : Bool :=
  match path with
  | .tenant i => pg = Pg.INST i.val && off < 0x400
  | _ => (pageInfo pg).isSome
end Sys2Proof

namespace Sys2Proof.Machine

/-- The unlock of a path. -/
def PageSt.unlock (p : PageSt) : Path → Unlock
  | .mp => p.mp | .manager => p.mgr | .tenant _ => .init
def PageSt.setUnlock (p : PageSt) (path : Path) (u : Unlock) : PageSt :=
  match path with
  | .mp => { p with mp := u } | .manager => { p with mgr := u } | .tenant _ => p
/-- The expert region is open to a path. -/
def State.expertOpen (s : State) (path : Path) (pg : Nat) : Bool := ((s.page pg).unlock path).openUntil.isSome

/-- The staging image is reloaded from the live values, and has no owner. -/
def State.reloadStage (s : State) (pg : Nat) : State :=
  s.modPage pg fun p => { p with staged := [], owner := 0, expired := false, factoryStaged := false }
/-- KEY_DATA is cleared (R406). -/
def State.clearKeyData (s : State) : State :=
  s.modCtl fun c => { c with regs := c.regs.filter fun e => e.1 / 4 < (Pg.SEC * 4096 + 0x440) / 4 || (Pg.SEC * 4096 + 0x440) / 4 + 34 ≤ e.1 / 4 }
/-- An expert region closes to a path. -/
def State.closeExpert (s : State) (path : Path) (pg : Nat) : State :=
  let s := s.modPage pg fun p => p.setUnlock path { p.unlock path with openUntil := none }
  if pg = Pg.SEC then s.clearKeyData else s
/-- Expiry by time (R45). -/
def State.expireExpert (s : State) (path : Path) (pg : Nat) : State :=
  match ((s.page pg).unlock path).openUntil with
  | none => s
  | some t =>
    if s.now < t then s
    else (s.closeExpert path pg).modPage pg fun p =>
      if p.owner = path.num ∧ p.staged.any (fun e => 0x400 ≤ e.1) then
        { p with staged := p.staged.filter (fun e => e.1 < 0x400), expired := true }
      else p
/-- Whatever has fallen due on a page happens before an access to it. -/
def State.tickPage (s : State) (pg : Nat) : State :=
  let s := (s.expireExpert .mp pg).expireExpert .manager pg
  let s := s.modPage pg fun p => if p.lockUntil.any (· ≤ s.now) then { p with lockUntil := none } else p
  if (s.page pg).owner ≠ 0 ∧ (s.page pg).ownerAt + secs 60 ≤ s.now then s.reloadStage pg else s

/-- The path is up: in OFF none is, in HOLD-UP the MP alone. -/
def State.pathUp (s : State) (path : Path) : Bool :=
  s.mode.mode ≠ .off && (! s.inHoldup || path = .mp)
/-- ERR_INFO of the common errors. -/
def errInfo (path : Path) (off : Nat) : Nat := off % 4096 + 4096 * path.num

/-- A write of a path acts on a page where the path reaches it, its unit is up and the expert region, if it lies there, is
open. -/
def State.viaPath (s : State) (path : Path) (pg off : Nat) (f : State → State) : State :=
  let s := s.tickPage pg
  if ! path.reaches pg off ∨ ! s.pathUp path ∨ s.unitState pg ≠ 0 then s
  else if 0x400 ≤ off ∧ ! s.expertOpen path pg then s.setErr pg 2 (errInfo path off)
  else f s

end Sys2Proof.Machine
end

