-- ==== Sys2Proof/Machine/DigOps.lean ====
section
/-! DEFINITION. Direct digest requests and the key store (R395, R396, R400 to R406, R416). -/

namespace Sys2Proof.Machine

/-! ## Keys (R404 to R406) -/

/-- PERM bits whose use allows a type. -/
def permFor : Nat → Nat
  | 1 => 0x33 | 2 => 0x04 | 3 => 0x08 | 4 => 0x40 | _ => 0
def permOk (type perm : Nat) : Bool := perm &&& permFor type = perm
/-- LEN fits the type. -/
def lenOk (type len : Nat) : Bool :=
  match type with
  | 1 => 16 ≤ len && len ≤ 128 | 2 => len = 32 | 3 => len = 48 | 4 => len = 97 | _ => false
def State.putKey (s : State) (slot : Nat) (k : KeySlot) : State := s.modSec fun m => { m with keys := KV.set .empty m.keys slot k }
/-- Event 0x1003. -/
def State.logKey (s : State) (slot op : Nat) : State := s.logEv Pg.SEC 0x1003 .info 0 (leBytes 2 slot ++ [BitVec.ofNat 8 op])
def State.secAttr (s : State) (f : Field) : Nat := s.cfg Pg.SEC f
/-- Bytes of a register array. -/
def State.regBytes (s : State) (pg : Nat) (f : Field) (words : Nat) : List Byte :=
  (List.range words).flatMap fun n => leBytes 4 (s.cfgAt pg f n)
/-- Key material of `n` bytes from the TRNG. -/
def State.drawBytes (s : State) : Nat → List Byte × State
  | 0 => ([], s)
  | n + 1 =>
    let (v, s) := s.draw
    let (l, s) := s.drawBytes n
    (BitVec.ofNat 8 v :: l, s)

/-- The slot that a KEY_OP with valid attributes makes of its material. -/
def State.newKey (s : State) (origin : Nat) (key : List Byte) : KeySlot :=
  { type := s.secAttr Fd.SEC_KEY_ATTR_TYPE, scopeAll := s.secAttr Fd.SEC_KEY_ATTR_SCOPE_ALL = 1, origin := origin,
    owner := s.secAttr Fd.SEC_KEY_ATTR_OWNER, perm := s.secAttr Fd.SEC_KEY_ATTR_PERM, len := s.secAttr Fd.SEC_KEY_ATTR_LEN,
    bind := s.regBytes Pg.SEC Fd.SEC_KEY_BIND_BIND 8, key := key }

/-- A KEY_OP: its checks in their order, RESULT, and the slot (R406). -/
def State.keyOp (s : State) (op wrapSlot : Nat) (trngOk : Bool) : State :=
  let slot := s.cfg Pg.SEC Fd.SEC_KEY_SEL_SLOT
  let type := s.secAttr Fd.SEC_KEY_ATTR_TYPE
  let len := s.secAttr Fd.SEC_KEY_ATTR_LEN
  let data := s.regBytes Pg.SEC Fd.SEC_KEY_DATA_DATA 34
  let fills := op ≠ 4
  let done := fun (s : State) (r : Nat) => ((s.setFld Pg.SEC Fd.SEC_KEY_STATUS_RESULT r).clearKeyData).setEv Pg.SEC 8
  let load := fun (s : State) (origin : Nat) (key : List Byte) =>
    if type = 4 ∧ ! Config.onCurve key then done s 6
    else done ((s.putKey slot (s.newKey origin key)).logKey slot op) 0
  if op = 0 ∨ 4 < op then done s 2
  else if slot < 16 ∨ fills ∧ (type = 5 ∨ type = 6 ∨ op = 3 ∧ type = 4) then done s 4
  else if fills ∧ (s.keySlot slot).type ≠ 0 then done s 1
  else if fills ∧ (! (1 ≤ type ∧ type ≤ 4) ∨ ! lenOk type len ∨ ! permOk type (s.secAttr Fd.SEC_KEY_ATTR_PERM)
      ∨ op = 2 ∧ ! (s.keySlot wrapSlot).usable 2 2 0) then done s 2
  else match op with
    | 1 => load s 2 (data.take len)
    | 2 => match Config.keyUnwrap (s.keySlot wrapSlot).key (data.take (len + 8)) with
      | none => done s 3
      | some key => load s 3 key
    | 3 =>
      if ! trngOk ∨ s.sec.trngFailed then done s 5
      else
        let (key, s) := s.drawBytes len
        load s 4 key
    | _ => done ((s.putKey slot .empty).logKey slot op) 0

/-- KEY_OP is written with GO. -/
def State.keyOpWord (s : State) (w : Nat) (trngOk : Bool) : State :=
  if w.testBit 31 then s.keyOp (bitsOf w 2 0) (bitsOf w 13 4) trngOk else s

/-! ## Direct requests (R400, R401) -/

def DigReq.op (r : DigReq) : Nat := r.cmd % 16
def DigReq.compare (r : DigReq) : Bool := r.cmd.testBit 9
def DigReq.derive (r : DigReq) : Bool := r.cmd.testBit 10
def DigReq.slot (r : DigReq) : Nat := bitsOf r.cmd 21 12
def DigReq.len (r : DigReq) : Nat := bitsOf r.cmd 30 22

/-- A request ends: RESULT, RESULT_DATA and REQ_DONE. -/
def State.digEnd (s : State) (q status : Nat) (eq neq : Bool) (len : Nat) (out : List Byte) : State :=
  let pg := Pg.DIG q
  let s := s.modDigQ q fun d => { d with req := none, idleAt := s.now, waits := d.waits.erase digDirect }
  let s := s.setLive (pg * 4096 + Fd.DIG_RESULT_EQ.off) (eq.toNat + 2 * neq.toNat + 4 + 16 * status + 256 * len)
  let s := (List.range 16).foldl (fun s n => s.setFldAt pg Fd.DIG_RESULT_DATA_DATA n (u32 out (4 * n))) s
  s.setEv pg 11
/-- It ends with an error. -/
def State.digFail (s : State) (q status : Nat) : State := s.digEnd q status false false 0 []
/-- The session is over and its context free. -/
def State.digDrop (s : State) (q : Nat) : State :=
  let s := match (s.digQ q).session with
    | some c => s.freeDigCtx q c
    | none => s
  (s.modDigQ q fun d => { d with session := none }).engRun q 4
/-- The session takes a context. -/
def State.digOpenCtx (s : State) (q c : Nat) (r : DigReq) : State :=
  let hmac := r.cmd.testBit 8
  let x : DigCtx :=
    { inst := 0, direct := true, alg := bitsOf r.cmd 7 4, hmac := hmac, key := if hmac then (s.keySlot r.slot).key else [],
      msg := [], flow := 0, seq := 0, node := 0, since := s.now }
  s.modDigQ q fun d => { d with ctxs := KV.put d.ctxs c x, session := some c, waits := d.waits.erase digDirect }

/-- The message of the session grows, and a unit is to absorb it. -/
def State.digAbsorb (s : State) (q : Nat) (r : DigReq) : State :=
  let s := s.modDigQ q fun d =>
    match d.session with
    | none => d
    | some c => { d with ctxs := KV.adjust d.ctxs c fun x => { x with msg := x.msg ++ r.data.take r.len, since := s.now }, req := some { r with due := none } }
  s.digUnits q
/-- OPEN or ONESHOT has its context. -/
def State.digGranted (s : State) (q c : Nat) (r : DigReq) : State :=
  let s := s.digOpenCtx q c r
  if r.op = 1 then s.digEnd q 0 false false 0 [] else s.digAbsorb q r

/-- The bytes that REQ_TARGET asks for: 0 and more than a derived result give the result's length. -/
def DigReq.outLen (r : DigReq) (d : Nat) : Nat :=
  let l := bitsOf r.target 23 16
  if r.op = 5 then l else if l = 0 ∨ d < l then d else l
/-- The target slot of a derivation may be written. -/
def State.targetOk (s : State) (r : DigReq) (len : Nat) : Bool :=
  let type := bitsOf r.target 12 10
  16 ≤ r.target % 1024 && (s.keySlot (r.target % 1024)).type = 0 && (type = 1 || type = 2) && lenOk type len && permOk type (bitsOf r.acl 15 8)
/-- Write a derived key. -/
def State.writeDerived (s : State) (q : Nat) (r : DigReq) (key : List Byte) : State :=
  let slot := r.target % 1024
  let k : KeySlot :=
    { type := bitsOf r.target 12 10, scopeAll := r.target.testBit 13, origin := 5, owner := r.acl % 256, perm := bitsOf r.acl 15 8, len := key.length,
      bind := zeros 32, key := key }
  ((s.putKey slot k).logKey slot 5).bump (Pg.DIG q) Fd.DIG_CNT_COUNT 5

/-- RFC 5869 expand, `n` blocks at most. -/
def hkdfBlocks (alg : Nat) (prk info : List Byte) : Nat → Nat → List Byte → List Byte
  | 0, _, _ => []
  | n + 1, i, prev =>
    let t := hmacOf alg prk (prev ++ info ++ [BitVec.ofNat 8 i])
    t ++ hkdfBlocks alg prk info n (i + 1) t
def hkdf (alg : Nat) (ikm salt info : List Byte) (len : Nat) : List Byte :=
  let prk := hmacOf alg (if salt = [] then zeros (digLen alg) else salt) ikm
  (hkdfBlocks alg prk info (cdiv len (digLen alg)) 1 []).take len

/-- What is wrong with a request, if anything: its STATUS. -/
def State.digRefusal (s : State) (q : Nat) (r : DigReq) : Option Nat :=
  let d := s.digQ q
  let alg := bitsOf r.cmd 7 4
  let hmac := r.cmd.testBit 8
  let opens := r.op = 1 ∨ r.op = 4
  let ends := r.op = 3 ∨ r.op = 4
  if d.idleClosed then some 6
  else if r.op = 0 ∨ 6 < r.op then some 3
  else if opens ∧ (6 < alg ∨ hmac ∧ 4 < alg) then some 3
  else if (r.op = 2 ∨ ends) ∧ 256 < r.len ∨ ends ∧ r.compare ∧ 192 < r.len then some 3
  else if r.op = 5 ∧ (1 < alg ∨ 128 < bitsOf r.hkdf 7 0 ∨ 128 < bitsOf r.hkdf 15 8) then some 3
  else if (r.op = 2 ∨ r.op = 3) ∧ d.session.isNone ∨ opens ∧ d.session.isSome then some 4
  else if opens ∧ hmac ∧ ! (s.keySlot r.slot).usable 1 0 0 then some 2
  else if r.op = 5 ∧ ! (s.keySlot r.slot).usable 1 1 0 then some 2
  else none

/-- A write of REQ_CMD. -/
def State.digCmd (s : State) (q w : Nat) : State :=
  let pg := Pg.DIG q
  if ! w.testBit 31 ∨ (s.digQ q).req.isSome then s
  else
    let r : DigReq :=
      { cmd := w, data := s.regBytes pg Fd.DIG_REQ_DATA_DATA 64, target := s.live (pg * 4096 + Fd.DIG_REQ_TARGET_SLOT.off),
        acl := s.live (pg * 4096 + Fd.DIG_REQ_ACL_OWNER.off), hkdf := s.live (pg * 4096 + Fd.DIG_REQ_HKDF_SALT_LEN.off),
        due := none }
    match s.digRefusal q r with
    | some st => (s.modDigQ q fun d => { d with idleClosed := false }).digFail q st
    | none =>
      let s := s.setLive (pg * 4096 + Fd.DIG_RESULT_EQ.off) 8
      let s := s.modDigQ q fun d => { d with req := some r }
      match r.op with
      | 2 => s.digAbsorb q r
      | 3 => s.digAbsorb q r
      | 5 => s
      | 6 => (s.digDrop q).digEnd q 0 false false 0 []
      | _ =>
        match (s.digQ q).freeCtx 0 with
        | some c => s.digGranted q c r
        | none => s.modDigQ q fun d =>
          { d with req := some { r with due := some (s.now + msec (s.cfg pg Fd.DIG_REQ_CTRL_WAIT_MS)) }, waits := d.waits ++ [digDirect] }

/-- The end of FINAL or ONESHOT. -/
def State.digFinal (s : State) (q : Nat) (r : DigReq) (x : DigCtx) (eqFault neqFault : Bool) : State :=
  let pg := Pg.DIG q
  let d := digLen x.alg
  let res := x.result x.msg
  let s := (s.bump pg Fd.DIG_CNT_COUNT 0).bumpPart pg Fd.DIG_CNT_COUNT 1 x.msg.length (2 ^ 20)
  let same := decide (res = sliceB r.data 192 d)
  let eq := same != eqFault
  let neq := (! same) != neqFault
  if r.compare ∧ eq = neq then
    (((s.bump pg Fd.DIG_CNT_COUNT 4).setEv pg 9).logEv pg 0x1001 .absorbed).digDrop q |>.digEnd q 5 eq neq d []
  else
    let s := s.digDrop q
    if r.derive then
      let l := r.outLen d
      if s.targetOk r l then (s.writeDerived q r (res.take l)).digEnd q 0 (r.compare && eq) (r.compare && neq) l []
      else s.digFail q 7
    else if r.compare then s.digEnd q 0 eq neq d []
    else s.digEnd q 0 false false d res
/-- The end of HKDF. -/
def State.digHkdfEnd (s : State) (q : Nat) (r : DigReq) : State :=
  let l := r.outLen 0
  if ! s.targetOk r l then s.digFail q 7
  else
    let key := hkdf (bitsOf r.cmd 7 4) (s.keySlot r.slot).key (sliceB r.data 0 (bitsOf r.hkdf 7 0)) (sliceB r.data 128 (bitsOf r.hkdf 15 8)) l
    (s.writeDerived q r key).digEnd q 0 false false l []

/-- A firmware activation ends the direct session (R402). -/
def State.digAbort (s : State) (q : Nat) : State :=
  if (s.digQ q).session.isNone ∧ (s.digQ q).req.isNone then s else (s.digDrop q).digFail q 8

end Sys2Proof.Machine
end

