-- ==== Sys2Proof/Machine/EraseOps.lean ====
section
/-! DEFINITION. Cryptographic erase and the end of a namespace (R144, R167, R408, R409). -/

namespace Sys2Proof

/-- The NSIDs that a command names. -/
def Instr.nsids : Instr → List Nat
  | .read _ r .. => [r.nsid]
  | .write _ r .. => [r.nsid]
  | .flush _ n => [n]
  | .writeUncorrectable _ r => [r.nsid]
  | .compare _ r .. => [r.nsid]
  | .writeZeroes _ r _ => [r.nsid]
  | .datasetManagement _ n .. => [n]
  | .verify _ r _ => [r.nsid]
  | .copy _ n .. => [n]
  | .ioManagementReceive _ n => [n]
  | .ioManagementSend _ n _ => [n]
  | .store _ n .. => [n]
  | .retrieve _ n .. => [n]
  | .delete _ n _ => [n]
  | .exist _ n _ => [n]
  | .list _ n .. => [n]
  | .executeProgram _ _ d _ => if d.outKind = 1 then [d.inNsid, d.outNsid] else [d.inNsid]
  | .memoryCopy _ _ _ r _ => [r.nsid]
  | _ => []

end Sys2Proof

namespace Sys2Proof.Machine

/-! ## Commands of a namespace -/

/-- A command names one of the namespaces. -/
def State.namesNs (s : State) (l : List Nat) (x : Ctx) : Bool :=
  x.op.nsids.any fun n => (s.nsOf x.inst n).any fun e => l.contains e.1
/-- Commands of the namespaces that have started and not ended (R130, R409 step 1). -/
def State.startedOn (s : State) (l : List Nat) : Bool :=
  s.cmd.ctxs.any fun e => s.namesNs l e.2 && e.2.state ≠ .admitted
/-- Every command of the namespaces that `p` accepts ends with a status. -/
def State.cutNs (s : State) (l : List Nat) (p : Ctx → Bool) (st : Status) : State :=
  ((s.cmd.ctxs.filter fun e => s.namesNs l e.2 && p e.2).map Prod.fst).foldl (fun s c => s.cut c st) s

/-! ## What a namespace leaves (R361, R408, R409) -/

/-- Every grain of a namespace is unmapped. -/
def State.unmapNs (s : State) (nsx : Nat) : State :=
  let l := (s.map.map.filter fun e => e.1 / 2 ^ 40 = nsx).map fun e => e.1 % 2 ^ 40
  l.foldl (fun s g => s.plainCommit nsx g 0) s
/-- Every index bucket of a namespace is unmapped, and with the buckets the values' grains are free. -/
def State.clearIndex (s : State) (nsx : Nat) : State :=
  s.modMat fun m =>
    { m with
      kv := m.kv.filter fun e => e.1 / 2 ^ 48 ≠ nsx
      alloc := m.alloc.filter fun e => e.1 / 2 ^ 48 ≠ nsx
      zap := m.zap.filter fun z => z.1 ≠ nsx }
/-- Step 3 for one namespace: its grains, its buckets, and its segments' directory entries. -/
def State.emptyNs (s : State) (nsx : Nat) : State :=
  let s := ((s.unmapNs nsx).clearIndex nsx).modMap fun m => { m with dir := m.dir.filter fun e => e.1 / 2 ^ 40 ≠ nsx }
  s.capCheck
/-- A bank entry is replaced from the TRNG: what was encrypted under the old one is no longer readable. -/
def State.newNsKey (s : State) (nsx : Nat) : State :=
  let s := s.modSec fun k => { k with keyDraws := k.keyDraws + 1 }
  s.modMedia fun m => { m with nss := KV.adjust m.nss nsx fun n => { n with keyGen := s.sec.keyDraws, keyLost := false } }
/-- A namespace goes: its commands end, its key is destroyed, its grains are unmapped, its NSX is free (R167, R408). -/
def State.deleteNs (s : State) (nsx : Nat) : State :=
  match KV.get? s.media.nss nsx with
  | none => s
  | some n =>
    let s := (s.cutNs [nsx] (fun _ => true) St.invalidNs).emptyNs nsx
    let s := s.modMedia fun m => { m with nss := KV.del m.nss nsx }
    s.modCmd fun m =>
      { m with
        attach := m.attach.map fun e => if e.1 % 256 = n.inst then (e.1, delNat n.nsid e.2) else e
        ctrls := m.ctrls.map fun c => if c.2.inst = n.inst ∧ ! c.2.disc then (c.1, { c.2 with attached := delNat n.nsid c.2.attached }) else c }

/-- Namespaces of an instance, ascending NSX. -/
def State.nssOf (s : State) (i : Nat) : KV NsS := s.media.nss.filter fun e => e.2.inst = i

/-! ## The erase (R409) -/

/-- Bands that hold a frame of the namespaces, S5 bands with their segment frames among them. -/
def State.bandsWith (s : State) (l : List Nat) : List Nat :=
  (s.media.bands.filter fun e => e.2.frames.any fun f => (f.kind = 0 || f.kind = 1) && l.contains f.nsx).map Prod.fst
/-- The step that an erase has reached, recorded in the journal. -/
def State.eraseStep (s : State) (i k : Nat) (f : Erase → Erase) : State :=
  (s.journal 0x1F 0 i k 0).modSec fun m => { m with erases := KV.adjust m.erases i fun e => { f e with step := k } }
/-- Scope in event 0x1009: every namespace of the instance, one namespace, a purge. -/
def Erase.scope (e : Erase) : Nat := if e.purge then 2 else match e.waiter with | .nobody => 0 | _ => 1
/-- An erase of namespaces of an instance begins: new commands to them complete with "Sanitize In Progress". -/
def State.startErase (s : State) (i : Nat) (l : List Nat) (purge : Bool) (w : Waiter) : State :=
  let e : Erase := { step := 1, nsxs := l, bands := [], total := 0, purge := purge, waiter := w }
  let s := s.modSec fun m => { m with erases := KV.put m.erases i e }
  let s := s.modMedia fun m => { m with nss := m.nss.map fun n => if l.contains n.1 then (n.1, { n.2 with sanitizing := true }) else n }
  let s := s.cutNs l (fun x => x.state = .admitted) St.sanitizing
  (s.journal 0x1F 0 i 1 0).logEv Pg.SEC 0x1009 .notice i [BitVec.ofNat 8 i, BitVec.ofNat 8 e.scope, 1]
/-- The bands that step 4 still has to erase. -/
def State.bandsLeft (s : State) (e : Erase) : List Nat := e.bands.filter fun b => (KV.get? s.media.bands b).isSome

/-- A purge is under way on an instance (R144). -/
def State.purging (s : State) (i : Nat) : Bool := (KV.get? s.sec.erases i).any (·.purge)
/-- The action of the manager on an instance ended (R163). -/
def State.actionDone (s : State) (i result : Nat) : State :=
  (s.modInst fun m => { m with acting := delNat i m.acting, result := result }).setEv Pg.INSTM 10
/-- What a purge does once the erase is over: the namespaces and the keys go, CFG is as manufactured. -/
def State.purgeEnd (s : State) (i : Nat) : State :=
  let s := ((s.nssOf i).map Prod.fst).foldl (fun s n => s.deleteNs n) s
  let s := s.modSec fun m => { m with keys := m.keys.filter fun k => k.2.owner ≠ i || k.2.scopeAll }
  let s := (s.modInst fun m => { m with cfgCap := KV.del m.cfgCap i, cfgUrg := KV.del m.cfgUrg i }).wantSave Pg.INSTM
  (s.logEv Pg.INSTM 0x0605 .notice i).actionDone i 0

/-- A namespace takes the format that a Format NVM asks for. -/
def State.setFormat (s : State) (nsx lbaf piType : Nat) (piFirst : Bool) : State :=
  s.modMedia fun m => { m with nss := KV.adjust m.nss nsx fun n => { n with lbaf := lbaf, piType := piType, piFirst := piFirst } }
def State.formatOf (s : State) (c i : Nat) : State :=
  match s.ctx? c with
  | none => s
  | some x => match x.op with
    | .formatNvm _ nsid lbaf _ piType piFirst => match s.nsOf i nsid with
      | some (k, _) => s.setFormat k lbaf.toNat piType piFirst
      | none => s
    | _ => s

/-- Step 5: commands are accepted again, and whoever waits is told. -/
def State.eraseEnd (s : State) (i : Nat) (e : Erase) : State :=
  let s := s.journal 0x1F 0 i 5 0
  let s := s.modMedia fun m => { m with nss := m.nss.map fun n => if e.nsxs.contains n.1 then (n.1, { n.2 with sanitizing := false }) else n }
  let s := s.modSec fun m => { m with erases := KV.del m.erases i }
  let s := s.logEv Pg.SEC 0x1009 .notice i [BitVec.ofNat 8 i, BitVec.ofNat 8 e.scope, 0]
  if e.purge then s.purgeEnd i
  else match e.waiter with
    | .ctx c => (s.formatOf c i).finish c St.ok
    | _ =>
      let s := s.modSec fun m => { m with sanitized := KV.put m.sanitized i 1 }
      s.aenInst i 0x81 (6 + 0x01 * 256 + 0x81 * 65536)

/-- The step that runs is over: the next is recorded and its work done. -/
def State.eraseNext (s : State) (i : Nat) (e : Erase) : State :=
  match e.step with
  | 1 => if s.startedOn e.nsxs then s else s.eraseStep i 2 id
  | 2 =>
    if s.sec.trngFailed then s
    else
      let l := s.bandsWith e.nsxs
      (e.nsxs.foldl (fun s n => s.newNsKey n) s).eraseStep i 3 fun e => { e with bands := l, total := l.length }
  | 3 => (e.nsxs.foldl (fun s n => s.emptyNs n) s).eraseStep i 4 id
  | _ => if s.bandsLeft e = [] then s.eraseEnd i e else s

end Sys2Proof.Machine
end

