-- ==== Sys2Proof/Machine/ActOps.lean ====
section
/-! DEFINITION. Firmware activation and its pause (R50, R136, R402, R431, R432). -/

namespace Sys2Proof.Machine

/-- Step 1: admission stops on every queue; direct sessions end. `c`: the context of the Firmware Commit that waits, if one does. -/
def State.startActivation (s : State) (c : Option Nat) (slot : Nat) : State :=
  let s := s.modCmd fun m =>
    { m with act := .draining, actAt := s.now, actDue := s.now + msec 200, actCmd := some (c, slot), actPrev := s.fw.active }
  let s := s.logEv Pg.CMD 0x0502 .info 0 (leBytes 4 s.cmd.lastPause)
  let s := (List.range 4).foldl (fun s q => s.digAbort q) s
  s.breachBegin 5 5 0 s.enabledList
/-- Commands in flight, the Firmware Commit itself aside. -/
def State.inFlight (s : State) : Bool :=
  s.cmd.ctxs.any fun e => match s.cmd.actCmd with
    | some (some c, _) => e.1 ≠ c
    | _ => true
/-- Activation closes every expert region, ends every unlock sequence and reloads every staging image (R50). -/
def State.resetPages (s : State) : State :=
  let shut := fun (u : Unlock) => { u with armed := none, openUntil := none }
  (s.modCtl fun c => { c with pages := c.pages.map fun e =>
    (e.1, { e.2 with staged := [], owner := 0, expired := false, factoryStaged := false, mp := shut e.2.mp, mgr := shut e.2.mgr }) }).clearKeyData
/-- The image of a slot runs. -/
def State.swapTo (s : State) (slot : Nat) : State :=
  let s := s.modFw fun f => { f with active := slot, pendingSlot := 0, trial := true }
  ((s.setEv Pg.DEV 8).logEv Pg.DEV 0x1106 .info 0 [BitVec.ofNat 8 slot]).resetPages
/-- Step 4: admission resumes, the timers go on where they stood, and the Firmware Commit completes. -/
def State.endActivation (s : State) (st : Status) : State :=
  let pause := s.now - s.cmd.actAt
  let c := s.cmd.actCmd
  let later := fun (t : Option Nat) => t.map (· + pause)
  let s := s.modCmd fun m =>
    { m with
      act := .idle, actCmd := none, lastPause := pause / 1000
      ctrls := m.ctrls.map fun k => (k.1, { k.2 with kaDue := later k.2.kaDue })
      ctxs := m.ctxs.map fun x => (x.1, { x.2 with xferDue := later x.2.xferDue }) }
  let s := s.logEv Pg.CMD 0x0502 .info 0 (leBytes 4 s.cmd.lastPause)
  let s := s.modInst fun m => { m with breaches := m.breaches.map fun b => if b.cause = 5 then { b with measure := pause / 1000 } else b }
  let s := s.breachEnd fun b => b.cause = 5
  match c with
  | some (some n, _) => s.finish n st
  | _ => s

/-- A controller reset of instance 0 activates the slot that waits for one (R432). -/
def State.pendingActivation (s : State) (inst : Nat) : State :=
  if inst = 0 ∧ s.fw.pendingSlot ≠ 0 ∧ s.cmd.act = .idle ∧ s.serving then s.startActivation none s.fw.pendingSlot else s

end Sys2Proof.Machine
end

