-- ==== Sys2Proof/Machine/LinkOps.lean ====
section
/-! DEFINITION. Ports, sub-links and connections: links up and down, namespace access by port, the rate controller, the receive
buffer and its protections, and the credit of pulled data (R25, R78 to R91, R105, R115). -/

namespace Sys2Proof.Machine

/-! ## Sub-links (R78, R83, R104) -/

def State.subOf (s : State) (p k : Nat) : SubLink := KV.getD .down s.net.subs (4 * p + k)
def State.modSub (s : State) (p k : Nat) (f : SubLink → SubLink) : State :=
  s.modNet fun m => { m with subs := KV.modify .down m.subs (4 * p + k) f }
/-- Sub-links of a breakout, and electrical lanes of each (R78). -/
def State.subCount (s : State) (p : Nat) : Nat := 2 ^ s.cfg (Pg.NET p) Fd.NET_NET_CTRL_BREAKOUT
def State.subLanes (s : State) (p : Nat) : Nat := 8 / s.subCount p
/-- Line rate of a sub-link in units of 10 Mbit/s. -/
def State.lineRate (s : State) (p : Nat) : Nat := 80000 / s.subCount p
/-- Count a sub-link's counter. -/
def State.bumpSub (s : State) (p k n : Nat) : State :=
  s.modSub p k fun x => { x with cnt := KV.put x.cnt n ((KV.getD 0 x.cnt n + 1) % 2 ^ 32) }
/-- A port is powered and enabled and has not failed. -/
def State.portReady (s : State) (p : Nat) : Bool :=
  s.isUp (Dom.NPHY p) && s.cfgB (Pg.NET p) Fd.NET_NET_CTRL_ENABLE && ! s.fence.ports.contains p
/-- The sub-link exists in the port's breakout and may be used. -/
def State.subReady (s : State) (p k : Nat) : Bool := s.portReady p && decide (k < s.subCount p)

/-- ANA state of a controller by its port: 1 optimized, 2 non-optimized, 3 inaccessible (R115). -/
def State.anaOfPort (s : State) (p : Nat) : Nat :=
  let l := (List.range (s.subCount p)).map fun k => s.subOf p k
  if s.fence.ports.contains p ∨ l.any (·.selftest) then 3 else if l.any (·.degraded) then 2 else 1
def State.anaOf (s : State) (k : Ctrl) : Nat :=
  match KV.get? s.net.conns k.conn with
  | some c => s.anaOfPort c.port
  | none => 3
/-- A change at a port: where its ANA state changes, every controller of each instance reached through it that has enabled the
notice is told (R115). -/
def State.withAna (s : State) (p : Nat) (f : State → State) : State :=
  let t := f s
  if t.anaOfPort p = s.anaOfPort p then t
  else
    let on := s.cmd.ctrls.filter fun c => ! c.2.disc && (KV.get? s.net.conns c.2.conn).any fun x => x.port = p
    let insts := (on.map fun c => c.2.inst).eraseDups
    (t.cmd.ctrls.filter fun c => insts.contains c.2.inst && ! c.2.disc).foldl (fun s c => s.aenCtrl c.1 11 0x0C (2 + 0x03 * 256 + 0x0C * 65536)) t

/-- Lanes of a sub-link as a mask. -/
def State.laneMask (s : State) (p k : Nat) : Nat := (2 ^ s.subLanes p - 1) * 2 ^ (s.subLanes p * k)
/-- A sub-link goes down. -/
def State.linkDown (s : State) (p k : Nat) : State :=
  let was := (s.subOf p k).up
  let s := s.modSub p k fun x => { x with up := false, paused := [], ignored := [] }
  let m := s.laneMask p k
  let s := s.modNet fun n => { n with laneLock := KV.modify 0 n.laneLock p fun w => w - (w &&& m) }
  if was then s.setEv (Pg.NET p) 8 else s
/-- A sub-link comes up with its lanes' trained equalisation, which is stored (R104). -/
def State.linkUp (s : State) (p k : Nat) (eq : List Nat) : State :=
  let was := (s.subOf p k).up
  let s := s.modSub p k fun x => { x with up := true, selftest := false, retrainAt := none, backoff := 1 }
  let m := s.laneMask p k
  let w := s.subLanes p
  let s := s.modNet fun n =>
    { n with
      laneLock := KV.modify 0 n.laneLock p fun w => w ||| m
      eq := (List.range w).foldl (fun e i => KV.set 0 e (8 * p + w * k + i) (eq.getD i 0)) n.eq }
  if was then s else s.setEv (Pg.NET p) 8
/-- All sub-links of a port go down. -/
def State.portDown (s : State) (p : Nat) : State := (List.range 4).foldl (fun s k => s.linkDown p k) s
/-- A port is down from an external cause (R25, R422, R443). -/
def State.portExternal (s : State) (p : Nat) : State :=
  let any := (List.range 4).any fun k => (s.subOf p k).up
  let s := (s.portDown p).modNet fun n => { n with external := insNat p n.external }
  if any then s.logEv (Pg.NET p) 0x0401 .notice 0 [0, 0] else s

/-! ## Cages (R422, R443) -/

def State.cage (s : State) (p : Nat) : Cage := if p = 0 then s.pwr.cage0 else s.pwr.cage1
def State.modCage (s : State) (p : Nat) (f : Cage → Cage) : State :=
  s.modPwr fun w => if p = 0 then { w with cage0 := f w.cage0 } else { w with cage1 := f w.cage1 }
/-- A cage is powered with its port's domain, unless an overcurrent removed its power. -/
def State.cagePower (s : State) (p : Nat) : Bool := s.isUp (Dom.NPHY p) && ! (s.cage p).cutOff
/-- A cage's transceiver is read: without one, without power, or above 18 W, the port stays down from an external cause. -/
def State.cageCheck (s : State) (p : Nat) : State :=
  let c := s.cage p
  if ! s.isUp (Dom.NPHY p) then s
  else if ! c.present ∨ c.cutOff then s.modNet fun n => { n with external := insNat p n.external }
  else if 180 < c.deciWatt then (s.modNet fun n => { n with external := insNat p n.external }).logEv Pg.PWR 0x1303 .notice 0 (BitVec.ofNat 8 p :: leBytes 2 c.deciWatt)
  else s.modNet fun n => { n with external := delNat p n.external }

/-- Associations with a connection on a port end, and its other connections close (R105). -/
def State.portLeaves (s : State) (p : Nat) : State :=
  let l := s.net.conns.filter fun c => c.2.port = p
  let s := l.foldl (fun s c => match c.2.ctrl with | some k => s.endAssoc k | none => s) s
  l.foldl (fun s c => s.closeConn c.1) s
/-- A port fails as a whole (R23, R83, R105): the second takes the module to PRESERVE. -/
def State.portFails (s : State) (p : Nat) : State :=
  if s.fence.ports.contains p then s
  else
    let s := s.withAna p fun s =>
      let s := (List.range 4).foldl (fun s k => s.modSub p k fun x => { x with selftest := false, retrainAt := none }) (s.portDown p)
      (s.modFence fun f => { f with ports := insNat p f.ports }).saveFence
    let s := s.portLeaves p
    let both := s.fence.ports.length = 2
    s.failure (Pg.NET p) 0x0109 (! both) (if both then some 3 else none)

/-! ## Connections -/

def State.conn? (s : State) (n : Nat) : Option Conn := KV.get? s.net.conns n
def State.modConn (s : State) (n : Nat) (f : Conn → Conn) : State := s.modNet fun m => { m with conns := KV.adjust m.conns n f }
/-- A connection ends, and with it the association that it serves (R114). -/
def State.loseConn (s : State) (n : Nat) : State :=
  match s.conn? n with
  | none => s
  | some c => match c.ctrl with
    | some k => (s.closeConn n).endAssoc k
    | none => s.closeConn n

/-- A connection is terminated for a PDU (R133). -/
def State.terminate (s : State) (conn inst fes : Nat) : State :=
  (((s.emit (.termReq conn fes)).setEv Pg.CMD 11).logEv Pg.CMD 0x0501 .notice inst).loseConn conn

def State.halfOpen (s : State) : Nat := (s.net.conns.filter fun c => c.2.phase = .halfOpen).length
def State.connCount (s : State) (roce : Bool) : Nat := (s.net.conns.filter fun c => c.2.roce = roce && c.2.phase ≠ .halfOpen).length
/-- SYN cookies are in use while the half-open table holds more than COOKIE_AT entries, or always (R99). -/
def State.cookieTrack (s : State) : State :=
  let on : Bool := s.cfgB Pg.NETX Fd.NETX_CONN_COOKIE_ALWAYS || decide (s.cfg Pg.NETX Fd.NETX_CONN_COOKIE_AT < s.halfOpen)
  if on = s.net.cookies then s
  else (s.modNet fun m => { m with cookies := on }).logEv Pg.NETX 0x0407 .info 0 [BitVec.ofNat 8 on.toNat]
/-- A connection is established; beyond the module's limit it is dropped (R99). -/
def State.establish (s : State) (n : Nat) : State :=
  match s.conn? n with
  | none => s
  | some c =>
    if c.phase ≠ .halfOpen then s
    else if 16384 ≤ s.connCount c.roce then ((s.closeConn n).bump Pg.CLS Fd.CLS_CNT_COUNT 3).cookieTrack
    else (s.modConn n fun c => { c with phase := .established }).cookieTrack

/-! ## The rate controller (R91) -/

def Conn.open_ (c : Conn) (line now tAlpha tInc : Nat) : Conn :=
  { c with
    rate := line, target := line, alpha := 1, stage := 0, lastCut := none, sent := 0, tokens := 65536, tokensAt := now
    alphaDue := now + tAlpha, incDue := now + tInc }
def State.tAlpha (s : State) : Nat := usec (s.cfg Pg.NETX Fd.NETX_RC1_T_ALPHA)
def State.tInc (s : State) : Nat := usec (s.cfg Pg.NETX Fd.NETX_RC1_T_INC)
def State.rcG (s : State) : Rat := 1 / (2 ^ s.cfg Pg.NETX Fd.NETX_RC1_G_LOG2 : Nat)
/-- A signal. -/
def State.rateSignal (s : State) (n : Nat) : State :=
  let g := s.rcG
  let rmin : Rat := s.cfg Pg.NETX Fd.NETX_RC3_RMIN
  let tCut := usec (s.cfg Pg.NETX Fd.NETX_RC3_T_CUT)
  s.modConn n fun c =>
    let may := match c.lastCut with | none => true | some t => decide (t + tCut ≤ s.now)
    let c := if may then
        { c with
          target := c.rate, rate := max rmin (c.rate * (1 - c.alpha / 2)), alpha := (1 - g) * c.alpha + g, stage := 0, lastCut := some s.now
          incDue := s.now + s.tInc, sent := 0 }
      else c
    { c with alphaDue := s.now + s.tAlpha }
/-- An increase. -/
def State.rateIncrease (s : State) (n : Nat) : State :=
  let f := s.cfg Pg.NETX Fd.NETX_RC3_F
  s.modConn n fun c =>
    let line : Rat := s.lineRate c.port
    let st := c.stage + 1
    let target : Rat :=
      if 2 * f < st then min line (c.target + (s.cfg Pg.NETX Fd.NETX_RC2_RHAI * (st - 2 * f) : Nat))
      else if f < st then min line (c.target + (s.cfg Pg.NETX Fd.NETX_RC2_RAI : Nat))
      else c.target
    { c with stage := st, sent := 0, incDue := s.now + s.tInc, target := target, rate := (c.rate + target) / 2 }
/-- Bytes in the token bucket at a time: 10 Mbit/s is a byte in 800 ns. -/
def Conn.tokensNow (c : Conn) (t : Nat) : Nat := min 65536 (c.tokens + (c.rate * ((t - c.tokensAt : Nat) : Rat) / 800).floor.toNat)
/-- When the bucket holds so many bytes. -/
def Conn.tokensBy (c : Conn) (n : Nat) : Nat :=
  if n ≤ c.tokens then c.tokensAt else c.tokensAt + ((((n - c.tokens : Nat) : Rat) * 800) / c.rate).ceil.toNat

/-! ## The source of time (R427) -/

/-- TIME steps, and its source changes: event 0x1108 with the step. -/
def State.setSource (s : State) (src : TimeSource) (step : Int) : State :=
  let was := s.time.source
  let s := s.modTime fun t => { t with base := t.base + step, source := src }
  if was = src then s else (s.setEv Pg.DEV 9).logEv Pg.DEV 0x1108 .info 0 (leBytes 8 (step % 2 ^ 64).toNat)
/-- PTP is no longer locked: the next source serves. -/
def State.ptpLost (s : State) : State :=
  let s' := s.modTime fun t => { t with ptpLocked := false, ptpGoodSince := none }
  if s.time.ptpLocked then s'.setSource (if s.time.managerSet then .set else .aon) 0 else s'

/-! ## The receive buffer (R85, R86) -/

def mibB (n : Nat) : Nat := n * 2 ^ 20
def popMask (m : Nat) : Nat := ((List.range 8).filter fun k => m.testBit k).length
/-- Headroom: 1 MiB for each lossless priority of each port. -/
def State.headroom (s : State) : Nat :=
  mibB (popMask (s.cfg (Pg.NET 0) Fd.NET_PFC_CTRL_LOSSLESS) + popMask (s.cfg (Pg.NET 1) Fd.NET_PFC_CTRL_LOSSLESS))
/-- M: what remains after the headroom. -/
def State.rxM (s : State) : Nat := mibB 64 - s.headroom
/-- O: the SRAM in use outside the headroom. -/
def State.rxO (s : State) : Nat := s.net.sram.foldl (fun n f => if f.head then n else n + f.bytes) 0
def State.connInst (s : State) (n : Nat) : Nat := ((s.conn? n).map (·.inst)).getD 0
/-- The SRAM that an instance holds outside the headroom. -/
def State.rxHeld (s : State) (i : Nat) : Nat := s.net.sram.foldl (fun n f => if f.head ∨ s.connInst f.conn ≠ i then n else n + f.bytes) 0
/-- Its reserved minimum. -/
def State.rxMin (s : State) (i : Nat) : Nat := if s.enabled i then s.rxM / 2 * s.share i / 4096 else 0
def State.rxWithin (s : State) (i : Nat) : Bool := s.rxHeld i ≤ s.rxMin i
/-- The spill area: 512 MiB in each quadrant. -/
def State.spillCap (s : State) : Nat := mibB 512 * (4 - s.fence.quads.length)
def State.spillUsed (s : State) : Nat := s.net.spill.foldl (fun n f => n + f.bytes) 0
/-- Step 3 of R86: spilling begins at SPILL.ON and ends 8 MiB below it. -/
def State.spillTrack (s : State) : State :=
  let on := mibB (s.cfg Pg.NETX Fd.NETX_SPILL_ON)
  let o := s.rxO
  s.modNet fun m =>
    { m with spilling := s.cfgB Pg.NETX Fd.NETX_SPILL_ENABLE && (decide (on ≤ o) || (m.spilling && decide (on ≤ o + mibB 8))) }
/-- PFC on every sub-link that is up. -/
def State.sendPfc (s : State) (off : Bool) : State :=
  [0, 1].foldl (fun s p =>
    (List.range 4).foldl (fun s k =>
      if (s.subOf p k).up then (s.emit (.pfc p k (if off then s.cfg (Pg.NET p) Fd.NET_PFC_CTRL_LOSSLESS else 0))).bumpSub p k 4 else s) s) s
/-- Steps 4 and 5 of R86: XOFF at 90 %, XON below 75 %, and the end of a full spell. The release of the pause ends the breach of
cause 0x0004 (R152). -/
def State.pfcTrack (s : State) : State :=
  let used := s.spillUsed
  let cap := s.spillCap
  let s := if used < cap then s.modNet fun m => { m with full := false } else s
  if ! s.net.xoff ∧ cap * 9 ≤ used * 10 then (s.modNet fun m => { m with xoff := true }).sendPfc true
  else if s.net.xoff ∧ used * 4 < cap * 3 then
    (((s.modNet fun m => { m with xoff := false }).sendPfc false)).breachEnd fun b => b.cause = 4
  else s
/-- A frame of a connection has been processed: the oldest that the SRAM holds for it is freed. -/
def dropFirst (n : Nat) : List RxFrame → List RxFrame
  | [] => []
  | f :: l => if f.conn = n then l else f :: dropFirst n l
def State.rxDone (s : State) (n : Nat) : State := (s.modNet fun m => { m with sram := dropFirst n m.sram }).spillTrack

/-- A packet of a connection arrived marked, or is treated as marked (R88). -/
def State.markedOn (s : State) (n : Nat) : State :=
  match s.conn? n with
  | none => s
  | some c =>
    if c.roce then
      if c.lastCnp.any fun t => decide (s.now < t + usec 50) then s
      else ((s.modConn n fun c => { c with lastCnp := some s.now }).emit (.cnp n)).bump Pg.NETX Fd.NETX_CNT_COUNT 4
    else if c.ecn then s.modConn n fun c => { c with eceOwed := true } else s

/-! ## Credit for pulled data (R87) -/

/-- Bytes asked for and not yet received, of an instance. -/
def State.askedOut (s : State) (i : Nat) : Nat :=
  s.cmd.ctxs.foldl (fun n e => if e.2.inst = i then n + (e.2.open_.foldl (fun n r => n + r.2) 0) else n) 0
/-- The free part of the shared half: what instances hold above their minimums is taken from it. -/
def State.rxSharedFree (s : State) : Nat :=
  let above := (List.range 256).foldl (fun n i => n + (s.rxHeld i + s.askedOut i - s.rxMin i)) 0
  s.rxM / 2 - above
/-- Credit: the unused reserved minimum and the share-weighted part of the free shared part. -/
def State.rxCredit (s : State) (i : Nat) : Nat :=
  (s.rxMin i - (s.rxHeld i + s.askedOut i)) + s.rxSharedFree * s.share i / 4096

end Sys2Proof.Machine
end

