-- ==== Sys2Proof/Machine/AdmitEvents.lean ====
section
/-! DEFINITION. Admission of connections: the rule table, rate classes, limits, SYN cookies, TLS and the hold-off list (R95 to R104,
R108). -/

namespace Sys2Proof.Machine

/-! ## The rule table (R96, R97) -/

def ruleFlag (r : List Byte) (bit : Nat) : Bool := (r.getD 2 0).getLsbD bit
def rulePrio (r : List Byte) : Nat := beNat (sliceB r 0 2)
def ruleByte (r : List Byte) (n : Nat) : Nat := (r.getD n 0).toNat
/-- Leading bits of an address. -/
def addrPrefix (l : List Byte) (n : Nat) : Nat := beNat (sliceB l 0 16) / 2 ^ (128 - min n 128)
/-- Every field that is no wildcard equals the attempt's. -/
def ruleMatches (r : List Byte) (a : Attempt) : Bool :=
  let vlan := beNat (sliceB r 4 2) % 4096
  let l4 := ruleByte r 6
  let plen := ruleByte r 7
  let dst := beNat (sliceB r 0x18 2)
  let port := beNat (sliceB r 0x1A 2)
  ruleFlag r 0 && ruleFlag r 1 = a.ipv6 && (r.getD 3 0).getLsbD (4 * a.port.val + a.sub.val)
    && (decide (vlan = 0xFFF) || decide (vlan = a.vlan.toNat))
    && (decide (l4 = 0) || decide (l4 = if a.roce then 2 else 1))
    && decide (addrPrefix (sliceB r 8 16) plen = addrPrefix a.src plen)
    && (decide (dst = 0xFFFF) || decide (dst = a.dstIndex.val)) && (decide (port = 0) || decide (port = a.dstPort.toNat))
/-- The highest PRIORITY wins, then the lowest index. -/
def State.ruleFor (s : State) (a : Attempt) : Option (Nat × List Byte) :=
  s.net.rules.foldl (fun best e =>
    if ! ruleMatches e.2 a then best
    else match best with
      | none => some e
      | some b => if rulePrio b.2 < rulePrio e.2 then some e else best) none

/-! ## Rate classes and attempts (R99) -/

/-- Tokens of a rate class, in millionths of an attempt. -/
def State.bucketNow (s : State) (k : Nat) : Nat :=
  let cap := s.cfgAt Pg.CLS Fd.CLS_RATE_BURST k * 1000000
  match KV.get? s.net.buckets k with
  | none => cap
  | some (n, t) => min cap (n + s.cfgAt Pg.CLS Fd.CLS_RATE_RATE k * (s.now - t) / 1000)
def State.heldOff (s : State) (src : List Byte) : Bool := s.net.holdoff.any fun e => e.1 = src && decide (s.now < e.2)
def State.clsCount (s : State) (k : Nat) : State := s.bump Pg.CLS Fd.CLS_CNT_COUNT k
/-- The local address entry that an attempt reaches, with a service on its port: its port for discovery or, on TCP, for NVMe. -/
def State.attemptEntry (s : State) (a : Attempt) : Option (List Byte) :=
  (KV.get? s.net.addrs a.dstIndex.val).filter fun e =>
    (e.getD 0x10 0).getLsbD 0 && (e.getD 0x10 0).getLsbD 1 = a.ipv6 && (e.getD 0x11 0).getLsbD (4 * a.port.val + a.sub.val)
      && decide (beNat (sliceB e 0x12 2) % 4096 = a.vlan.toNat)
      && (a.roce || decide (beNat (sliceB e 0x16 2) = a.dstPort.toNat) || decide (beNat (sliceB e 0x18 2) = a.dstPort.toNat))
/-- An attempt is let through to its rule: the rule, or the state in which it was dropped. `token`: it counts against its rate class. -/
def State.attempt (s : State) (a : Attempt) (token : Bool) : Except State (Nat × List Byte × List Byte × State) :=
  if ! s.serving ∨ ! s.subReady a.port.val a.sub.val ∨ ! (s.subOf a.port.val a.sub.val).up then .error s
  else if s.cmd.drainStopped then .error (s.clsCount 3)
  else if s.heldOff a.src then .error s
  else match s.attemptEntry a with
    | none => .error s
    | some e => match s.ruleFor a with
      | none => .error (s.clsCount 2)
      | some (n, r) =>
        if ruleByte r 0x1C ≠ 1 then .error (s.clsCount 1)
        else if 16384 ≤ s.connCount a.roce then .error (s.clsCount 3)
        else if ! token then .ok (n, r, e, s)
        else
          let k := ruleByte r 0x1D % 16
          let b := s.bucketNow k
          let s := s.modNet fun m => { m with buckets := KV.put m.buckets k (if 1000000 ≤ b then b - 1000000 else b, s.now) }
          if b < 1000000 then .error (s.clsCount 3) else .ok (n, r, e, s.clsCount 0)
/-- A new connection, bound to its rule's instance. -/
def State.newConn (s : State) (a : Attempt) (n : Nat) (r e : List Byte) (phase : ConnPhase) (wscale : Bool) : State :=
  let c : Conn :=
    { port := a.port.val, sub := a.sub.val, roce := a.roce, ipv6 := a.ipv6, src := a.src, rule := n, inst := ruleByte r 0x1E
      reqTls := ruleFlag r 2, reqAuth := ruleFlag r 3, disc := decide (beNat (sliceB e 0x18 2) = a.dstPort.toNat), phase := phase
      prio := none, ecn := a.roce || a.ecn, wscale := wscale, tls := .none, tlsDue := none, keyUpdates := 0, icDone := false
      hdgst := false, ddgst := false, maxr2t := 0, ctrl := none, qid := 0, timeouts := 0, retries := 0, rnr := 0, dupAcks := 0
      eceOwed := false, lastCnp := none, waiting := 0, tokens := 0, tokensAt := 0, rate := 0, target := 0, alpha := 1, stage := 0
      lastCut := none, sent := 0, alphaDue := 0, incDue := 0 }
  let c := c.open_ (s.lineRate a.port.val) s.now s.tAlpha s.tInc
  s.modNet fun m => { m with conns := KV.put m.conns m.nextConn c, nextConn := m.nextConn + 1 }
/-- What the cookie of an attempt is a hash of. -/
def cookieBytes (a : Attempt) : List Byte :=
  BitVec.ofNat 8 (4 * a.port.val + a.sub.val) :: sliceB a.src 0 16 ++ leBytes 2 a.dstIndex.val ++ leBytes 2 a.dstPort.toNat
/-- R95, R97, R99, R100, R103. -/
def execTcpSynReceive (a : Attempt) (s : State) : Res :=
  .next <|
    if a.roce then s
    else match s.attempt a true with
      | .error s => s
      | .ok (n, r, e, s) =>
        let s := s.cookieTrack
        if s.net.cookies then (s.clsCount 6).emit (.synAck 0 (some (Config.synCookie s.net.cookieEpoch (cookieBytes a))))
        else
          let k := s.net.nextConn
          ((s.newConn a n r e .halfOpen true).emit (.synAck k none)).cookieTrack
/-- R95, R97, R99. A ConnectRequest that finds the half-open table full is dropped. -/
def execRoceConnectRequest (a : Attempt) (s : State) : Res :=
  .next <|
    if ! a.roce then s
    else match s.attempt a true with
      | .error s => s
      | .ok (n, r, e, s') => if 65536 ≤ s.halfOpen then s.clsCount 3 else s'.newConn a n r e .established true
/-- R97, R100. A cookie is good in its own slot and the next, under the rule then in force. -/
def execSynCookieAck (a : Attempt) (cookie : BitVec 32) (s : State) : Res :=
  .next <|
    let good := fun (n : Nat) => decide (Config.synCookie n (cookieBytes a) = cookie)
    if a.roce ∨ ! (good s.net.cookieEpoch || (decide (0 < s.net.cookieEpoch) && good (s.net.cookieEpoch - 1))) then s
    else match s.attempt a false with
      | .error s => s
      | .ok (n, r, e, s) => (s.newConn a n r e .established a.timestamps).clsCount 7
/-- R100. -/
def execCookieKeyRotate (s : State) : Res :=
  .next <|
    if ! s.isUp Dom.NETCORE then s
    else (s.reach s.net.cookieDue).modNet fun m => { m with cookieEpoch := m.cookieEpoch + 1, cookieDue := m.cookieDue + secs 64 }

/-! ## Failures to authenticate, and the hold-off list (R103) -/

/-- A source failed authentication or the TLS handshake. -/
def State.authFail (s : State) (src : List Byte) : State :=
  let s := s.clsCount 5
  let win := secs (s.cfg Pg.CLS Fd.CLS_HOLDOFF_WINDOW)
  let l := (src, s.now) :: s.net.authFails.filter fun e => decide (s.now ≤ e.2 + win)
  let s := s.modNet fun m => { m with authFails := l }
  if (l.filter fun e => e.1 = src).length < s.cfg Pg.CLS Fd.CLS_HOLDOFF_FAILS then s
  else
    let until_ := s.now + secs (s.cfg Pg.CLS Fd.CLS_HOLDOFF_HOLD)
    let s := s.modNet fun m =>
      { m with
        authFails := m.authFails.filter fun e => e.1 ≠ src
        holdoff := ((src, until_) :: m.holdoff.filter fun e => e.1 ≠ src).take 1024 }
    (s.setEv Pg.CLS 8).logEv Pg.CLS 0x0408 .notice 0 (sliceB src 0 16)
/-- R103. -/
def execHoldoffExpiry (src : List Byte) (s : State) : Res :=
  .next <|
    match s.net.holdoff.find? fun e => e.1 = src with
    | none => s
    | some e => (s.reach e.2).modNet fun m => { m with holdoff := m.holdoff.filter fun e => e.1 ≠ src }

/-! ## TLS (R101) -/

/-- The handshake failed: an alert, and the connection closes. -/
def State.tlsFails (s : State) (conn : Nat) (c : Conn) : State := ((s.emit (.tls conn 1)).loseConn conn).authFail c.src
/-- R101. The handshake needs a suite and a group that both sides have, and psk_dhe_ke. -/
def execTlsClientHello (conn : Nat) (aes256 aes128 x25519 secp384 pskDhe : Bool) (ends : Option Bool) (s : State) : Res :=
  .next <|
    match s.conn? conn with
    | none => s
    | some c =>
      if c.roce ∨ c.tls ≠ .none ∨ c.icDone then s
      else
        let s := s.establish conn
        let on := fun f => s.cfgB Pg.NETX f
        let suite := (aes256 && on Fd.NETX_TLS_AES256) || (aes128 && on Fd.NETX_TLS_AES128)
        let group := (x25519 && on Fd.NETX_TLS_X25519) || (secp384 && on Fd.NETX_TLS_SECP384)
        if ! (suite && group && pskDhe) then s.tlsFails conn c
        else match ends with
          | some true => (s.modConn conn fun c => { c with tls := .done }).emit (.tls conn 0)
          | some false => (s.emit (.tls conn 0)).tlsFails conn c
          | none => (s.modConn conn fun c => { c with tls := .handshake, tlsDue := some (s.now + secs 10) }).emit (.tls conn 0)
/-- R101. The handshake has not ended in 10 s. -/
def execTlsHandshakeTimeout (conn : Nat) (s : State) : Res :=
  .next <|
    match s.conn? conn with
    | none => s
    | some c => match c.tls, c.tlsDue with
      | .handshake, some t => (s.reach t).tlsFails conn c
      | _, _ => s
/-- R101. -/
def execTlsKeyUpdate (conn : Nat) (s : State) : Res :=
  .next <|
    match s.conn? conn with
    | none => s
    | some c => if c.tls = .done then (s.modConn conn fun c => { c with keyUpdates := c.keyUpdates + 1 }).emit (.tls conn 2) else s

/-! ## Revocation and equalisation (R98, R104) -/

/-- CLS.REVOKE with GO: the connections that the rule at an index admitted close. -/
def State.revokeRule (s : State) (index : Nat) : State :=
  let l := (s.net.conns.filter fun c => c.2.rule = index).map Prod.fst
  (l.foldl (fun s n => s.loseConn n) s).setEv Pg.CLS 10
def execRuleRevoke (path : Path) (index : BitVec 13) (s : State) : Res :=
  .next (s.viaPath path Pg.CLS 0x64 fun s => s.revokeRule index.toNat)
/-- EQ_CLEAR: the stored equalisation of a port is discarded. -/
def State.clearEq (s : State) (p : Nat) : State := s.modNet fun m => { m with eq := m.eq.filter fun e => e.1 / 8 ≠ p }
def execEqClear (path : Path) (port : Fin 2) (s : State) : Res :=
  .next (s.viaPath path (Pg.NET port.val) 0x420 fun s => s.clearEq port.val)

end Sys2Proof.Machine
end

