-- ==== Sys2Proof/Machine/FabricOps.lean ====
section
/-! DEFINITION. Connect, in-band authentication and the deletion of one I/O queue (R72, R95, R99, R101, R102, R111 to R114, R119, R156,
R461). -/

namespace Sys2Proof.Machine

def St.connectHost := St.nvme 1 0x84

/-! ## Connect (R95, R111) -/

/-- The completion of a Connect; `close`: the connection is then closed. -/
def State.connectEnds (s : State) (conn : Nat) (st : Status) (dw0 : Nat) (close : Bool) : State :=
  let s := (s.emit (.connect conn st dw0)).bump Pg.CMD Fd.CMD_CNT_COUNT 0
  let s := s.modPwr fun p => { p with lastDone := some s.now }
  if close then s.closeConn conn else s
/-- The Keep Alive Timeout taken from the milliseconds that Connect gives. -/
def State.katoOf (s : State) (ms : Nat) : Nat :=
  let most := 1000 * s.cfg Pg.CMD Fd.CMD_KATO_MAX_S
  if ms = 0 ∨ most < ms then most else max ms 1000
/-- An association begins: its admin queue. -/
def State.connectAdmin (s : State) (conn : Nat) (c : Conn) (entries katoMs host : Nat) : State :=
  if entries < 2 ∨ 32 < entries ∨ (! c.disc ∧ 16 ≤ (s.ctrlsOf c.inst).length) then s.connectEnds conn St.badConnect 0 false
  else
    let n := s.cmd.nextCtrl
    let ms := s.katoOf katoMs
    let k := Ctrl.fresh c.inst c.disc conn host entries ms (if c.disc then [] else KV.getD [] s.cmd.attach (256 * host + c.inst))
    let k := { k with kaDue := some (s.now + msec ms) }
    let s := s.modCmd fun m => { m with nextCtrl := n + 1, ctrls := KV.put m.ctrls n k }
    (s.modConn conn fun c => { c with ctrl := some n, qid := 0 }).connectEnds conn St.ok (n % 2 ^ 16 + if c.reqAuth then 2 ^ 17 else 0) false
/-- An I/O queue of a controller. -/
def State.connectIo (s : State) (conn : Nat) (c : Conn) (ctrl qid entries host : Nat) : State :=
  let bad := s.connectEnds conn St.badConnect 0 false
  match s.ctrl? ctrl with
  | none => bad
  | some k =>
    let queues := (s.ctrlsOf c.inst).foldl (fun n e => n + e.2.queues.length) 0
    if k.inst ≠ c.inst ∨ k.disc ∨ k.host ≠ host ∨ entries < 2 ∨ 1024 < entries ∨ 64 < qid ∨ 64 ≤ queues then bad
    else if c.reqAuth ∧ ! k.authed then s.connectEnds conn St.authRequired 0 false
    else if ! k.rdy ∨ k.resetting ∨ (KV.get? k.queues qid).isSome then s.connectEnds conn St.sequence 0 false
    else
      let q : IoQueue := { conn := conn, entries := entries, cls := .medium, clsNext := .medium, waiting := [] }
      let s := (s.keepAlive ctrl).modCtrl ctrl fun k => { k with queues := KV.put k.queues qid q }
      (s.modConn conn fun c => { c with ctrl := some ctrl, qid := qid }).connectEnds conn St.ok (ctrl % 2 ^ 16) false
/-- The subsystem NQN names the bound instance, or on a discovery port the discovery subsystem. -/
def Conn.names (c : Conn) (subnqn : Option Nat) : Bool := if c.disc then subnqn.isNone else subnqn = some c.inst
/-- A Connect on a connection that can bear one. -/
def State.connectOn (s : State) (conn : Nat) (c : Conn) (subnqn : Option Nat) (qid entries katoMs host ctrl : Nat) : State :=
  if ! c.names subnqn then s.connectEnds conn St.connectHost 0 true
  else if ! s.enabled c.inst then s.connectEnds conn St.instDisabled 0 true
  else if c.ctrl.isSome then s.connectEnds conn St.sequence 0 false
  else if qid = 0 then s.connectAdmin conn c entries katoMs host
  else if c.disc then s.connectEnds conn St.badConnect 0 false
  else s.connectIo conn c ctrl qid entries host
/-- What the transport asks of the first capsule: TLS where the rule demands it, and ICReq before it on TCP. -/
def State.capsuleOk (s : State) (conn : Nat) (c : Conn) : Except State Unit :=
  if c.reqTls ∧ c.tls ≠ .done then .error (s.loseConn conn)
  else if ! c.roce ∧ ! c.icDone then .error (s.terminate conn c.inst 2)
  else .ok ()
/-- A Connect capsule arrives: held while the instance is being reset or admission is stopped (R136, R156). -/
def State.connectArrives (s : State) (op : Instr) (conn : Nat) (subnqn : Option Nat) (qid entries katoMs host ctrl : Nat) : State :=
  match s.conn? conn with
  | none => s
  | some c =>
    if ! s.serving ∨ c.phase = .closed then s
    else match s.capsuleOk conn c with
      | .error t => t
      | .ok () =>
        if s.cmd.drainStopped then s.connectEnds conn St.notReady 0 false
        else if (! c.disc ∧ (s.instOf c.inst).resetting) ∨ s.cmd.act ≠ .idle then s.modCmd fun m => { m with heldConnects := m.heldConnects ++ [op] }
        else s.connectOn conn c subnqn qid entries katoMs host ctrl

/-! ## DH-HMAC-CHAP (R102, R103) -/

/-- Hash functions 1 to 3 and DH groups 0 to 3 enabled in NETX.AUTH. -/
def State.authEnabled (s : State) (hash group : Nat) : Bool :=
  let h := match hash with
    | 1 => s.cfgB Pg.NETX Fd.NETX_AUTH_SHA256 | 2 => s.cfgB Pg.NETX Fd.NETX_AUTH_SHA384 | 3 => s.cfgB Pg.NETX Fd.NETX_AUTH_SHA512 | _ => false
  let g := match group with
    | 0 => s.cfgB Pg.NETX Fd.NETX_AUTH_NULL_DH | 1 => s.cfgB Pg.NETX Fd.NETX_AUTH_FFDHE3072 | 2 => s.cfgB Pg.NETX Fd.NETX_AUTH_FFDHE4096
    | 3 => s.cfgB Pg.NETX Fd.NETX_AUTH_FFDHE8192 | _ => false
  h && g
/-- Secrets that a block of the instance may use to authenticate a host (R405). -/
def State.authKeys (s : State) (inst host : Nat) : List (List Byte) :=
  (s.sec.keys.filter fun e => e.2.usable 1 5 inst && e.2.bind = sliceB (Config.hostDigest host) 0 32).map fun e => e.2.key
/-- Authentication fails: AUTH_Failure1, the end of the association, and a count against the source. -/
def State.authFails (s : State) (cap : Cap) (k : Ctrl) : State :=
  let src := ((s.conn? k.conn).map (·.src)).getD []
  ((((s.postCap cap St.ok).emit (.auth cap.ctrl 0xF0 [])).endAssoc cap.ctrl)).authFail src
/-- The host's reply to the challenge; the module answers the host's own challenge, if it made one. -/
def State.authReplied (s : State) (cap : Cap) (k : Ctrl) (response : List Byte) (challenge : Option Nat) : State :=
  let keys := s.authKeys k.inst k.host
  if ! (keys.any fun key => Config.chapResponse k.authHash k.authGroup key k.authChal = response) then s.authFails cap k
  else
    let (n, s) := s.draw
    let own := match challenge with
      | some ch => Config.chapResponse k.authHash k.authGroup (keys.getD (n % keys.length) []) ch
      | none => []
    (s.modCtrl cap.ctrl fun k => { k with authStep := 2, authed := true, authReply := own }).postCap cap St.ok
/-- A message of the host. -/
def State.authMessage (s : State) (cap : Cap) (k : Ctrl) (kind hash group : Nat) (response : List Byte) (challenge : Option Nat) : State :=
  match kind with
  | 0 =>
    if ! s.authEnabled hash group then s.authFails cap k
    else
      let (n, s) := s.draw
      (s.modCtrl cap.ctrl fun k => { k with authStep := 1, authHash := hash, authGroup := group, authChal := n }).postCap cap St.ok
  | 1 => if k.authStep = 1 then s.authReplied cap k response challenge else s.postCap cap St.sequence
  | 2 => if k.authStep = 2 then (s.modCtrl cap.ctrl fun k => { k with authStep := 0 }).postCap cap St.ok else s.postCap cap St.sequence
  | _ => s.postCap cap St.invalidField
/-- The module's next message: the challenge, or Success1 with its own response. -/
def State.authNext (s : State) (cap : Cap) (k : Ctrl) : State :=
  match k.authStep with
  | 1 => (s.emit (.auth cap.ctrl 1 (BitVec.ofNat 8 k.authHash :: BitVec.ofNat 8 k.authGroup :: leBytes 64 k.authChal))).postCap cap St.ok
  | 2 => (s.emit (.auth cap.ctrl 3 k.authReply)).postCap cap St.ok
  | _ => s.postCap cap St.sequence

/-! ## The end of one queue (R114) -/

/-- An I/O queue is deleted and its connection closed; what it still holds follows R135. -/
def State.dropQueue (s : State) (c qid : Nat) : State :=
  match (s.ctrl? c).bind fun k => KV.get? k.queues qid with
  | none => s
  | some q =>
    let s := s.bumpBy Pg.CMD Fd.CMD_CNT_COUNT 7 q.waiting.length
    let s := s.resetCtxs fun x => x.ctrl = c && x.qid = qid
    (s.closeConn q.conn).modCtrl c fun k => { k with queues := KV.del k.queues qid }
/-- A command that needs no context arrives on an I/O queue: it waits behind what waits there. -/
def State.ioQueued (s : State) (cap : Cap) (op : Instr) (f : State → State) : State :=
  match s.ctrl? cap.ctrl with
  | none => s
  | some k =>
    let s := s.keepAlive cap.ctrl
    match KV.get? k.queues cap.qid with
    | none => s
    | some q =>
      if s.cmd.drainStopped then s.postCap cap St.notReady
      else if k.resetting ∨ (s.instOf k.inst).resetting then s.bump Pg.CMD Fd.CMD_CNT_COUNT 7
      else if s.cmd.act ≠ .idle ∨ q.waiting ≠ [] then
        s.modCtrl cap.ctrl fun k => { k with queues := KV.adjust k.queues cap.qid fun q => { q with waiting := q.waiting ++ [op] } }
      else f s

end Sys2Proof.Machine
end

