-- ==== Sys2Proof/Machine/MapEvents.lean ====
section
/-! DEFINITION. The events of the map cache: fills, hints, write-backs for age, checkpoints, drains and the
resize (R200 to R215). -/

namespace Sys2Proof.Machine

/-- What waited for a segment's line goes on: parts of reads, and index operations. -/
def State.segThere (s : State) (nsx seg : Nat) : State :=
  s.cmd.ctxs.foldl (fun s e =>
    let l := e.2.waitSeg.filter fun w => w.1 = nsx && w.2.1 / 512 = seg
    if l.isEmpty then s
    else
      let s := s.modCtx e.1 fun x => { x with waitSeg := x.waitSeg.filter fun w => ! (w.1 = nsx && w.2.1 / 512 = seg) }
      if 2 ^ 39 ≤ seg then s.wantSlot (s.indexQuad nsx (seg - 2 ^ 39)) e.1 e.2.isUpdate
      else (l.foldl (fun s w => s.servePart e.1 w.2.2 nsx w.2.1) s).partsDone e.1) s

/-- A segment frame that cannot be read: its grains without a readable frame are marked uncorrectable (R211). -/
def State.rebuildSegment (s : State) (nsx seg : Nat) : State :=
  let gone := (s.segEntries nsx seg).filter fun e => entState e.2 = 2 && match s.frameOf e.2 with
    | none => true
    | some (n, m, f) => match KV.get? s.media.bands n with
      | none => true
      | some b => s.memberLost b m && decide (3 ≤ s.rowLost n b f.pages.1)
  let s := gone.foldl (fun s e => s.setEntry nsx (e.1 % 2 ^ 40) (entPlain 3 nsx (e.1 % 2 ^ 40))) s
  (s.logEv Pg.MAPC 0x0805 .critical 0 (leBytes 4 gone.length)).preserveFor 1

/-- R200, R211. A fill ends. -/
def execMapFillDone (quad : Quad) (nsx seg : Nat) (readable : Bool) (s : State) : Res :=
  .next <|
    let q := quad.ix
    match (s.cache q).misses.find? fun m => m.nsx = nsx && m.seg = seg with
    | none => s
    | some m =>
      match m.way with
      | none => s
      | some w =>
        let isHint := match m.kind with | .hint _ => true | _ => false
        let towards := m.kind.towards s
        let s := s.modCache q fun c => { c with misses := c.misses.filter fun x => ! (x.nsx = nsx && x.seg = seg) }
        let s := (s.putLine q m.set w (Way.fresh nsx seg isHint) towards).modCache q (·.count 2 1)
        let s := if readable then s else s.rebuildSegment nsx seg
        ((s.segThere nsx seg).retryMisses q).goOn

/-- R207. A line has been dirty for longer than CLEAN.AGE_S. -/
def execDirtyLineAgeExpiry (quad : Quad) (nsx seg : Nat) (s : State) : Res :=
  .next <|
    let q := quad.ix
    let c := s.cache q
    let t := c.set (c.setOf nsx seg)
    match t.find nsx seg with
    | none => s
    | some w =>
      let x := t.ways.getD w .empty
      if ! x.dirty ∨ x.wb then s
      else ((s.reach (x.dirtyAt + secs (s.cfg Pg.MAPC Fd.MAPC_CLEAN_AGE_S))).writeBackLine q nsx seg).packSegments q

/-- R208. -/
def execCheckpointIntervalExpiry (s : State) : Res :=
  .next <| if ! s.isUp Dom.FABRIC ∨ s.map.ckptRunning.isSome then s else (s.reach s.map.ckptDue).startCkpt

/-- S5 bands superseded by a counted checkpoint become erasable (R209). -/
def State.freeS5 (s : State) (k : Ckpt) : State :=
  let l := s.media.bands.filter fun e =>
    e.2.stream = 5 ∧ e.2.state = .closed ∧ e.2.closeSeq < k.replayFrom ∧
      e.2.frames.all fun f => f.kind ≠ 1 || match KV.get? k.dir (segKey f.nsx f.grain) with
        | some d => decide (f.seq < d.seq)
        | none => true
  l.foldl (fun s e =>
    let s := s.modBand e.1 fun b => { b with state := .erasable }
    let s := e.2.members.foldl (fun s l => s.modBlock l fun b => if b.state = .retirePending then b else { b with state := .erasable }) s
    s.journal 0x13 0 e.1 0 (e.2.stream % 4)) s

/-- The running checkpoint is durable and counts. -/
def State.ckptEnd (s : State) : State :=
  match s.map.ckptRunning with
  | none => s
  | some k =>
    let s := s.journal 0x03 0 k.no k.replayFrom 0
    let s := s.modMap fun m =>
      { m with ckpt := some k, ckptRunning := none, lagLogged := false, journal := m.journal.filter fun r => k.replayFrom ≤ r.seq }
    (s.setEv Pg.MAPC 10).freeS5 k
/-- R208, R209. A checkpoint is durable and counts, or is tried again on the other area. -/
def execCheckpointDone (ok : Bool) (s : State) : Res :=
  .next <| match s.map.ckptRunning with
    | none => s
    | some k =>
      if ok then s.ckptEnd
      else (s.modMap fun m => { m with ckptRunning := some { k with area := 1 - k.area % 2 } }).logEv Pg.MAPC 0x0801 .absorbed

/-- No line of a quadrant is dirty and no write-back is in flight. -/
def CacheS.drained (c : CacheS) : Bool := c.dirty = 0 && c.wbs.isEmpty && c.evb.isEmpty

/-- R213. The drain before a disable ends. -/
def execMapCacheDrainDone (quad : Quad) (s : State) : Res :=
  .next <|
    let q := quad.ix
    let c := s.cache q
    if ! c.draining ∨ c.resizing ∨ ! c.drained then s
    else
      let s := s.modCache q fun c => { c with sets := [], draining := false, enabled := false }
      (s.setEv Pg.MAPC 9).logEv Pg.MAPC 0x0803 .notice 0 [BitVec.ofNat 8 q, 0]

/-- R215. The cache of a quadrant is formed anew with 2^18 sets, once drained. -/
def execMapCacheResize (quad : Quad) (s : State) : Res :=
  .next <|
    let q := quad.ix
    let c := s.cache q
    if ! c.resizing ∨ ! c.drained then s
    else
      let off := ! (s.cfg Pg.MAPC Fd.MAPC_CTRL_ENABLE).testBit q
      let s := s.modCache q fun c => { c with sets := [], draining := c.enabled && off, resizing := false, resized := true }
      (s.setEv Pg.MAPC 12).logEv Pg.MAPC 0x0802 .info 0 [BitVec.ofNat 8 q]

end Sys2Proof.Machine
end

