-- ==== Sys2Proof/Machine/FailEvents.lean ====
section
/-! DEFINITION. Failures and their absorption: dies, lanes, DRAM channels, cores, engine units, the management processor,
quadrants and fabric wires (R10, R16, R23 to R28, R192, R215, R298, R321, R390, R402). -/

namespace Sys2Proof.Machine

/-! ## Media (R23, R183) -/

/-- The media lost a die or a lane: open bands that held it close, the pools are counted anew, and the failure is logged. -/
def State.mediaLoss (s : State) (lane code : Nat) (data : List Byte) : State :=
  let hit := (s.media.bands.filter fun e => e.2.state = .open_ && ! (s.lostMembers e.2).isEmpty).map Prod.fst
  let s := hit.foldl (fun s n => s.earlyClose n) s
  let past := s.anyBand fun n => 3 ≤ n
  let s := s.failure (Pg.LANE (lane / 16) (lane % 16)) code (! past) (if past then some 1 else none) data
  ((s.spareCheck.levelTrack).directCheck).goOn

/-- R23, R24. -/
def execDieFailure (lane : Fin 64) (die : Fin 16) (s : State) : Res :=
  .next <|
    let d := 16 * lane.val + die.val
    if ! s.dieUp d ∨ ! s.isUp (Dom.LPHY (lane.val / 16)) then s
    else ((s.modFence fun f => { f with dies := insNat d f.dies }).saveFence).mediaLoss lane.val 0x0101 [BitVec.ofNat 8 die.val]
/-- A lane is lost. -/
def State.laneFails (s : State) (l : Nat) : State :=
  if s.fence.lanes.contains l ∨ s.fence.quads.contains (l / 16) ∨ ! s.isUp (Dom.LPHY (l / 16)) then s
  else ((s.modFence fun f => { f with lanes := insNat l f.lanes }).saveFence).mediaLoss l 0x0102 []
/-- R23, R24. -/
def execLaneFailure (lane : Fin 64) (s : State) : Res := .next (s.laneFails lane.val)

/-- R192. A lane that runs at 2.4 GT/s retrains. -/
def execLaneRetrain (lane : Fin 64) (ok : Bool) (s : State) : Res :=
  .next <| if ! ok ∨ ! s.serving then s else s.modMedia fun m => { m with lane24 := delNat lane.val m.lane24 }

/-! ## Memory (R16, R215) -/

/-- A DRAM channel is fenced and counted. -/
def State.channelFails (s : State) (q c : Nat) : State :=
  let past := s.fence.channels.any fun k => k / 5 = q
  let s := (s.modFence fun f => { f with channels := insNat (5 * q + c) f.channels }).saveFence
  s.failure (Pg.MEM q) (if c = 4 then 0x0108 else 0x0107) (! past) (if past then some 2 else none) [BitVec.ofNat 8 c]
/-- A channel is lost: a data channel's contents are rebuilt, and the map cache is resized. -/
def State.channelLost (s : State) (q c : Nat) : State :=
  if s.fence.channels.contains (5 * q + c) ∨ ! s.isUp (Dom.MEM q) then s
  else
    let s := s.channelFails q c
    if c = 4 then s
    else
      let s := s.modMap fun m => { m with rebuilding := insNat q m.rebuilding }
      if (s.cache q).resized ∨ (s.cache q).resizing then s
      else ((s.modCache q fun c => { c with draining := true, resizing := true }).writeBackAll q).packSegments q
/-- R16, R23. -/
def execDramChannelLoss (quad : Quad) (channel : Fin 5) (s : State) : Res := .next (s.channelLost quad.ix channel.val)
/-- R16. The rebuild and the re-striping end: reads are no longer served from parity. -/
def execMemoryRebuildDone (quad : Quad) (s : State) : Res :=
  .next <| s.modMap fun m => { m with rebuilding := delNat quad.ix m.rebuilding }

/-! ## Cores, clusters and media cores (R298, R321, R345) -/

/-- The task of a core is run again elsewhere. -/
def State.moveTask (s : State) (c : Nat) : State :=
  match (s.core c).run with
  | none => s
  | some r => (s.dropTask c).reexec (c / 64) r.task 0
/-- R321. The task is executed again and the core is fenced. -/
def execTenantCoreFault (core : CoreId) (cause : CoreFault) (s : State) : Res :=
  .next <|
    let c := core.key
    if ! s.isUp (Dom.CPU core.quad.ix) ∨ coreFenced s.fence core.quad.ix core.core.val then s
    else
      let s := s.bump (cluPage c) Fd.CLU_CNT_COUNT (match cause with | .selfCheck => 4 | .uncorrectable => 3)
      (s.moveTask c).fenceCore c
/-- A cluster is lost. -/
def State.clusterFails (s : State) (q c : Nat) : State :=
  let k := 4 * q + c
  if s.fence.clusters.contains k ∨ ! s.isUp (Dom.CPU q) then s
  else
    let s := (s.modFence fun f => { f with clusters := insNat k f.clusters }).saveFence
    let s := (List.range 16).foldl (fun s i => s.moveTask (64 * q + 16 * c + i)) s
    (s.redrawL2 q c).failure (Pg.CLU q c) 0x0104 false none
/-- R23. -/
def execClusterFailure (quad : Quad) (cluster : Fin 4) (s : State) : Res := .next (s.clusterFails quad.ix cluster.val)
/-- A media core is lost: the quadrant's others, or at last its partner's, do the work. -/
def State.mediaCoreFails (s : State) (q c : Nat) : State :=
  let k := 8 * q + c
  if s.fence.mediaCores.contains k ∨ ! s.isUp (Dom.ENG q) then s
  else
    let s := (s.modFence fun f => { f with mediaCores := insNat k f.mediaCores }).saveFence
    s.failure (Pg.QCTL q) 0x0105 (decide (s.fence.mediaLost q ≤ 4)) none [BitVec.ofNat 8 c]
/-- R23. -/
def execMediaCoreFailure (quad : Quad) (core : Fin 8) (s : State) : Res := .next (s.mediaCoreFails quad.ix core.val)

/-! ## Engine units (R298, R369, R390, R402) -/

/-- The item that a unit runs is queued again; a direct session goes on with another unit. -/
def State.unitItem (s : State) (q : Nat) (kind : EngineKind) (u : Nat) : State :=
  let again := fun (k : Nat) =>
    match (s.disp q).engine.find? fun e => e.kind = k && e.unit = some u with
    | none => s
    | some e => s.itemFault q k e.task
  match kind with
  | .scan => again 1
  | .decompressor => again 2
  | .compressor => again 3
  | .digest =>
    match s.unitCtx q u with
    | none => s
    | some (_, x) =>
      if x.direct then (s.modDigQ q fun d => { d with onUnit := KV.del d.onUnit u }).digUnits q
      else match (s.disp q).engine.find? fun e => e.kind = 4 && e.task.flow = x.flow && e.task.seq = x.seq && e.task.node = x.node with
        | none => s
        | some e => s.itemFault q 4 e.task
  | _ => s
/-- An engine unit is lost. -/
def State.unitFails (s : State) (q : Nat) (kind : EngineKind) (u : Nat) : State :=
  if kind.count ≤ u ∨ s.fence.unitFenced q kind u ∨ ! s.isUp (Dom.ENG q) then s
  else (s.fenceUnit q kind u).unitItem q kind u
/-- R298. -/
def execEngineUnitFault (quad : Quad) (kind : EngineKind) (unit : Fin 8) (s : State) : Res :=
  .next (s.unitFails quad.ix kind unit.val)

/-- R27, R62. -/
def execEngineUnitTestDone (quad : Quad) (kind : EngineKind) (unit : Fin 8) (pass : Bool) (s : State) : Res :=
  .next <|
    let q := quad.ix
    let k := unitKey q kind unit.val
    if ! s.fence.units.contains k ∨ kind.count ≤ unit.val ∨ ! s.isUp (Dom.ENG q) then s
    else
      let s := s.modKw fun m => { m with bgUnits := insNat k m.bgUnits }
      let s :=
        if pass then
          let s := ((s.modFence fun f => { f with units := delNat k f.units }).saveFence).followReduced
          [1, 2, 3, 4].foldl (fun s k => s.engRun q k) s
        else s
      s.octCheck

/-! ## The management processor and the quadrants (R23) -/

/-- The management processor fails and restarts: the third time within 24 hours of one start is not absorbed. -/
def State.mpFails (s : State) : State :=
  if s.mode.mode = .off then s
    else
      let l := s.now :: s.mode.mpMismatch.filter fun t => s.now < t + secs 86400
      let s := s.modMode fun m => { m with mpMismatch := l, mpRestarting := true, reducedCause := if 3 ≤ l.length then m.reducedCause ||| 64 else m.reducedCause }
      s.failure Pg.DEV 0x010B (decide (l.length < 3)) none
/-- R23. -/
def execMpLockstepMismatch (s : State) : Res := .next s.mpFails

/-- R23. The quadrant's work stops; its domains fall but for the media's, whose data the module no longer reaches. -/
def execQuadrantChipletLoss (quad : Quad) (s : State) : Res :=
  .next <|
    let q := quad.ix
    if s.fence.quads.contains q ∨ ! s.isUp Dom.FABRIC then s
    else
      let s := (s.modFence fun f => { f with quads := insNat q f.quads }).saveFence
      let s := (List.range 64).foldl (fun s c => s.dropTask (64 * q + c)) s
      let s := s.modPwr fun p => { p with domains := p.domains - p.domains % 2 ^ (6 * q + 6) + p.domains % 2 ^ (6 * q) }
      let hit := (s.media.bands.filter fun e => e.2.state = .open_ && ! (s.lostMembers e.2).isEmpty).map Prod.fst
      let s := hit.foldl (fun s n => s.earlyClose n) s
      s.failure (Pg.QCTL q) 0x010D false (some 5)

/-! ## Fabric links (R10) -/

def Link.init : Link := ⟨[], 0, none, false, 0⟩
def State.link (s : State) (l : Nat) : Link := KV.getD .init s.pwr.links l
def State.modLink (s : State) (l : Nat) (f : Link → Link) : State :=
  s.modPwr fun p => { p with links := KV.modify .init p.links l f }
/-- The page that a link's entries name: its quadrant's, or the network's. -/
def linkPage (l : Nat) : Nat := if l < 4 then Pg.QCTL l else if l = 4 then Pg.NETX else Pg.QCTL (l - 5)

/-- R10. A flit with a bad CRC is sent again. -/
def execFlitReceive (link : Fin 9) (crcOk : Bool) (badWire : Fin 68) (s : State) : Res :=
  .next <|
    let l := link.val
    if ! s.isUp Dom.FABRIC ∨ (s.link l).fenced ∨ (s.link l).repairing.isSome then s
    else if crcOk then s.modLink l fun x => { x with run := [] }
    else
      (s.modLink l fun x => { x with run := KV.put [] badWire.val (KV.getD 0 x.run badWire.val + 1), retries := x.retries + 1 }).emit (.flitRetry l)
/-- A link is fenced, and bypassed. -/
def State.linkFails (s : State) (l : Nat) (data : List Byte) : State :=
  if (s.link l).fenced then s
  else
    let s := (s.modFence fun f => { f with links := insNat l f.links }).saveFence
    let s := s.modLink l fun x => { x with fenced := true, run := [] }
    s.failure (linkPage l) 0x010A false none data
/-- A wire of a link fails (R10): a spare takes its place, or, without one, the link is fenced. -/
def State.wireFails (s : State) (l wire : Nat) : State :=
  let x := s.link l
  if x.fenced then s
  else if x.spares < 4 then
    let s := (s.modFence fun f => { f with wires := insNat (68 * l + wire) f.wires }).saveFence
    let s := s.modLink l fun x => { x with spares := x.spares + 1, repairing := some wire, run := [] }
    s.failure (linkPage l) 0x010A true none [BitVec.ofNat 8 l, BitVec.ofNat 8 wire]
  else s.linkFails l [BitVec.ofNat 8 l, BitVec.ofNat 8 wire]
/-- R10. The wire's sixteenth failure in a row. -/
def execWireSpareRepair (link : Fin 9) (wire : Fin 68) (s : State) : Res :=
  .next <|
    let x := s.link link.val
    if x.repairing.isSome ∨ KV.getD 0 x.run wire.val < 16 then s else s.wireFails link.val wire.val
/-- R10. -/
def execWireRepairDone (link : Fin 9) (s : State) : Res := .next (s.modLink link.val fun x => { x with repairing := none })

end Sys2Proof.Machine
end

