-- ==== Sys2Proof/Machine/PathEvents.lean ====
section
/-! DEFINITION. Events of the command path: the arbitration round, timers, losses of connections and the ends of
controller resets (R114, R125, R133, R135, R136). -/

namespace Sys2Proof.Machine

/-- R125. A round runs while hosts are served. -/
def execArbRound (s : State) : Res := .next (if s.serving then s.arbitrate else s)

/-- R114. The association ends; the timers stand still while admission is stopped (R136). -/
def execKeepAliveExpiry (ctrl : Nat) (s : State) : Res :=
  .next <| match (s.ctrl? ctrl).bind fun k => k.kaDue.map fun d => (k.inst, d) with
    | none => s
    | some (i, d) =>
      if s.cmd.act ≠ .idle then s else ((s.reach d).logEv Pg.CMD 0x0504 .info i).endAssoc ctrl

/-- R114. -/
def execConnectionLoss (conn : Nat) (s : State) : Res :=
  .next <| match KV.get? s.net.conns conn with
    | none => s
    | some k => match k.ctrl with
      | some c => (s.closeConn conn).endAssoc c
      | none => s.closeConn conn

/-- R133. Less data than declared at the transfer timeout: nothing is written. -/
def execTransferTimeout (ctx : Nat) (s : State) : Res :=
  .next <| match (s.ctx? ctx).bind (·.xferDue) with
    | none => s
    | some d => if s.cmd.act ≠ .idle then s else (((s.reach d).retireXfer ctx).undo ctx).finish ctx St.underrun

/-- R135. A started command that has not reached its commit point in 10 ms is cut. -/
def execResetCutTimeout (ctx : Nat) (s : State) : Res :=
  .next <| match s.ctx? ctx with
    | none => s
    | some x => match x.resetDue with
      | none => s
      | some d => if x.state = .issued then (s.reach d).cut ctx St.abortRequested else s

/-- R135. CSTS.RDY = 0 once no command of the controller is left; at the end of an association the controller is gone. -/
def execControllerResetDone (ctrl : Nat) (s : State) : Res :=
  .next <| match s.ctrl? ctrl with
    | none => s
    | some k =>
      if ! k.resetting ∨ s.cmd.ctxs.any (fun e => e.2.ctrl = ctrl) then s
      else
        let s := if k.disc then s else s.pendingActivation k.inst
        if k.closing then s.modCmd fun m => { m with ctrls := KV.del m.ctrls ctrl }
        else s.modCtrl ctrl fun k => { k with resetting := false, rdy := false }

/-- R136. At 100 ms the commands still in flight are cut, without a change of generation. -/
def execActivationDrainLimit (s : State) : Res :=
  .next <| if s.cmd.act ≠ .draining then s
    else
      let s := s.reach (s.cmd.actAt + msec 100)
      let l := (s.cmd.ctxs.filter fun e => e.2.state = .admitted ∨ e.2.state = .issued).map Prod.fst
      (l.foldl (fun s c => s.cut c St.notReady) s).modCmd fun m => { m with act := .swapping }

end Sys2Proof.Machine
end

