-- ==== Sys2Proof/Machine/PowerOps.lean ====
section
/-! DEFINITION. Power domains, what is lost with each, the flush of the write buffer to SLC, and the recovery of the map
(R21, R22, R192, R210, R217, R229, R262, R265, R269, R302, R316). -/

namespace Sys2Proof.Machine

/-! ## Domains (R21) -/

/-- A domain of the four quadrants, by its place in a quadrant's six. -/
def quadDoms (k : Nat) : List Nat := (List.range 4).map fun q => 6 * q + k
def alwaysDoms : List Nat := [Dom.MGMT, Dom.SEC, Dom.AON, Dom.HOLDUP]
/-- Domains that HOLD-UP removes (R22, R264 step 3). -/
def holdupDown : List Nat := quadDoms 0 ++ quadDoms 5 ++ [Dom.NPHY 0, Dom.NPHY 1, Dom.NETCORE]

/-- A domain that holds only fenced units stays down. -/
def State.domAllowed (s : State) (d : Nat) : Bool :=
  if d < 24 then
    let q := d / 6
    ! s.fence.quads.contains q && match d % 6 with
      | 0 => (List.range 64).any fun c => ! coreFenced s.fence q c
      | 2 => (List.range 16).any fun l => ! s.fence.lanes.contains (16 * q + l)
      | 3 => (List.range 16).any fun l => ! s.fence.lanes.contains (16 * q + l)
      | _ => true
  else if d = Dom.NPHY 0 then ! s.fence.ports.contains 0
  else if d = Dom.NPHY 1 then ! s.fence.ports.contains 1
  else true
/-- Domains rise; with a port's, its cage is powered (R21, R455). -/
def State.raise (s : State) (l : List Nat) : State :=
  let was := s.pwr.domains
  let s := s.modPwr fun p => { p with domains := (l.filter s.domAllowed).foldl (fun m d => m ||| 2 ^ d) p.domains }
  if [0, 1].any fun p => s.isUp (Dom.NPHY p) && ! was.testBit (Dom.NPHY p) then s.setEv Pg.PWR 10 else s

/-- What the network chiplet holds is lost with NET_CORE: connections, associations, contexts, mailboxes. -/
def State.dropNet (s : State) : State :=
  let s := s.modNet fun m =>
    { m with
      subs := [], laneLock := [], conns := [], sram := [], spill := [], spilling := false, xoff := false, full := false, buckets := []
      cookies := false, authFails := [], holdoff := [], pn := [], portUp := [] }
  let s := s.modCmd fun m =>
    { m with
      ctrls := [], ctxs := [], deficit := [], urgent := [], lastUrgQ := [], lastCtrl := [], heldConnects := [], retired := []
      flushes := [], act := .idle, actCmd := none, drainStopped := false }
  let s := s.modInst fun m =>
    { m with
      insts := m.insts.map fun e => (e.1, { InstS.fresh e.1 with gen := e.2.gen })
      acting := [], result := 0, mboResult := 0, breaches := [] }
  s.ptpLost

/-- What the quadrants and their memory hold is lost with them: buffers, programs and their tasks, cores, engines, the map
cache, the write buffer. -/
def State.dropQuads (s : State) : State :=
  let s := s.modBuf fun _ => { bufs := [], pools := [] }
  let s := s.modProg fun p => { p with progs := [], flows := [], flight := [], disp := [], mrs := [], slm := [], pendOpen := [] }
  let s := s.modKw fun k => { k with cores := [], clusters := [], tested := false }
  let s := (((s.modMat fun m => { m with quads := [] }).modCmp fun _ => []).modDig fun _ => [])
  let s := s.modMap fun m => { m with caches := [], locked := [], ckptRunning := none, rebuilding := [] }
  s.modMedia fun m =>
    { m with
      versions := [], reads := [], direct := false, folding := false, checkBusy := false, lane24 := [], laneDown := [], level := 0
      levelSince := none, victims := [], wlBands := [], patrolHead := [], catchup := false, reconstructed := []
      bands := m.bands.map fun b => (b.1, { b.2 with programming := false }) }

/-- The pages of a domain that fell keep nothing but a save still to be made (R39, R48). -/
def State.dropPages (s : State) : State :=
  let keep := fun (e : Nat × PageSt) =>
    if s.isUp (pageDomain e.1) then e else (e.1, { PageSt.init with saveDue := e.2.saveDue, factoryRestored := e.2.factoryRestored })
  s.modCtl fun c => { c with pages := c.pages.map keep }

/-- Only the domains of `keep` stay up. -/
def State.lowerTo (s : State) (keep : List Nat) : State :=
  let was := s.pwr.domains
  let s := s.modPwr fun p => { p with domains := (keep.filter fun d => was.testBit d).foldl (fun m d => m ||| 2 ^ d) 0 }
  let fell := fun d => was.testBit d && ! s.isUp d
  let s := if fell Dom.NETCORE then s.dropNet else s
  let s := if (quadDoms 1 ++ quadDoms 4).any fell then s.dropQuads else s
  let s := if (quadDoms 3).any fell ∧ s.pwr.flashDownAt.isNone then s.modPwr fun p => { p with flashDownAt := some s.now } else s
  let s := if fell (Dom.NPHY 0) ∨ fell (Dom.NPHY 1) then s.setEv Pg.PWR 10 else s
  s.dropPages
def State.lower (s : State) (l : List Nat) : State := s.lowerTo ((List.range 32).filter fun d => ! l.contains d)

/-! ## Programming the write buffer (R262, R265) -/

/-- Place a version in an SLC band of its stream: a frame that is built goes as built, any other raw. -/
def State.flushPlace (s : State) (id : Nat) : State :=
  match KV.get? s.media.versions id with
  | none => s
  | some v =>
    if v.state = .placed ∨ v.state = .landed then s
    else
      let v := if v.state = .compressed then v else { v with raw := true, units := frameUnits v.data.length }
      let f : MFrame :=
        { kind := 0, nsx := v.nsx, grain := v.grain, seq := v.seq, units := v.units, raw := v.raw, bytes := v.data, dmember := 0,
          start := 0, valid := true, version := some id, waitSlc := v.waitSlc, placedAt := s.now, fromBand := none, srcEntry := 0 }
      let placed := match s.placeFrame f v.stream true with
        | some s => some s
        | none => match s.openBand v.stream true with
          | none => none
          | some (_, s) => s.placeFrame f v.stream true
      match placed with
      | none => s
      | some s => s.modVersion id fun _ => { v with state := .placed }
/-- Program the full rows of a band. -/
def State.flushRows (s : State) (n : Nat) : Nat → State
  | 0 => s
  | k + 1 =>
    match KV.get? s.media.bands n with
    | none => s
    | some b => if b.programming then (s.rowDone n).flushRows n k else s
/-- Pad the open row of a band and program it. -/
def State.flushPad (s : State) (n : Nat) : State :=
  match KV.get? s.media.bands n with
  | none => s
  | some b =>
    if b.frames.any fun f => b.nextRow ≤ f.pages.2 then (s.modBand n fun b => b.padRow.kick 4096).flushRows n 4096 else s
def State.programOpen (s : State) (pad : Bool) : State :=
  let l := (s.media.bands.filter fun e => e.2.state = .open_).map Prod.fst
  let s := l.foldl (fun s n => s.flushRows n 4096) s
  if pad then l.foldl (fun s n => (s.flushPad n).flushPad n) s else s
/-- The versions of a list, ascending in SEQ. -/
def bySeq (l : List (Nat × Version)) : List (Nat × Version) := l.mergeSort fun a b => a.2.seq ≤ b.2.seq
/-- Pass 1: every needed version. -/
def State.flushPass1 (s : State) : State :=
  ((bySeq (s.media.versions.filter fun e => e.2.needed)).foldl (fun s e => s.flushPlace e.1) s).programOpen false
/-- The segments of pass 2, ascending in SEQ: committed versions that are not acknowledged, by command and segment. -/
def State.pass2Segs (s : State) : List (Nat × Nat) :=
  (bySeq (s.media.versions.filter fun e => ! e.2.needed && e.2.state ≠ .landed)).foldl (fun l e =>
    if l.contains (e.2.ctx, e.2.segment) then l else l ++ [(e.2.ctx, e.2.segment)]) []
/-- Pass 2 over a number of segments. Their grains re-point together, once every one of them is programmed. -/
def State.flushPass2 (s : State) (most : Nat) : State :=
  ((s.pass2Segs.take most).foldl (fun s g =>
    (bySeq (s.media.versions.filter fun e => ! e.2.needed && e.2.ctx = g.1 && e.2.segment = g.2)).foldl (fun s e => s.flushPlace e.1) s) s).programOpen false
/-- The band whose rows hold a version's frame in full, and the frame. -/
def State.programmed (s : State) (id : Nat) : Option (Nat × MFrame) :=
  s.media.bands.findSome? fun e => (e.2.frames.find? fun f => f.version = some id && decide (f.pages.2 < e.2.nextRow)).map fun f => (e.1, f)
/-- The segments whose grains are all programmed re-point as a group. -/
def State.flushGroups (s : State) : State :=
  s.pass2Segs.foldl (fun s g =>
    let l := bySeq (s.media.versions.filter fun e => ! e.2.needed && e.2.state ≠ .landed && e.2.ctx = g.1 && e.2.segment = g.2)
    if l.all fun e => (s.programmed e.1).isSome then
      l.foldl (fun s e => match s.programmed e.1 with | some (n, f) => s.repointNow n f e.1 | none => s) s
    else s) s

/-- Everything committed goes to flash, dirty lines are written back and a checkpoint is written (R72 step 5). -/
def State.drainMedia (s : State) : State :=
  let s := (bySeq s.media.versions).foldl (fun s e => s.flushPlace e.1) s
  let s := (List.range 4).foldl (fun s q => (s.writeBackAll q).packSegments q) s
  let s := if (List.range 4).any fun q => (s.cache q).wbs.any fun w => ! w.packed then
      match s.openBand 5 true with
      | some (_, s) => (List.range 4).foldl (fun s q => s.packSegments q) s
      | none => s
    else s
  (s.programOpen true).startCkpt.ckptEnd

/-! ## Recovery at AUG (R192, R210, R229, R269) -/

/-- What the entry of a grain in the write buffer reverts to: its newest earlier record in STATE 0, 2 or 3, or its segment
frame. -/
def State.revertTo (s : State) (nsx grain : Nat) : Nat :=
  match s.map.journal.find? fun r => r.type = 1 && r.nsx = nsx && r.key = grain && entState r.value ≠ 1 with
  | some r => r.value
  | none =>
    match KV.get? s.map.dir (segKey nsx (grain / 512)) with
    | none => entPlain 0 nsx grain
    | some d =>
      let e := KV.getD (entPlain 0 nsx grain) d.entries (grainKey nsx grain)
      if entState e = 1 then entPlain 0 nsx grain else e
/-- The frame that an entry names is valid again. -/
def State.reviveFrame (s : State) (e : Nat) : State :=
  if entState e ≠ 2 then s
  else match s.frameOf e with
    | none => s
    | some (n, _, f) => s.modBand n fun b => { b with frames := b.frames.map fun g => if g = f then { g with valid := true } else g }
/-- Every entry that names the lost write buffer reverts; how many did. -/
def State.revertAll (s : State) : Nat × State :=
  let l := s.map.map.filter fun e => entState e.2 = 1
  (l.length, l.foldl (fun s e =>
    let nsx := e.1 / 2 ^ 40
    let g := e.1 % 2 ^ 40
    let v := s.revertTo nsx g
    (s.modMap fun m => { m with map := KV.set (entPlain 0 nsx g) m.map (grainKey nsx g) v }).reviveFrame v) s)
/-- Frames that no ENTRY record names are orphans. -/
def State.dropOrphans (s : State) : State :=
  let orphan := fun (b : Band) (f : MFrame) =>
    if f.version.isSome ∨ f.fromBand.isSome ∨ b.nextRow ≤ f.pages.2 then { f with version := none, fromBand := none, valid := false } else f
  s.modMedia fun m => { m with bands := m.bands.map fun e => (e.1, { e.2 with frames := e.2.frames.map (orphan e.2) }) }
/-- Open bands are padded and close; relocations that were cut leave their victim a candidate again. -/
def State.closeAll (s : State) : State :=
  let op := (s.media.bands.filter fun e => e.2.state = .open_).map Prod.fst
  let s := op.foldl (fun s n => (s.modBand n fun b =>
    { b with nextRow := if b.fill.any fun u => b.nextRow * 64 < u then b.nextRow + 1 else b.nextRow }).closeBand n) s
  let fo := (s.media.bands.filter fun e => e.2.state = .folding).map Prod.fst
  fo.foldl (fun s n => (s.modBand n fun b => { b with state := .closed }).erasableCheck n) s
/-- The lines that the replay leaves dirty. -/
def State.replayLines (s : State) : State :=
  let from_ := match s.map.ckpt with | some c => c.replayFrom | none => 0
  let recs := (s.map.journal.filter fun r => r.type = 1 && decide (from_ ≤ r.seq)).reverse
  recs.foldl (fun s r =>
    let seg := r.key / 512
    let newer := match KV.get? s.map.dir (segKey r.nsx seg) with | some d => decide (d.seq < r.seq) | none => true
    if newer then
      let s := s.dirtyLine r.nsx seg
      let q := s.homeSeg r.nsx seg
      s.modCache q fun c =>
        let ix := c.setOf r.nsx seg
        match (c.set ix).find r.nsx seg with
        | none => c
        | some w => c.modSet ix fun t => t.modWay w fun x => { x with firstDirty := min x.firstDirty r.seq }
    else s) s

/-- AUG ends: the map is resolved, interrupted relocations are finished, open bands close. -/
def State.recover (s : State) : State :=
  let (n, s) := s.revertAll
  let s := (s.dropOrphans.replayLines).closeAll
  let s := s.modHold fun h => { h with reverted := min n 0xFFFFF }
  let s := s.modMap fun m => { m with ckptDue := s.now + secs (s.cfg Pg.MAPC Fd.MAPC_CKPT_INTERVAL_S) }
  if n = 0 then s else s.logEv Pg.HOLD 0x0A05 .info 0 (leBytes 4 n)

end Sys2Proof.Machine
end

