-- ==== Sys2Proof/Machine/HoldOps.lean ====
section
/-! DEFINITION. The hold-up store: the acknowledgement window and the measurement of the capacitance (R255 to R260,
R271 to R273, R460). -/

namespace Sys2Proof.Machine

/-- W in MiB for a capacitance (µF) at a voltage (mV), before the caps: whole 64 MiB units (R258). Twice the energy is in
picojoules; 1.5 × E_FIXED is 18 J, 1.5 × E_GIB is 5.625 J. -/
def windowMib (uf mv : Nat) : Nat := 64 * (16 * (energy2 uf mv - 36000000000000) / 11250000000000)
/-- W as the present voltage and the last good capacitance give it. -/
def State.windowNow (s : State) : Nat :=
  if s.hold.capUf = 0 ∨ s.hold.stale ∨ s.hold.hcFault then 0
  else min (windowMib s.hold.capUf s.hold.vMv) (min (1024 * s.cfg Pg.HOLD Fd.HOLD_CTRL_WINDOW_CAP) 16384)
/-- The HC publishes W. -/
def State.publishW (s : State) : State :=
  let w := s.windowNow
  let s := if w / 1024 ≠ s.hold.w / 1024 then s.setEv Pg.HOLD 8 else s
  s.modHold fun h => { h with w := w }

/-- The store cannot be trusted: event 0x0A06 and PRESERVE (R257). -/
def State.storeFails (s : State) (why : Nat) : State :=
  ((s.logEv Pg.HOLD 0x0A06 .critical 0 [BitVec.ofNat 8 why]).preserveFor 4).publishW

/-! ## Measurement (R256) -/

def MeasMethod.code : MeasMethod → Nat
  | .none => 0 | .discharge => 1 | .recharge => 2
/-- Nothing is measured in OFF and in HOLD-UP. -/
def State.startMeas (s : State) (m : MeasMethod) (sep : Bool) : State :=
  if s.hold.meas.isSome ∨ s.mode.mode = .off ∨ s.inHoldup then s
  else s.modHold fun h => { h with meas := some { method := m, sep := sep, runs := [] }, charging := false }
/-- The charger runs while the store is below V_OP, outside HOLD-UP and a discharge. -/
def State.chargeNow (s : State) : State :=
  s.modHold fun h => { h with charging := decide (h.vMv < 54000) && s.mode.mode ≠ .off && ! s.inHoldup && h.meas.isNone }

/-- A periodic measurement succeeded: the latch of SEP clears (R62). -/
def State.clearSkip (s : State) (bit : Nat) : State :=
  if s.mode.skipLatch.testBit bit then
    (s.modMode fun m => { m with skipLatch := m.skipLatch ^^^ 2 ^ bit }).saveSkip
  else s

/-- A measurement succeeds with a capacitance. -/
def State.measGood (s : State) (r : MeasRun) (uf : Nat) : State :=
  let s := s.modHold fun h =>
    { h with meas := none, lastMethod := r.method, lastOk := true, capUf := uf, goodAt := some s.now, fails := 0, stale := false }
  let s := s.logEv Pg.HOLD 0x0A01 .info 0 (leBytes 4 uf)
  let s := if r.sep then s else s.clearSkip 8
  let low := belowMinimum uf
  let s :=
    if ! s.hold.aged ∧ windowMib uf 54000 < 16384 then
      (s.modHold fun h => { h with aged := true }).logEv Pg.HOLD 0x010C (if low then .critical else .absorbed)
    else s
  let s := if low then s.storeFails 1 else s
  s.chargeNow.publishW
/-- A measurement fails. -/
def State.measBad (s : State) (r : MeasRun) : State :=
  let s := s.modHold fun h =>
    let f := if r.sep then h.fails else min 3 (h.fails + 1)
    { h with meas := none, lastMethod := r.method, lastOk := false, fails := f, stale := h.stale || decide (3 ≤ f) }
  let s := (s.setEv Pg.HOLD 11).logEv Pg.HOLD 0x0A02 .notice 0 [BitVec.ofNat 8 r.method.code, BitVec.ofNat 8 s.hold.fails]
  s.chargeNow.publishW

/-- C in µF of a run's timed part: 2.0 A or 1.0 A over 2.0 V. -/
def MeasRun.cap (r : MeasRun) (us : Nat) : Nat := match r.method with | .recharge => us / 2 | _ => us
/-- The longest timed part, µs. -/
def MeasRun.limit (r : MeasRun) : Nat := match r.method with | .recharge => 500000 | _ => 250000
/-- The median of eight runs, µF: the mean of the middle two. -/
def MeasRun.median (l : List Nat) : Nat :=
  let l := l.mergeSort
  (l.getD 3 0 + l.getD 4 0) / 2
/-- A run ends; whether the measurement is over, and how. -/
def State.measRun (s : State) (r : MeasRun) (us : Nat) : Option Bool × State :=
  if r.limit < us then (some false, (s.setErr Pg.HOLD 0x0101 (r.runs.length % 16 + 16 * r.method.code)).measBad r)
  else
    let l := r.runs ++ [r.cap us]
    if l.length < 8 then (none, s.modHold fun h => { h with meas := some { r with runs := l } })
    else
      let m := MeasRun.median l
      if m < 40000 ∨ 200000 < m then (some false, (s.setErr Pg.HOLD 0x0102 m).measBad r) else (some true, s.measGood r m)

/-- Nothing of an earlier start's measurements counts from JAN on (R271). -/
def State.holdFresh (s : State) : State :=
  (s.modHold fun h =>
    { h with meas := none, capUf := 0, lastMethod := .none, lastOk := false, fails := 0, stale := false, goodAt := none, measDue := none
             noCharge := false, aged := false }).publishW

end Sys2Proof.Machine
end

