-- ==== Sys2Proof/Machine/TestOps.lean ====
section
/-! DEFINITION. Loop-backs and self-tests of DIAGNOSTIC (R436 to R442). -/

namespace Sys2Proof.Machine

/-! ## The selection (R438, R439) -/

def selIface (w : Nat) : Nat := bitsOf w 2 0
def selDepth (w : Nat) : Nat := bitsOf w 6 4
def selQuad (w : Nat) : Nat := bitsOf w 9 8
def selUnit (w : Nat) : Nat := bitsOf w 15 12
def selSub (w : Nat) : Nat := bitsOf w 19 16
def selKind (w : Nat) : Nat := bitsOf w 22 20
/-- SUBKIND 1 to 5. -/
def selEngine (w : Nat) : EngineKind :=
  match selKind w with
  | 1 => .scan | 2 => .compressor | 3 => .decompressor | 4 => .digest | _ => .xts
/-- The selection and the pattern are ones that R438 and R439 name. -/
def selOk (sel ctrl : Nat) : Bool :=
  let u := selUnit sel
  let d := selDepth sel
  bitsOf ctrl 3 0 ≤ 7 && match selIface sel with
    | 0 => u < 2 && d ≤ 3
    | 1 => d ≤ 2
    | 2 => u ≤ 4 && d ≤ 1
    | 3 => u ≤ 8 && d ≤ 1
    | 4 => d = 0 && (if selKind sel = 0 then decide (u < 4) else selKind sel ≤ 5 && decide (selSub sel < (selEngine sel).count))
    | _ => false
/-- Domains that a test needs. -/
def selDoms (sel : Nat) : List Nat :=
  let q := selQuad sel
  let u := selUnit sel
  match selIface sel with
  | 0 => Dom.NPHY u :: if 2 ≤ selDepth sel then [Dom.NETCORE] else []
  | 1 => Dom.LPHY q :: if selDepth sel = 2 then [Dom.FVCC q] else []
  | 2 => [Dom.MEM q]
  | 3 => Dom.FABRIC :: if selDepth sel = 0 then [] else if u < 4 then [Dom.ENG u] else if u = 4 then [Dom.NETCORE] else [Dom.ENG ((u - 4) % 4)]
  | _ => if selKind sel = 0 then [Dom.CPU q] else [Dom.ENG q]
/-- The page of the tested unit; a link has none of its own. -/
def selPage (sel : Nat) : Option Nat :=
  let q := selQuad sel
  match selIface sel with
  | 0 => some (Pg.NET (selUnit sel))
  | 1 => some (Pg.LANE q (selUnit sel))
  | 2 => some (Pg.MEM q)
  | 3 => none
  | _ => some (if selKind sel = 0 then Pg.CLU q (selUnit sel) else engPage q (selEngine sel))
def selDie (sel : Nat) : Nat := 16 * (16 * selQuad sel + selUnit sel) + selSub sel
/-- The unit stands in the fence record. -/
def State.selFenced (s : State) (sel : Nat) : Bool :=
  let q := selQuad sel
  let u := selUnit sel
  match selIface sel with
  | 0 => s.fence.ports.contains u
  | 1 => if selDepth sel = 2 then ! s.dieUp (selDie sel) else s.fence.lanes.contains (16 * q + u) || s.fence.quads.contains q
  | 2 => s.fence.channels.contains (5 * q + u)
  | 3 => s.fence.links.contains u
  | _ => if selKind sel = 0 then coreFenced s.fence q (16 * u + selSub sel) else s.fence.unitFenced q (selEngine sel) (selSub sel)
/-- The default duration, ms; none for a pass or a fixed test. -/
def selMs (sel ctrl : Nat) : Option Nat :=
  let dflt := match selIface sel, selDepth sel with
    | 0, d => some (if d ≤ 1 then 100 else 1000)
    | 1, d => some (if d = 0 then 100 else 1000)
    | 2, 0 => some 100
    | 2, _ => none
    | 3, _ => some 100
    | _, _ => none
  dflt.map fun d => if bitsOf ctrl 23 8 = 0 then d else bitsOf ctrl 23 8

/-! ## The test -/

/-- A test ends: its domains fall, its result stands. -/
def State.testFinish (s : State) (r : TestRun) (result errors firstErr bits : Nat) (wires : List Nat) : State :=
  let s := s.modTest fun t =>
    { t with run := none, result := result, elapsed := (s.now - r.t0) / 1000000, errors := min errors 0xFFFFFFFF, firstErr := firstErr, bits := bits, wires := wires }
  let s := match selPage r.sel with
    | none => s
    | some pg => s.modPage pg fun p => { p with testing := false }
  let s := s.lower ((List.range 32).filter fun d => r.raised.testBit d)
  let s := s.setEv Pg.TEST 8
  let s := if result = 2 then s.setEv Pg.TEST 9 else s
  s.logEv Pg.TEST 0x1201 .info 0 (leBytes 4 r.sel ++ [BitVec.ofNat 8 result] ++ leBytes 4 errors)
/-- A running test ends as ABORTED (R441). -/
def State.testAbort (s : State) : State :=
  match s.test.run with
  | none => s
  | some r => s.testFinish r 3 s.test.errors s.test.firstErr s.test.bits s.test.wires

/-- GO (R436). -/
def State.testBegin (s : State) (domainsRise : Bool) : State :=
  let sel := s.live (Pg.TEST * 4096 + 0x40)
  let ctrl := s.live (Pg.TEST * 4096 + 0x44)
  let refuse := fun (why : Nat) =>
    (s.modTest fun t => { t with result := 4, reason := why, fencedUnit := false }).logEv Pg.TEST 0x1202 .notice 0 (leBytes 4 sel ++ [BitVec.ofNat 8 why])
  if s.test.run.isSome then s.setErr Pg.TEST 0x0100 0
  else if s.mode.mode ≠ .diagnostic then refuse 1
  else if ! selOk sel ctrl then refuse 2
  else if selIface sel = 1 ∧ selDepth sel = 2 ∧ ! (KV.getD 0 s.media.census (16 * selQuad sel + selUnit sel)).testBit (selSub sel) then refuse 3
  else if ! domainsRise then refuse 4
  else
    let up := (selDoms sel).filter fun d => ! s.isUp d
    let mask := up.foldl (fun m d => m ||| 2 ^ d) 0
    let fenced := s.selFenced sel
    let s := s.modPwr fun p => { p with domains := p.domains ||| mask }
    let s := match selPage sel with
      | none => s
      | some pg => s.modPage pg fun p => { p with testing := true }
    s.modTest fun _ =>
      { run := some { sel := sel, ctrl := ctrl, raised := mask, t0 := s.now, injected := false }
        result := 0, reason := 0, fencedUnit := fenced, elapsed := 0, errors := 0, firstErr := 0, bits := 0, wires := [] }

/-- A test failed on an unfenced unit: the unit is fenced and counted as if it had failed in SERVICE (R440). -/
def State.testFails (s : State) (sel : Nat) (wires : List Nat) : State :=
  let q := selQuad sel
  let u := selUnit sel
  match selIface sel with
  | 0 => s.portFails u
  | 1 =>
    if selDepth sel = 2 then ((s.modFence fun f => { f with dies := insNat (selDie sel) f.dies }).saveFence).mediaLoss (16 * q + u) 0x0101 [BitVec.ofNat 8 (selSub sel)]
    else ((s.modFence fun f => { f with lanes := insNat (16 * q + u) f.lanes }).saveFence).mediaLoss (16 * q + u) 0x0102 []
  | 2 => s.channelFails q u
  | 3 => wires.foldl (fun s w => s.wireFails u w) s
  | _ => if selKind sel = 0 then s.fenceCore (64 * q + 16 * u + selSub sel) else s.fenceUnit q (selEngine sel) (selSub sel)
/-- A test's duration ends (R438, R440, R441). -/
def State.testOver (s : State) (errors : Nat) (criterion : Bool) (bits : Nat) (wires : List Nat) (firstErr : Nat) : State :=
  match s.test.run with
  | none => s
  | some r =>
    let early := r.ctrl.testBit 24 && decide (0 < errors)
    let s := match selMs r.sel r.ctrl with
      | some ms => if early then s else s.reach (r.t0 + msec ms)
      | none => s
    let pass := criterion && ! r.injected && ! early
    let fenced := s.test.fencedUnit
    let s := s.testFinish r (if pass then 1 else 2) (if r.injected then max 1 errors else errors) firstErr bits wires
    if pass ∨ r.injected ∨ fenced then s else s.testFails r.sel wires

end Sys2Proof.Machine
end

