-- ==== Sys2Proof/Machine/StageOps.lean ====
section
/-! DEFINITION. The restore of retained settings, the start sequence, orderly shutdown, and the way into and out of
HOLD-UP (R46, R47, R53 to R74, R263 to R271, R432, R433). -/

namespace Sys2Proof.Machine

/-! ## Supplies and the AUTO condition (R54) -/

def State.mainOk (s : State) : Bool := 40000 ≤ s.pwr.mainMv && s.pwr.mainMv ≤ 60000
def State.auxOk (s : State) : Bool := 10800 ≤ s.pwr.auxMv && s.pwr.auxMv ≤ 13200
def State.autoCond (s : State) : Bool :=
  s.mainOk && s.cfgB Pg.MODE Fd.MODE_START_CTRL_AUTO && ! s.pwr.pwrdis && ! s.mode.startHold
/-- A change of a term of the AUTO condition: it may come to hold, or cease to. -/
def State.withAuto (s : State) (f : State → State) : State :=
  let t := f s
  if t.autoCond ∧ ! s.autoCond then t.modMode fun m => { m with autoEdge := true }
  else if ! t.autoCond then t.modMode fun m => { m with autoEdge := false } else t

/-! ## Restore (R46, R47, R67, R69 to R71) -/

/-- The record of a kind that a copy offers. -/
def StoreCopyS.read (c : StoreCopyS) (lost : List Nat) (key : Nat) : Option StoreRec :=
  if ! c.headerOk ∨ lost.contains key then none else KV.get? c.recs key
/-- A record that a copy holds and does not give. -/
def StoreCopyS.fails (c : StoreCopyS) (lost : List Nat) (key : Nat) : Bool := (KV.get? c.recs key).isSome && (c.read lost key).isNone

/-- Put words into a page: its live values are the start values with the kept bits of a record. -/
def State.loadPage (s : State) (pg : Nat) (w : KV Nat) : State :=
  let pt := pageType pg
  w.foldl (fun s e =>
    s.setLive (pg * 4096 + e.1) (if e.1 = 0x0C ∨ e.1 = 0x24 then e.2 else RegMap.keptMerge pt e.1 (RegMap.startWord pt e.1) e.2)) s
/-- Kept tables that stand beside a page's words take their factory values. -/
def State.factoryTables (s : State) (pg : Nat) : State :=
  if pg = Pg.CLS then s.modNet fun m => { m with rules := [] }
  else if pg = Pg.NETX then s.modNet fun m => { m with addrs := [] }
  else if pageType pg = PT.INST then s.modInst fun m => { m with cfgCap := KV.del m.cfgCap (pg - Pg.INST 0), cfgUrg := KV.del m.cfgUrg (pg - Pg.INST 0) }
  else s
/-- A page takes factory values (R47). `had`: it had a record that it did not use. -/
def State.factoryPage (s : State) (pg : Nat) (had : Bool) : State :=
  let s := (s.modPage pg fun p => { p with factoryRestored := true }).setEv pg 7
  if had then (s.factoryTables pg).logEv pg 0x0212 .notice else s
/-- Restore one page at MAR. -/
def State.restorePage (s : State) (refused listed : List Nat) (pg : Nat) : State :=
  let rec_ := newestRec (s.mode.copyA.read [] pg) (s.mode.copyB.read [] pg)
  let s := s.modPage pg fun p => { p with factoryRestored := false }
  let fails := fun (s : State) =>
    if s.mode.restoreFail.contains pg then s
    else if s.mode.restoreFail.length < 32 then s.modMode fun m => { m with restoreFail := m.restoreFail ++ [pg] }
    else s.modMode fun m => { m with listFull := true, failedOver := m.failedOver + 1 }
  if listed.contains pg then (s.modMode fun m => { m with restAlt := m.restAlt + 1 }).factoryPage pg true
  else if refused.contains pg then fails ((s.modMode fun m => { m with restFactory := m.restFactory + 1 }).factoryPage pg true)
  else match rec_ with
    | none => (s.modMode fun m => { m with restFactory := m.restFactory + 1 }).factoryPage pg false
    | some r =>
      match r.body with
      | .page w =>
        if r.major = s.pageMajor pg then (s.modMode fun m => { m with restored := m.restored + 1 }).loadPage pg w
        else (s.modMode fun m => { m with restFactory := m.restFactory + 1 }).factoryPage pg true
      | _ => s
/-- MAR restores every page but MODE. -/
def State.restoreAll (s : State) (refused : List Nat) : State :=
  let listed := s.mode.restoreFail
  let s := s.modMode fun m => { m with restored := 0, restFactory := 0, restAlt := 0, listFull := false }
  let s := (allPages.filter (· ≠ Pg.MODE)).foldl (fun s pg => s.restorePage refused listed pg) s
  s.saveFailList

/-- Every page but MODE holds its start values, and nothing of an earlier start (R46). -/
def State.startPages (s : State) : State :=
  s.modCtl fun c =>
    { c with
      regs := c.regs.filter fun e => e.1 / 4096 = Pg.MODE
      pages := (c.pages.filter fun e => e.1 = Pg.MODE).map fun e => (e.1, { e.2 with corrected := [] }) }

/-! ## Stage slots (R59 to R66) -/

def slotStage (n : Nat) : Nat := if n ≤ 10 then n + 1 else if n = 13 then 12 else 11
def slotSkippable (n : Nat) : Bool := n = 8 || n = 9 || n = 11 || n = 12
/-- Time limits in seconds: primary, alternate. -/
def slotLimit (n : Nat) (m : Method) : Nat :=
  let (p, a) := match n with
    | 0 => (30, 30) | 1 => (2, 2) | 2 => (3, 3) | 3 => (4, 6) | 4 => (5, 5) | 5 => (20, 20) | 6 => (5, 5) | 7 => (60, 7200)
    | 8 => (20, 30) | 9 => (15, 20) | 11 => (10, 10) | 12 => (10, 10) | _ => (5, 5)
  if m = .alternate then a else p
/-- Domains raised for a slot (R21). -/
def slotDoms (n : Nat) : List Nat :=
  match n with
  | 3 => quadDoms 4
  | 4 => quadDoms 0 ++ quadDoms 1 ++ quadDoms 5 ++ [Dom.FABRIC]
  | 5 => quadDoms 2 ++ quadDoms 3
  | 10 => [Dom.NPHY 0, Dom.NPHY 1, Dom.NETCORE]
  | _ => []
def slotResult (b : Nat) : Nat := bitsOf b 3 2
/-- The record of the running start. -/
def State.rec_ (s : State) : LedgerRec := s.mode.ledger.headD ⟨0, 0, 0, 0, 0, [], [], 0, 0⟩
def State.modRec (s : State) (f : LedgerRec → LedgerRec) : State :=
  s.modMode fun m => { m with ledger := match m.ledger with | [] => [] | r :: l => f r :: l }
/-- The slot byte of the most recent earlier start that reached the slot; 0 where none did. -/
def State.prevByte (s : State) (n : Nat) : Nat :=
  ((s.mode.ledger.drop 1).findSome? fun r => if r.slots.getD n 0 = 0 then none else some (r.slots.getD n 0)).getD 0
def primaryFailed (b : Nat) : Bool := b.testBit 0 && (slotResult b = 1 || slotResult b = 3)

/-- The page of a method's unit. -/
def failPg (n failPage : Nat) : Nat :=
  let q := failPage / 16 % 16
  let u := failPage / 256
  if n = 0 ∨ n = 8 then Pg.HOLD
  else if n = 1 then Pg.SEC
  else if n = 11 ∨ n = 12 then Pg.NET (n - 11)
  else if 4 ≤ q then (if n = 7 then Pg.MAPC else Pg.MODE)
  else match n with
    | 3 => Pg.MEM q
    | 5 => Pg.LANE q (u % 16)
    | 9 => Pg.CLU q (u % 4)
    | _ => Pg.QCTL q
/-- The page that stage events name: that of the start's first failed method. -/
def State.stagePg (s : State) : Nat :=
  match s.rec_.slots.findIdx? (fun b => b % 4 = 3) with
  | none => Pg.MODE
  | some n => failPg n s.rec_.failPage

/-! ## STANDBY -/

/-- STANDBY is entered: the domains that it does not hold are down. -/
def State.toStandby (s : State) : State :=
  let s := s.lowerTo alwaysDoms
  let s := s.modMode fun m => { m with stage := none, shutdown := none, autoEdge := false }
  let s := s.modPwr fun p => { p with debugGranted := false }
  s.enterMode .standby
/-- The start ends: the record is closed. -/
def State.closeStart (s : State) (endMode : Mode) (interrupted : Bool) : State :=
  let s := s.modRec fun r => { r with endMode := endMode.code, flags := if interrupted then r.flags ||| 2 else r.flags }
  let s := (s.modMode fun m => { m with stage := none }).saveLedger
  let s := s.setEv Pg.MODE 11
  if s.mode.startHoldAfter then (s.modMode fun m => { m with startHold := true, startHoldAfter := false }).saveHold else s

/-! ## HOLD-UP begins (R54, R56, R264 steps 1 and 2) -/

def HoldCause.code : HoldCause → Nat
  | .power => 3 | .resetSignal => 4 | .trip => 5
/-- The flush begins: the journal of every quadrant records it; no completion is posted from here on, and commands short
of their commit point are undone. -/
def State.flushBegin (s : State) (entry48 : Bool) (trigger : Nat) : State :=
  let a := s.ackedBytes / 2 ^ 20
  let begun := if s.mode.prev = .diagnostic then [] else (List.range 4).filter fun q => s.isUp (Dom.MEM q)
  let at_ := s.map.seq
  let s := begun.foldl (fun s q => s.journal 0x18 0 at_ (a + s.hold.w * 2 ^ 16) q) s
  let s := s.modCmd fun m =>
    { m with ctrls := [], ctxs := [], heldConnects := [], flushes := [], act := .idle, actCmd := none, drainStopped := true }
  let s := s.modMedia fun m => { m with versions := m.versions.filter fun e => e.2.state ≠ .landed, reads := [] }
  let s := s.modHold fun h =>
    { h with
      meas := none, charging := false, begun := begun
      flush := some
        { step := 1, t0 := s.now, a0 := s.ackedBytes, w0 := h.w, pass1 := 0, pass2 := 0, us := 0, mj := 0, grains1 := 0, grains2 := 0
          entry48 := entry48 } }
  s.logEv Pg.HOLD 0x0A03 .notice 0 (leBytes 4 a ++ leBytes 4 s.hold.w ++ [BitVec.ofNat 8 trigger])
/-- A trigger of HOLD-UP in the modes that know it. A start or a shutdown ends where it stands. -/
def State.enterHoldup (s : State) (c : HoldCause) : State :=
  let m := s.mode.mode
  if ! (m = .start ∨ m = .diagnostic ∨ s.serving) then s
  else
    let s := s.testAbort
    let s := if m = .start then s.closeStart .holdup true else s
    let s := s.modMode fun k => { k with stage := none, shutdown := none, deferred := [], holdCause := c, shutLast := c.code }
    (s.enterMode .holdup).flushBegin (c = .power) c.code

/-! ## Orderly shutdown (R72, R73) -/

/-- Step 3: what is short of its commit point is cut; Asynchronous Event Requests end. -/
def State.shutCut (s : State) : State :=
  let l := (s.cmd.ctxs.filter fun e => e.2.state = .admitted ∨ e.2.state = .issued).map Prod.fst
  let s := l.foldl (fun s c => s.cut c St.notReady) s
  s.cmd.ctrls.foldl (fun s c =>
    let s := c.2.aers.foldl (fun s cid => s.post c.1 0 cid St.notReady) s
    s.modCtrl c.1 fun k => { k with aers := [] }) s
/-- Step 4: associations close. -/
def State.shutClose (s : State) : State :=
  let s := s.cmd.ctxs.foldl (fun s e => (s.freeCtx e.1).bump Pg.CMD Fd.CMD_CNT_COUNT 6) s
  (s.modCmd fun m => { m with ctrls := [] }).modNet fun m => { m with conns := [] }
def State.setShutStep (s : State) (n : Nat) : State := s.modMode fun m => { m with shutStep := n }
/-- Orderly shutdown begins: step 1 ends at once. Before AUG steps 1 to 5 have no work (R74). -/
def State.beginShutdown (s : State) (toDiag : Bool) : State :=
  let early := s.mode.mode = .start && s.rec_.slots.getD 7 0 = 0
  let s := s.modCmd fun m => { m with drainStopped := true }
  let s := s.modMode fun m =>
    { m with stage := none, shutdown := some { step := if early then 6 else 2, t0 := s.now, toDiag := toDiag, escalated := false } }
  s.setShutStep (if early then 5 else 1)

/-! ## Deferred triggers and requests (R54, R56, R57) -/

/-- The condition of a PRESERVE cause persists (R57). -/
def State.causeHolds (s : State) (bit : Nat) : Bool :=
  match bit with
  | 0 => decide (s.sparesS < s.cfg Pg.MEDIA Fd.MEDIA_SPARE_MIN_BLOCKS)
  | 1 => s.anyBand (fun n => 3 ≤ n) || s.media.nss.any fun e => e.2.keyLost
  | 2 => true
  | 3 => ! s.portServes 0 && ! s.portServes 1
  | 4 => (s.hold.capUf ≠ 0 && belowMinimum s.hold.capUf) || s.hold.noCharge || s.hold.hcFault
  | 5 => true
  | 9 => true
  | _ => false
/-- R54's table: a request is allowed from the present mode. -/
def State.reqAllowed (s : State) (r : Nat) : Bool :=
  match r with
  | 1 => s.mode.mode = .standby && s.mainOk && ! s.pwr.pwrdis
  | 2 => s.serving || s.mode.mode = .start
  | 3 => s.serving || (s.mode.mode = .standby && s.mainOk)
  | 4 => s.mode.mode = .diagnostic
  | 5 => s.mode.mode = .service || s.mode.mode = .reduced
  | 6 => s.mode.mode = .preserve && (List.range 10).all fun b => ! (s.mode.preserveCause.testBit b && s.causeHolds b)
  | _ => false

/-! ## The start begins (R54, R58, R65, R432, R433) -/

/-- A bundle's images all have versions at or above their counters (R412). -/
def State.bundlePasses (s : State) (b : Bundle) : Bool := (List.zip b.svns s.sec.rollback).all fun e => decide (e.2 ≤ e.1)
def State.slotBundle (s : State) (n : Nat) : Option Bundle := if n = 1 then s.fw.slot1 else if n = 2 then s.fw.slot2 else none
/-- Before JAN the boot ROM abandons a trial slot whose start failed; a pending slot is activated. -/
def State.bootSlot (s : State) : State :=
  let other := 3 - s.fw.active
  let s :=
    if s.fw.trial ∧ s.mode.startFailed ∧ (s.slotBundle other).any s.bundlePasses then
      (s.modFw fun f => { f with active := other, trial := false }).logEv Pg.DEV 0x1107 .degraded 0 [BitVec.ofNat 8 other]
    else s
  if s.fw.pendingSlot = 0 then s
  else
    let n := s.fw.pendingSlot
    ((s.modFw fun f => { f with active := n, pendingSlot := 0, trial := true }).setEv Pg.DEV 8).logEv Pg.DEV 0x1106 .info 0 [BitVec.ofNat 8 n]

/-- What a slot's run raises and starts; a method begins with its own limit. -/
def State.startMethod (s : State) (r : StageRun) (m : Method) (second : Bool) : State :=
  let r := { r with
    method := m, second := second, triedMask := r.triedMask ||| (if m = .primary then 1 else 2)
    deadline := s.now + secs (slotLimit r.slot m) }
  let s := s.modMode fun k => { k with stage := some r }
  let s := if r.slot = 11 ∨ r.slot = 12 then s.cageCheck (r.slot - 11) else s
  if r.slot = 8 then (s.modHold fun h => { h with meas := none }).startMeas (if m = .alternate then .recharge else .discharge) true else s

/-- A start has reached DEC with a bundle: its counters advance, its directives take effect. The slot that verified the
bundle and the last unrevoked slot stay (R410). -/
def State.bundleRuns (s : State) (b : Bundle) : State :=
  let up := fun (s : State) (e : Nat × Nat × Nat) =>
    if e.2.2 < e.2.1 then
      (s.modSec fun k => { k with rollback := k.rollback.set e.1 e.2.1 }).setEv Pg.SEC 10 |>.logEv Pg.SEC 0x1005 .info 0 (BitVec.ofNat 8 e.1 :: leBytes 8 e.2.1)
    else s
  let s := (List.zip (List.range 5) (List.zip b.svns s.sec.rollback)).foldl up s
  let revoke := fun (s : State) (k : Nat) =>
    let left := (List.range 4).filter fun j => s.sec.programmed.testBit j && ! s.sec.revoked.testBit j
    if k = b.keySlot ∨ ! left.contains k ∨ left.length ≤ 1 then s
    else ((s.modSec fun m => { m with revoked := m.revoked ||| 2 ^ k }).setEv Pg.SEC 11).logEv Pg.SEC 0x1008 .notice 0 [BitVec.ofNat 8 k]
  let s := b.revokes.foldl revoke s
  s.modFw fun f => { f with trial := false, majors := b.majors.foldl (fun m e => KV.put m e.1 e.2) f.majors }

/-- DEC's work: the bundle has reached DEC, shares and enables follow at the next round, catch-up is decided (R190, R243,
R412, R432, R433). -/
def State.decWork (s : State) : State :=
  let s := match s.slotBundle s.fw.active with
    | none => s
    | some b => s.bundleRuns b
  let s := s.modInst fun m => { m with applyDue := true }
  let s := s.modCmd fun m => { m with drainStopped := false, round := 0 }
  let short := match s.media.offHours with
    | some h => decide (h < s.cfg Pg.MEDIA Fd.MEDIA_CATCHUP_CTRL_MIN_H)
    | none => false
  let s := if short then s
    else
      let s := s.modMedia fun m => { m with catchup := true, catchupDone := 0 }
      s.logEv Pg.MEDIA 0x0905 .info 0 ((1 : Byte) :: leBytes 4 (s.media.offHours.getD 0xFFFFFFFF))
  s.levelTrack

/-- The pools of a quadrant as the settings divide them at a start (R316): every buffer free. -/
def State.startPool (s : State) (q : Nat) : PoolS :=
  let pg := Pg.BUF q
  { PoolS.init with
    sram := [s.cfg pg Fd.BUF_SPLIT_SRAM_MIB0, s.cfg pg Fd.BUF_SPLIT_SRAM_MIB1, s.cfg pg Fd.BUF_SPLIT_SRAM_MIB2, s.cfg pg Fd.BUF_SPLIT_SRAM_MIB3, s.cfg pg Fd.BUF_SPLIT_SRAM_MIB4]
    dram := [s.cfg pg Fd.BUF_SPLIT_DRAM_UNITS0, s.cfg pg Fd.BUF_SPLIT_DRAM_UNITS1, s.cfg pg Fd.BUF_SPLIT_DRAM_UNITS2, s.cfg pg Fd.BUF_SPLIT_DRAM_UNITS3, s.cfg pg Fd.BUF_SPLIT_DRAM_UNITS4] }
/-- The census of a lane: every die that is not fenced; whether a fenced one answers is not known. -/
def State.takeCensus (s : State) (l : Nat) : State :=
  let bad := (List.range 16).foldl (fun m d => if s.fence.dies.contains (16 * l + d) then m ||| 2 ^ d else m) 0
  let (x, s) := if bad = 0 then (0, s) else s.draw
  s.modMedia fun m => { m with census := KV.put m.census l (0xFFFF ^^^ bad ||| (bad &&& x)) }
/-- What a slot that ended leaves (R59). `alt`: by its alternate; `ok`: neither skipped nor failed. -/
def State.slotWork (s : State) (n : Nat) (ok alt : Bool) (r : MethodEnd) : State :=
  match n with
  | 0 => if ok then s.modHold fun h => { h with vMv := max h.vMv 54000, charging := false, noCharge := false } else s
  | 1 => s.modSec fun k => { k with trngFailed := false }
  | 2 => s.restoreAll (r.refusedPages.map fun p => p.val)
  | 4 =>
    let en := s.cfg Pg.MAPC Fd.MAPC_CTRL_ENABLE
    let s := (List.range 4).foldl (fun s q =>
      let (a, s) := s.draw
      let (b, s) := s.draw
      let s := s.modCache q fun _ => { CacheS.init with ks0 := a % 2 ^ 64, ks1 := b % 2 ^ 64, enabled := en.testBit q, resized := s.fence.channels.any fun c => c / 5 = q && c % 5 ≠ 4 }
      let s := (List.range 4).foldl (fun s c =>
        let (a, s) := s.draw
        let (b, s) := s.draw
        s.modCluster q c fun _ => { ClusterS.init with ks0 := a % 2 ^ 64, ks1 := b % 2 ^ 64 }) s
      s.modPool q fun _ => s.startPool q) s
    s
  | 5 =>
    let s := (List.range 64).foldl (fun s l => s.takeCensus l) s
    let s := s.modMedia fun m =>
      { m with lane24 := if alt then (List.range 64).filter fun l => ! s.fence.lanes.contains l else [], offHours := match s.pwr.flashDownAt with | some t => some ((s.now - t) / secs 3600) | none => m.offHours }
    s.modPwr fun p => { p with flashDownAt := none }
  | 7 =>
    let cut := r.flushCut || ! s.hold.begun.isEmpty
    let s := (s.recover).modHold fun h => { h with begun := [] }
    if cut then (s.logEv Pg.HOLD 0x0A07 .critical).preserveFor 6 else s
  | 8 => s.modHold fun h => { h with measDue := some (s.now + secs 600) }
  | 9 => (s.modKw fun k => { k with tested := true }).modMode fun m => { m with noSkipOct := false }
  | 10 => s.modNet fun m => { m with cookies := false, cookieEpoch := m.cookieEpoch + 1, cookieDue := s.now + secs 64 }
  | 11 => if ok then s.modNet fun m => { m with portUp := insNat 0 m.portUp } else s
  | 12 => if ok then s.modNet fun m => { m with portUp := insNat 1 m.portUp } else s
  | _ => s

/-- The start ends in STANDBY because a stage that may not be skipped failed (R58). -/
def State.failStart (s : State) : State :=
  let s := s.modMode fun m => { m with startHold := true, startFailed := true }
  ((s.saveHold).closeStart .standby false).toStandby
/-- DEC ended: the mode is chosen (R63). -/
def State.decEnd (s : State) : State :=
  let s := s.decWork
  let down := [11, 12].all fun n => 2 ≤ slotResult (s.rec_.slots.getD n 0)
  let s := if down ∧ ! s.mode.preserveCause.testBit 3 then
      (s.modMode fun m => { m with preserveCause := m.preserveCause ||| 8 }).savePreserve
    else s
  let s := s.modMode fun m => { m with reducedCause := s.reducedNow }
  let to_ := if s.mode.preserveCause ≠ 0 then Mode.preserve else if s.mode.reducedCause ≠ 0 then Mode.reduced else Mode.service
  let s := (s.closeStart to_ false).logEv Pg.MODE 0x0302 .info 0 [BitVec.ofNat 8 to_.code]
  (s.enterMode to_).startCompaction

/-- A slot ends with its byte; a deferred shutdown takes effect (R74). The flag says that the start goes on. -/
def State.slotEnd (s : State) (n byte start : Nat) : State :=
  let ms := (s.now - start) / 1000000
  let s := s.modRec fun r => { r with slots := r.slots.set n byte, durs := r.durs.set n ms }
  let s := ((s.modMode fun m => { m with stage := none, stageMs := ms }).saveLedger).setEv Pg.MODE 9
  if slotResult byte = 1 then s.logEv s.stagePg 0x0303 .notice 0 [BitVec.ofNat 8 n] else s
def noEnd : MethodEnd := { ok := true, failCode := 0, failPage := 0, flushCut := false, refusedPages := [] }
/-- The latch of a slot is set, or its STAGE_FORCE is 3. -/
def State.slotSkips (s : State) (n : Nat) : Bool :=
  slotSkippable n && ! (n = 9 && s.mode.noSkipOct) && (s.mode.skipLatch.testBit n || s.mode.forced.getD n 0 = 3)

/-- Run the slots from `n` on until a method runs or the start ends; `k` bounds the slots. -/
def State.runSlots (s : State) (n : Nat) : Nat → State
  | 0 => s
  | k + 1 =>
    if ! s.mode.deferred.isEmpty then ((s.modMode fun m => { m with deferred := m.deferred.filter fun d => d ≠ 2 ∧ d ≠ 0 }).beginShutdown false)
    else if 13 < n then s.decEnd
    else
      let s := s.raise (slotDoms n)
      if s.slotSkips n then
        let s := s.logEv s.stagePg 0x0305 .notice 0 [BitVec.ofNat 8 n]
        ((s.slotEnd n 0x08 s.now).slotWork n false false noEnd).runSlots (n + 1) k
      else
        let f := s.mode.forced.getD n 0
        let alt := f = 2 || (f = 0 && primaryFailed (s.prevByte n))
        s.startMethod { slot := n, method := .none, altFirst := alt, second := false, triedMask := 0, slotStart := s.now, deadline := 0 }
          (if alt then .alternate else .primary) false

/-- START is entered and its record opened (R65). -/
def State.beginStart (s : State) (cause : Nat) : State :=
  let s := ((s.saveAll).bootSlot).startPages
  let clean := (s.mode.shutLast = 1 : Bool).toNat
  let lost := s.mode.ledgerLost.toNat
  let s := s.modMode fun m =>
    { m with
      startNo := m.startNo + 1, mpMismatch := [], mpRestarting := false, reducedCause := 0, startFailed := false, deferred := [], failedOver := 0
      autoBlocked := false, autoEdge := false, ledgerLost := false, stageMs := 0, shutdown := none
      forced := (List.range 14).map fun k => bitsOf (s.live (Pg.MODE * 4096 + 0x400)) (2 * k + 1) (2 * k)
      ledger := (LedgerRec.mk (m.startNo + 1) cause 0 (clean + 4 * lost) s.timeNs (List.replicate 14 0) (List.replicate 14 0) 0 0 :: m.ledger).take 16 }
  let s := (s.modKw fun k => { k with bgCores := [], bgUnits := [], tested := false }).modTime fun t => { t with known := t.source ≠ .aon }
  let s := s.modMode fun m => { m with reducedCause := s.reducedNow }
  (((s.holdFresh).saveLedger).enterMode .start).runSlots 0 16
/-- A START request or the module-reset signal starts the module and clears START_HOLD (R58). -/
def State.forceStart (s : State) (cause : Nat) : State :=
  let s := if s.mode.startHold then (s.modMode fun m => { m with startHold := false }).saveHold else s
  s.beginStart cause

/-- A method of the running slot ended (R60, R61). -/
def State.methodEnd (s : State) (r : MethodEnd) : State :=
  match s.mode.stage with
  | none => s
  | some x =>
    let n := x.slot
    let base := x.triedMask + 16 * x.altFirst.toNat
    if r.ok then
      let alt : Bool := x.method = .alternate
      ((s.slotEnd n (base + 4 * alt.toNat) x.slotStart).slotWork n true alt r).runSlots (n + 1) 16
    else
      let s := if s.rec_.failCode = 0 ∧ s.rec_.failPage = 0 then
          s.modRec fun k => { k with failCode := r.failCode.toNat, failPage := r.failPage.toNat }
        else s
      if ! x.second then s.startMethod x (if x.method = .primary then .alternate else .primary) true
      else
        let prev := s.prevByte n
        let s := (s.slotEnd n (base + 12) x.slotStart).setEv Pg.MODE 10
        let s := s.logEv s.stagePg 0x0304 (if slotSkippable n then .degraded else .critical) 0 [BitVec.ofNat 8 n]
        if ! slotSkippable n then s.failStart
        else
          let s := if slotResult prev = 3 ∧ ! s.mode.skipLatch.testBit n then
              ((s.modMode fun m => { m with skipLatch := m.skipLatch ||| 2 ^ n }).saveSkip).setEv Pg.MODE 13
            else s
          (s.slotWork n false false r).runSlots (n + 1) 16

/-! ## Requests (R54 to R58) -/

def State.refuseReq (s : State) (r : Nat) : State :=
  let m := s.mode.mode.code
  (s.setErr Pg.MODE 0x0100 (r % 16 + 16 * m)).logEv Pg.MODE 0x0309 .notice 0 [BitVec.ofNat 8 r, BitVec.ofNat 8 m]
/-- What an allowed request does. -/
def State.doReq (s : State) (r : Nat) : State :=
  match r with
  | 1 => s.forceStart 2
  | 2 => if s.mode.mode = .start then s.modMode fun m => { m with deferred := m.deferred ++ [2] } else s.beginShutdown false
  | 3 => if s.mode.mode = .standby then (s.raise [Dom.FABRIC]).enterMode .diagnostic else s.beginShutdown true
  | 4 => (s.testAbort).toStandby
  | 5 => s.preserveFor 7
  | 6 =>
    let s := (s.modMode fun m => { m with preserveCause := 0 }).savePreserve
    let s := s.modMode fun m => { m with reducedCause := s.reducedNow }
    s.enterMode (if s.mode.reducedCause ≠ 0 then .reduced else .service)
  | _ => s
/-- A mode request: put off during a transition (R56), refused, or carried out. -/
def State.modeReq (s : State) (r : Nat) : State :=
  if r = 0 ∨ 6 < r then s.refuseReq r
  else if s.mode.shutdown.isSome ∨ s.inHoldup then s.modMode fun m => { m with deferred := m.deferred ++ [r] }
  else if s.reqAllowed r then s.doReq r
  else s.refuseReq r
/-- A transition has ended: deferred triggers whose condition still holds. -/
def State.doDeferred (s : State) : State :=
  let l := s.mode.deferred
  let s := s.modMode fun m => { m with deferred := [] }
  l.foldl (fun s r =>
    if r = 0 then (if s.pwr.pwrdis ∧ s.serving ∧ s.mode.shutdown.isNone then s.beginShutdown false else s)
    else if s.mode.shutdown.isNone ∧ s.reqAllowed r then s.doReq r else s) s

/-- Power-disable is asserted: shutdown, at once or when the running stage ends (R54, R74). -/
def State.powerDisable (s : State) : State :=
  if s.mode.shutdown.isSome ∨ s.mode.mode = .start then s.modMode fun m => { m with deferred := m.deferred ++ [0] }
  else if s.serving then s.beginShutdown false else s

/-- Orderly shutdown ends in STANDBY or, after step 6, in DIAGNOSTIC. -/
def State.endShutdown (s : State) (toDiag : Bool) : State :=
  let s := if s.mode.mode = .start then s.closeStart .standby true else s
  let s := s.modMode fun m => { m with shutdown := none }
  let s :=
    if toDiag then (s.lowerTo (Dom.FABRIC :: alwaysDoms)).enterMode .diagnostic
    else (s.setShutStep 7).saveShutdown.toStandby
  ((s.logEv Pg.MODE 0x0307 .info).setEv Pg.MODE 12).doDeferred
/-- The work of the running step ends. -/
def State.shutStepEnd (s : State) (r : ShutdownRun) : State :=
  let next := fun (s : State) => (s.setShutStep r.step).modMode fun m => { m with shutdown := some { r with step := r.step + 1 } }
  match r.step with
  | 2 => (next s).shutCut
  | 3 => (next s).shutClose
  | 4 => next s
  | 5 => next s.drainMedia
  | 6 =>
    let s := s.modMode fun m => { m with shutLast := if r.escalated then 2 else 1, shutStep := 6 }
    let s := (s.modMedia fun m => { m with retHours := s.retNow, retAt := s.now }).recordTime
    let s := s.saveAll.saveShutdown
    if r.toDiag then s.endShutdown true else next s
  | _ => s.endShutdown r.toDiag

/-! ## The flush goes on (R264, R265) -/

def State.modFlush (s : State) (f : FlushRun → FlushRun) : State := s.modHold fun h => { h with flush := h.flush.map f }
/-- The entries posted in HOLD-UP: the first 32 are written, the rest are counted (R266). -/
def State.flushLog (s : State) : State :=
  let l := s.log.held.reverse
  let lost := l.length - 32
  let s := s.modLog fun k => { k with held := [], dropped := lost }
  let s := s.modHold fun h => { h with logDropped := min lost 255 }
  (l.take 32).foldl (fun s e => s.appendLog e) s
/-- Input power and the stored energy are gone: OFF. -/
def State.toOff (s : State) : State :=
  let s := s.lowerTo []
  let s := s.modHold fun h => { h with flush := none, meas := none, charging := false, measDue := none }
  let s := s.modPwr fun p => { p with flashDownAt := none, pwrdis := false, resetLow := false, resetLowAt := none, debugGranted := false }
  let s := s.modMedia fun m => { m with offHours := none }
  let s := s.modLog fun l => { l with held := [] }
  s.modMode fun m =>
    { m with mode := .off, prev := m.mode, stage := none, shutdown := none, deferred := [], autoBlocked := false, autoEdge := false, mpRestarting := false }
/-- The flush is over: what it drew is recorded, the domains fall, STANDBY or OFF. -/
def State.flushOver (s : State) (f : FlushRun) : State :=
  let s := s.modHold fun h =>
    { h with flush := none, lastTime := f.us, lastEnergy := f.mj, lastP1 := f.pass1 / 2 ^ 20, lastP2 := f.pass2 / 2 ^ 20 }
  match s.mode.shutdown with
  | some r => s.endShutdown r.toDiag
  | none =>
    if s.auxOk then ((s.modMode fun m => { m with autoBlocked := true }).toStandby).doDeferred
    else s.toOff
/-- Bytes of the versions that a pass has to program. -/
def State.passBytes (s : State) (needed : Bool) : Nat :=
  s.media.versions.foldl (fun n e => if e.2.needed = needed ∧ e.2.state ≠ .landed then n + s.verBytes e.2 else n) 0
def State.passGrains (s : State) (needed : Bool) : Nat := (s.media.versions.filter fun e => e.2.needed = needed ∧ e.2.state ≠ .landed).length

/-- Pass 2 over a number of segments, and the step after it. -/
def State.flushPass2End (s : State) (f : FlushRun) (most : Nat) : State :=
  let l := s.pass2Segs.take most
  let mine := s.media.versions.filter fun e => ! e.2.needed && e.2.state ≠ .landed && l.contains (e.2.ctx, e.2.segment)
  let bytes := mine.foldl (fun n e => n + s.verBytes e.2) 0
  let s := ((s.flushPass2 most).flushGroups)
  s.modFlush fun _ => { f with step := 6, pass2 := bytes, grains2 := mine.length }
/-- The work of the running step ends, having taken so long and so much. -/
def State.flushStep (s : State) (f : FlushRun) (us mj : Nat) : State :=
  let f := { f with us := f.us + us, mj := f.mj + mj }
  let s := s.reach (f.t0 + usec f.us)
  let next := fun (s : State) => s.modFlush fun _ => { f with step := f.step + 1 }
  match f.step with
  | 2 => next ((s.media.bands.filter fun e => e.2.programming).foldl (fun s e => s.rowDone e.1) s)
  | 3 => next (s.lower holdupDown)
  | 4 =>
    let b := s.passBytes true
    let g := s.passGrains true
    (s.flushPass1).modFlush fun _ => { f with step := 5, pass1 := b, grains1 := g }
  | 5 => s.flushPass2End f s.pass2Segs.length
  | 6 =>
    let s := (s.programOpen true).flushGroups
    let s := s.hold.begun.foldl (fun s q => s.journal 0x19 0 f.grains1 f.grains2 q) s
    next (s.modHold fun h => { h with begun := [] })
  | 7 =>
    let s := s.logEv Pg.HOLD 0x0A04 .notice 0 (leBytes 4 f.us ++ leBytes 4 f.mj ++ leBytes 4 (f.pass1 / 2 ^ 20) ++ leBytes 4 (f.pass2 / 2 ^ 20))
    let s := (s.saveAll.saveShutdown.saveFence)
    next s.flushLog
  | 8 => s.flushOver f
  | _ => next s

end Sys2Proof.Machine
end

