-- ==== Sys2Proof/Machine/SensOps.lean ====
section
/-! DEFINITION. The sensors: ranges, limits, replacement of failed ones, trips, and the activity ceiling (R421 to R423). Readings are in
the units of SENS.VALUE: 0.1 °C, mV, 10 mA and µF. -/

namespace Sys2Proof.Machine

/-! ## Tables of R421 -/

/-- Range of a sensor's readings. -/
def sensRange (i : Nat) : Int × Int :=
  let nominal := [48000, 12000, 750, 750, 750, 750, 750, 750, 3300, 3300, 3300, 3300, 1050, 900, 3300, 3300]
  let trip := [1200, 300, 10000, 4000, 14000, 14000, 14000, 14000, 800, 800, 800, 800, 3000, 2500, 545, 545]
  if i < 64 then (-400, 1250) else if i < 88 then (-400, 1500) else if i < 92 then (-400, 1250) else if i = 92 then (-200, 850)
  else if i = 93 then (-200, 1000) else if i < 110 then (0, nominal.getD (i - 94) 0 * 125 / 100)
  else if i < 126 then (0, trip.getD (i - 110) 0 * 150 / 100) else if i = 126 then (0, 60000) else (0, 250000)
/-- Warn, throttle and trip limits of a temperature. -/
def tempLimits (i : Nat) : Int × Int × Option Int :=
  if i < 64 then (700, 750, some 850) else if i < 88 then (950, 1000, some 1150) else if i < 92 then (850, 900, some 1050)
  else if i = 92 then (400, 450, none) else (650, 700, none)
def railNominal (r : Nat) : Int :=
  [48000, 12000, 750, 750, 750, 750, 750, 750, 3300, 3300, 3300, 3300, 1050, 900, 3300, 3300].getD r 0
def railTrip (r : Nat) : Int := [1200, 300, 10000, 4000, 14000, 14000, 14000, 14000, 800, 800, 800, 800, 3000, 2500, 545, 545].getD r 0
def railThrottle (r : Nat) : Option Int :=
  [some 940, none, some 8000, some 3000, some 11000, some 11000, some 11000, some 11000, some 600, some 600, some 600, some 600, some 2400, some 2000, none, none].getD r none
/-- The rail's supply is up. -/
def State.railUp (s : State) (r : Nat) : Bool :=
  if r = 0 then s.mainOk else if r = 1 then s.auxOk else if r = 2 then s.isUp Dom.NETCORE else if r = 3 then true
  else if r < 8 then s.isUp (Dom.CPU (r - 4)) || s.isUp (Dom.ENG (r - 4)) else if r < 12 then s.isUp (Dom.FVCC (r - 8))
  else if r = 12 then (quadDoms 4).any s.isUp else if r = 13 then (quadDoms 2).any s.isUp else s.cagePower (r - 14)
/-- The level of a reading. The low side of the inputs is left to the power-fail warning and to the loss of VAUX, and the cages' current to
R422. -/
def State.sensLevel (s : State) (i : Nat) (v : Int) : SensState :=
  if i < 94 then
    let (w, t, p) := tempLimits i
    if p.any (· ≤ v) then .trip else if t ≤ v then .throttle else if w ≤ v then .warn else .normal
  else if i < 110 then
    let r := i - 94
    let n := railNominal r
    let lo : Bool := v * 10 < n * 9 && 2 ≤ r
    let hi : Bool := if r = 0 then 60000 < v else n * 11 < v * 10
    if ! s.railUp r then .normal else if lo ∨ hi then .trip else if v * 100 < n * 95 ∨ n * 105 < v * 100 then .warn else .normal
  else if i < 126 then
    let r := i - 110
    if ! s.railUp r then .normal else if r < 14 ∧ railTrip r < v then .trip else if (railThrottle r).any (· ≤ v) then .throttle else .normal
  else .normal
def SensState.num : SensState → Nat
  | .normal => 0 | .warn => 1 | .throttle => 2 | .trip => 3 | .failed => 4
/-- At warn or above, of a sensor that works. -/
def SensState.warm (x : SensState) : Bool := x = .warn || x = .throttle || x = .trip

/-! ## Sensors (R421, R422) -/

def Sensor.init : Sensor := ⟨0, .normal, 0, 0⟩
def State.sensor (s : State) (i : Nat) : Sensor := KV.getD .init s.sens.sensors i
def State.modSensor (s : State) (i : Nat) (f : Sensor → Sensor) : State :=
  s.modSens fun k => { k with sensors := KV.modify .init k.sensors i f }
/-- 24 bits of two's complement. -/
def sensInt (n : Nat) : Int := (BitVec.ofNat 24 n).toInt
def sensBytes (i : Nat) (v : Int) : List Byte := BitVec.ofNat 8 i :: leBytes 3 (v % 2 ^ 24).toNat
/-- A sensor fails. -/
def State.sensFails (s : State) (i : Nat) : State :=
  if (s.sensor i).state = .failed then s
  else ((s.modSensor i fun x => { x with state := .failed }).setEv Pg.SENS 10).logEv Pg.SENS 0x1104 .absorbed 0 [BitVec.ofNat 8 i]
/-- Sensors of one class in one quadrant, or on one chiplet. -/
def sensGroup (i : Nat) : Nat := if i < 64 then i / 16 else if i < 88 then 4 + (i - 64) / 4 else i
/-- What stands for a failed sensor: the highest healthy sensor of its class in the quadrant plus 5 °C, or its rail's trip value. Without a
healthy one, and for the sides of a voltage's band, the value is not known. -/
def State.substitute (s : State) (i : Nat) : State :=
  if i < 94 then
    let l := s.sens.sensors.filter fun e => e.1 ≠ i && e.1 < 94 && sensGroup e.1 = sensGroup i && e.2.state ≠ .failed
    match l with
    | [] =>
      let (n, s) := s.draw
      s.modSensor i fun x => { x with reading := sensInt n }
    | e :: l => s.modSensor i fun x => { x with reading := (l.foldl (fun (m : Int) (e : Nat × Sensor) => max m e.2.reading) e.2.reading) + 50 }
  else if i < 110 then
    let (n, s) := s.draw
    let v := railNominal (i - 94)
    s.modSensor i fun x => { x with reading := if n % 2 = 0 then v * 9 / 10 else v * 11 / 10 }
  else if i < 126 then s.modSensor i fun x => { x with reading := railTrip (i - 110) }
  else s
/-- One reading is taken. -/
def State.sensTake (s : State) (i : Nat) (v : Int) : State :=
  let (lo, hi) := sensRange i
  if v < lo ∨ hi < v then s.sensFails i
  else
    let was := (s.sensor i).state
    let lvl := s.sensLevel i v
    let s := s.modSensor i fun x => { x with reading := v, state := lvl, peak := max x.peak v, at_ := s.now }
    let s := if i < 110 ∧ was.warm ≠ lvl.warm then s.logEv Pg.SENS 0x1101 .notice 0 (sensBytes i v) else s
    if lvl = .trip ∧ was ≠ .trip then s.logEv Pg.SENS 0x1103 .critical 0 (sensBytes i v) else s

/-! ## The ceiling (R423) -/

/-- The reading is at or above its throttle limit. -/
def State.isHot (s : State) (i : Nat) (v : Int) : Bool :=
  if i < 94 then decide ((tempLimits i).2.1 ≤ v)
  else if 110 ≤ i ∧ i < 126 then s.railUp (i - 110) && (railThrottle (i - 110)).any (· ≤ v)
  else false
/-- It lies below the limit by the hysteresis. -/
def State.isCool (s : State) (i : Nat) (v : Int) : Bool :=
  if i < 94 then decide (v + 10 * (s.cfg Pg.SENS Fd.SENS_THROTTLE_CTRL_HYST_C : Nat) ≤ (tempLimits i).2.1) else ! s.isHot i v
def State.anyHot (s : State) : Bool := s.sens.sensors.any fun e => s.isHot e.1 e.2.reading
def State.allCool (s : State) : Bool := s.sens.sensors.all fun e => s.isCool e.1 e.2.reading
/-- The sensor with the highest temperature relative to its throttle limit. -/
def State.hottest (s : State) : Nat :=
  let rel := fun (e : Nat × Sensor) => e.2.reading - (tempLimits e.1).2.1
  match s.sens.sensors.filter fun e => e.1 < 94 with
  | [] => 0
  | e :: l => (l.foldl (fun (m e : Nat × Sensor) => if rel m < rel e then e else m) e).1
/-- The highest temperature in °C. -/
def State.topTemp (s : State) : Nat :=
  ((s.sens.sensors.filter fun e => e.1 < 94).foldl (fun (m : Int) (e : Nat × Sensor) => max m e.2.reading) 0).toNat / 10
/-- Composite Temperature in kelvin: the highest flash package (R422). -/
def State.compositeK (s : State) : Nat :=
  match s.sens.sensors.filter fun e => e.1 < 64 with
  | [] => 273
  | e :: l => (273 + (l.foldl (fun (m : Int) (e : Nat × Sensor) => max m e.2.reading) e.2.reading) / 10).toNat
/-- The ceiling holds the enabled instances below their minimums. -/
def State.belowMin (s : State) : Bool :=
  s.sens.ceiling * 4096 < 100 * s.enabledList.foldl (fun n i => n + s.share i) 0
/-- The breach of causes 0x0002 and 0x0003 follows the ceiling (R152). -/
def State.ceilingBreach (s : State) : State :=
  let mine := fun (b : Breach) => b.cause = 2 || b.cause = 3
  let on := s.inst.breaches.any mine
  if s.serving ∧ s.belowMin ∧ ! on then
    let temp := s.sens.sensors.any fun e => e.1 < 94 && s.isHot e.1 e.2.reading
    if temp then s.breachBegin 2 4 s.topTemp s.enabledList
    else
      let rail := ((s.sens.sensors.find? fun e => s.isHot e.1 e.2.reading).map fun e => e.1 - 110).getD 0
      s.breachBegin 3 4 rail s.enabledList
  else if on ∧ ! s.belowMin then s.breachEnd mine
  else s
/-- The ceiling moves; where throttling begins or ends it is logged. -/
def State.setCeiling (s : State) (n : Nat) : State :=
  let was := s.sens.ceiling
  let s := s.modSens fun k => { k with ceiling := n }
  let s := if was = 100 ∧ n < 100 ∨ was < 100 ∧ n = 100 then
      s.logEv Pg.SENS 0x1102 .notice 0 [BitVec.ofNat 8 n, BitVec.ofNat 8 s.hottest]
    else s
  s.ceilingBreach
/-- The throttle's timers follow the readings. -/
def State.ceilingTrack (s : State) : State :=
  let hot := s.anyHot
  let cool := s.allCool
  s.modSens fun k =>
    { k with
      nextStep := if hot then some (k.nextStep.getD (s.now + msec 100)) else none
      clearSince := if cool then some (k.clearSince.getD s.now) else none }

/-- SMART Critical Warning bit 1 follows the manager's threshold (R422). -/
def State.tempTrack (s : State) : State :=
  let on : Bool := 0 < s.sens.tempThreshold && s.sens.tempThreshold ≤ s.compositeK
  let was := s.sens.smartTemp
  let s := s.modSens fun k => { k with smartTemp := on }
  if on ∧ ! was then s.cmd.ctrls.foldl (fun s c => if c.2.disc then s else s.aenCtrl c.1 1 0x02 (1 + 0x01 * 256 + 0x02 * 65536)) s else s
/-- A set of readings is applied. -/
def State.sensApply (s : State) (l : List (Nat × Nat)) : State :=
  let s := l.foldl (fun s e => s.sensTake e.1 (sensInt e.2)) s
  let s := (s.sens.sensors.filter fun e => e.2.state = .failed).foldl (fun s e => s.substitute e.1) s
  (s.ceilingTrack).tempTrack
/-- A reading trips the module. -/
def State.tripsOn (s : State) (l : List (Nat × Nat)) : Bool :=
  l.any fun e =>
    let v := sensInt e.2
    let (lo, hi) := sensRange e.1
    decide (lo ≤ v ∧ v ≤ hi) && s.sensLevel e.1 v = .trip
/-- In HOLD-UP: a temperature 10 °C above its trip limit, or a rail current at 125 % of its trip value. -/
def cutsOn (l : List (Nat × Nat)) : Bool :=
  l.any fun e =>
    let v := sensInt e.2
    if e.1 < 94 then (tempLimits e.1).2.2.any fun t => decide (t + 100 ≤ v)
    else if 110 ≤ e.1 ∧ e.1 < 126 then decide (railTrip (e.1 - 110) * 125 ≤ v * 100)
    else false

end Sys2Proof.Machine
end

