-- ==== Sys2Proof/Machine/MgmtEvents.lean ====
section
/-! DEFINITION. Sensors, throttling, cages, the log mirror, time, clocks, the service header and the management processor's restart
(R420 to R427, R443, R445, R452, R454). -/

namespace Sys2Proof.Machine

/-! ## Sensors (R420 to R422) -/

/-- R266, R420, R421. In HOLD-UP only the HC's cut acts; while the MP restarts the readings wait, and the HC's comparisons act. -/
def execSensorSample (readings : List (Fin 128 × BitVec 24)) (s : State) : Res :=
  .next <|
    let l := readings.map fun e => (e.1.val, e.2.toNat)
    if s.mode.mode = .off then s
    else if s.inHoldup then (if cutsOn l then s.toOff else s)
    else
      let s :=
        if s.mode.mpRestarting then
          if s.log.held.length + s.sens.held.length < 256 then s.modSens fun k => { k with held := l :: k.held } else s
        else s.sensApply l
      let stood := s.sens.sensors.any fun e => e.2.state = .failed && decide (e.1 < 94) && (tempLimits e.1).2.2.any (· ≤ e.2.reading)
      if s.tripsOn l ∨ stood then s.enterHoldup .trip else s
/-- R422. -/
def execSensorStaleTimeout (sensor : Fin 128) (s : State) : Res :=
  .next <|
    if s.mode.mode = .off ∨ s.inHoldup ∨ s.mode.mpRestarting then s
    else
      let s := (s.reach ((s.sensor sensor.val).at_ + msec 100)).sensFails sensor.val
      ((s.substitute sensor.val).ceilingTrack).tempTrack
/-- R422. The port is down from an external cause until the manager brings it up. -/
def execCageOvercurrent (port : Fin 2) (s : State) : Res :=
  .next <|
    let p := port.val
    if s.mode.mode = .off ∨ ! s.cagePower p then s
    else (((s.modCage p fun c => { c with cutOff := true }).setEv Pg.PWR 10).logEv Pg.PWR 0x110A .notice 0 [BitVec.ofNat 8 p]).portExternal p

/-! ## Throttling (R423) -/

/-- R423. -/
def execThrottleStep (s : State) : Res :=
  .next <|
    if s.mode.mode = .off ∨ s.inHoldup ∨ s.mode.mpRestarting then s
    else match s.sens.nextStep with
      | none => s
      | some t =>
        let s := s.reach t
        let s := s.modSens fun k => { k with nextStep := some (s.now + msec 100) }
        s.setCeiling (max 20 (s.sens.ceiling - s.cfg Pg.SENS Fd.SENS_THROTTLE_CTRL_STEP_PCT))
/-- R423. -/
def execThrottleRecover (s : State) : Res :=
  .next <|
    if s.mode.mode = .off ∨ s.inHoldup ∨ s.mode.mpRestarting then s
    else match s.sens.clearSince with
      | none => s
      | some t =>
        let s := s.reach (t + secs (s.cfg Pg.SENS Fd.SENS_THROTTLE_CTRL_RECOVER_S))
        let s := s.modSens fun k => { k with clearSince := some s.now }
        s.setCeiling (min 100 (s.sens.ceiling + s.cfg Pg.SENS Fd.SENS_THROTTLE_CTRL_STEP_PCT))

/-! ## The log's mirror (R425) -/

/-- The entry to copy next: the oldest that NOR still holds and the mirror does not. -/
def State.nextMirror (s : State) : Nat := max (s.log.mirrored + 1) (s.log.head - 65535)
/-- R425. A mirror write that fails is retried on another row. -/
def execLogMirrorCopy (ok : Bool) (s : State) : Res :=
  .next <|
    if ! s.serving ∨ s.mode.mpRestarting ∨ s.log.head < s.nextMirror then s
    else if ok then s.modLog fun l => { l with mirrored := s.nextMirror }
    else s.logEv Pg.LOG 0x1109 .absorbed

/-! ## Time (R242, R243, R427) -/

/-- Real time is obtained: the time off, where it was not known, is the step from AON time; catch-up ends where it is short. -/
def State.gotTime (s : State) (src : TimeSource) (ns : Nat) : State :=
  let step : Int := (ns : Int) - (s.timeNs : Int)
  let learn := s.media.offHours.isNone && s.time.lastReal.isSome
  let s := (s.setSource src step).modTime fun t => { t with known := true }
  if ! learn then s
  else
    let h := step.toNat / secs 3600
    let s := s.modMedia fun m => { m with offHours := some h, retHours := m.retHours + h }
    if s.media.catchup ∧ h < s.cfg Pg.MEDIA Fd.MEDIA_CATCHUP_CTRL_MIN_H then
      (s.modMedia fun m => { m with catchup := false, catchupDone := 100 }).logEv Pg.MEDIA 0x0905 .info 0 ((0 : Byte) :: leBytes 4 h)
    else s
/-- R427. The offset of the slave clock. -/
def execPtpMessageReceive (entry : Fin 512) (domain : BitVec 8) (offsetNs : Int) (s : State) : Res :=
  .next <|
    let e := KV.getD [] s.net.addrs entry.val
    let here := (e.getD 0x10 0).getLsbD 0 && (e.getD 0x10 0).getLsbD 3
    if ! here ∨ ! s.isUp Dom.NETCORE ∨ ! s.cfgB Pg.DEV Fd.DEV_PTP_ENABLE ∨ s.cfg Pg.DEV Fd.DEV_PTP_DOMAIN ≠ domain.toNat then s
    else if offsetNs.natAbs ≤ 1000 then
      s.modTime fun t =>
        { t with
          ptpOffset := offsetNs, ptpGoodSince := some (t.ptpGoodSince.getD s.now)
          base := if t.ptpLocked then t.base - offsetNs else t.base }
    else (s.modTime fun t => { t with ptpOffset := offsetNs, ptpGoodSince := none }).ptpLost
/-- R427. The time that PTP gives is not known. -/
def execPtpLock (s : State) : Res :=
  .next <|
    match s.time.ptpGoodSince with
    | none => s
    | some t =>
      if s.time.ptpLocked ∨ ! s.cfgB Pg.DEV Fd.DEV_PTP_ENABLE then s
      else
        let s := s.reach (t + secs 10)
        let (n, s) := s.draw
        (s.modTime fun t => { t with ptpLocked := true }).gotTime .ptp (n % 2 ^ 64)
/-- The manager sets the time, unless PTP is locked. -/
def State.setTime (s : State) (ns : Nat) : State :=
  if s.time.ptpLocked then s else (s.modTime fun t => { t with managerSet := true, ppsAligned := false }).gotTime .set ns
/-- DEV.TIME_SET_GO. -/
def State.timeSetGo (s : State) : State :=
  s.setTime (s.cfg Pg.DEV Fd.DEV_TIME_SET_LO_NS + 2 ^ 32 * s.cfg Pg.DEV Fd.DEV_TIME_SET_HI_NS)
def execTimeSetGo (path : Path) (s : State) : Res := .next (s.viaPath path Pg.DEV 0x408 State.timeSetGo)

/-! ## 1PPS (R427, R445, R455) -/

/-- R445. -/
def execPpsEdge (falling : Bool) (s : State) : Res :=
  .next <|
    if s.mode.mode = .off ∨ s.time.lastPps.any fun t => decide (s.now < t + 100) then s
    else
      let back := s.time.ppsLost
      let s := s.modTime fun t => { t with lastPps := some s.now, ppsLost := false }
      let s := if back then s.logEv Pg.CLK 0x1302 .info 0 [1] else s
      if s.cfgB Pg.CLK Fd.CLK_PPS_CTRL_USE ∧ s.cfgB Pg.CLK Fd.CLK_PPS_CTRL_FALLING = falling ∧ s.time.source = .set then
        let r := s.timeNs % secs 1
        let step : Int := if r < 500000000 then - (r : Int) else (secs 1 - r : Nat)
        (s.setSource .set step).modTime fun t => { t with ppsAligned := true }
      else s
/-- R455, R456. -/
def execPpsLoss (s : State) : Res :=
  .next <|
    match s.time.lastPps with
    | none => s
    | some t =>
      if s.mode.mode = .off then s
      else ((s.reach (t + msec 1500)).modTime fun t => { t with lastPps := none, ppsLost := true, ppsAligned := false }).logEv Pg.CLK 0x1302 .info 0 [0]

/-! ## Cages and clocks (R25, R443, R454) -/

/-- R443. -/
def execTransceiverInsert (port : Fin 2) (deciWatt : Nat) (s : State) : Res :=
  .next <|
    let p := port.val
    let s := s.modCage p fun c => { c with present := true, deciWatt := deciWatt }
    if s.mode.mode = .off then s else (s.setEv Pg.PWR 10).cageCheck p
/-- R25. -/
def execTransceiverRemove (port : Fin 2) (s : State) : Res :=
  .next <|
    let p := port.val
    let s := s.modCage p fun c => { c with present := false, deciWatt := 0 }
    if s.mode.mode = .off then s else (s.setEv Pg.PWR 10).portExternal p

/-- The source of clock domain `d` (from 0) has power. -/
def State.clockUp (s : State) (d : Nat) : Bool :=
  if d < 4 then s.isUp (Dom.NPHY (d / 2)) && (d % 2 = 1 || (List.range 4).any fun k => (s.subOf (d / 2) k).up)
  else if d = 4 then s.isUp Dom.NETCORE else if d = 5 then s.isUp Dom.FABRIC
  else if d < 10 then s.isUp (Dom.CPU (d - 6)) else if d < 14 then s.isUp (Dom.LPHY (d - 10)) else if d < 18 then s.isUp (Dom.MEM (d - 14))
  else if d = 18 then (quadDoms 1).any s.isUp else if d = 19 ∨ d = 23 then s.isUp Dom.MGMT else if d = 20 then s.isUp Dom.SEC
  else if d = 21 then s.isUp Dom.AON else if d = 22 then s.isUp Dom.HOLDUP else false
/-- Domains that a PLL of the module clocks; the receive clocks are recovered, the others run from oscillators or from outside. -/
def clockPll (d : Nat) : Bool := d = 1 || d = 3 || (4 ≤ d && d ≤ 19)
/-- R454, R455. -/
def execPllLockLoss (dom : Fin 25) (s : State) : Res :=
  .next <|
    let d := dom.val
    if ! clockPll d ∨ ! s.clockUp d ∨ s.pwr.pllLost.testBit d then s
    else (s.modPwr fun p => { p with pllLost := p.pllLost ||| 2 ^ d, relock := p.relock ||| 2 ^ d }).setEv Pg.CLK 8
/-- Every unit that a clock domain clocks fails (R23). -/
def State.clockFails (s : State) (d : Nat) : State :=
  if d < 4 then s.portFails (d / 2)
  else if d = 4 then (s.portFails 0).portFails 1
  else if d = 5 then (List.range 9).foldl (fun s l => s.linkFails l [BitVec.ofNat 8 l, 0xFF]) s
  else if d < 10 then (List.range 4).foldl (fun s c => s.clusterFails (d - 6) c) s
  else if d < 14 then (List.range 16).foldl (fun s l => s.laneFails (16 * (d - 10) + l)) s
  else if d < 18 then (List.range 5).foldl (fun s c => s.channelLost (d - 14) c) s
  else if d = 18 then
    (List.range 4).foldl (fun s q =>
      let s := EngineKind.all.foldl (fun s k => (List.range k.count).foldl (fun s u => s.unitFails q k u) s) s
      (List.range 8).foldl (fun s c => s.mediaCoreFails q c) s) s
  else s.mpFails
/-- R454. -/
def execPllRelockDone (dom : Fin 25) (ok : Bool) (s : State) : Res :=
  .next <|
    let d := dom.val
    if ! s.pwr.relock.testBit d then s
    else
      let s := s.modPwr fun p => { p with relock := p.relock - 2 ^ d, pllLost := if ok then p.pllLost - 2 ^ d else p.pllLost }
      if ok then s.logEv Pg.CLK 0x1304 .absorbed 0 [BitVec.ofNat 8 (d + 1)] else s.clockFails d

/-! ## The service header (R452) -/

/-- R452. What the scan registers hold beyond the stated bits is not known; a refused instruction does nothing. -/
def execJtagInstruction (op : JtagOp) (s : State) : Res :=
  .next <|
    let granted := s.pwr.debugGranted && s.mode.mode = .diagnostic
    if s.mode.mode = .off then s
    else match op with
      | .idcode =>
        let (n, s) := s.draw
        s.emit (.jtag (setBits (setBits (n % 2 ^ 32) 27 12 0x8400) 0 0 1))
      | .bypass => s.emit (.jtag 0)
      | .samplePreload =>
        let (n, s) := s.draw
        s.emit (.jtag n)
      | .extest =>
        if granted then
          let (n, s) := s.draw
          s.emit (.jtag n)
        else s
      | .debug => s
/-- The key of a vendor slot passes R410: it is programmed and not revoked, and its digest is the fuses'. -/
def State.vendorKeyOk (s : State) (slot : Nat) (key : List Byte) : Bool :=
  s.sec.programmed.testBit slot && ! s.sec.revoked.testBit slot && decide (Config.sha384 key = Config.fuseDigest slot)
/-- R452. The response is the key, 97 bytes, and its signature of the challenge, which the SI draws and sends. -/
def execDebugChallenge (slot : Fin 4) (response : List Byte) (s : State) : Res :=
  .next <|
    if s.mode.mode ≠ .diagnostic then s
    else
      let (n, s) := s.draw
      let nonce := leBytes 32 n
      let s := s.emit (.debugNonce nonce)
      let key := sliceB response 0 97
      if s.vendorKeyOk slot.val key && Config.ecdsaOk key (Config.sha384 nonce) (sliceB response 97 96) then
        s.modPwr fun p => { p with debugGranted := true }
      else s

/-! ## The management processor returns (R420) -/

/-- R420. What waited in hub SRAM is applied. -/
def execMpRestartDone (s : State) : Res :=
  .next <|
    if ! s.mode.mpRestarting then s
    else
      let l := s.sens.held.reverse
      let s := (s.modMode fun m => { m with mpRestarting := false }).modSens fun k => { k with held := [] }
      let s := s.flushHeldLog
      l.foldl (fun s r => s.sensApply r) s

end Sys2Proof.Machine
end

