-- ==== Sys2Proof/Machine/LogPages.lean ====
section
/-! DEFINITION. What Identify, the log pages and the attestation report hold (R22, R112, R115, R119, R160, R190, R238, R250, R409, R415,
R422, R424 to R426). Bytes that the spec gives are laid over free ones. -/

namespace Sys2Proof.Machine

/-- Bytes at their offsets laid over a page of `size` bytes. -/
def overlay (size : Nat) (base : List Byte) (l : List (Nat × List Byte)) : List Byte :=
  l.foldl (fun b e => putB b e.1 e.2) (sliceB base 0 size)
def asc (s : String) : List Byte := s.toList.map fun c => BitVec.ofNat 8 c.toNat
def byte (n : Nat) : List Byte := [BitVec.ofNat 8 n]
/-- Decimal digits of a number, at least `width` of them. -/
def decimal (width n : Nat) : List Byte :=
  let d := (Nat.toDigits 10 n).map fun c => BitVec.ofNat 8 c.toNat
  List.replicate (width - d.length) (0x30 : Byte) ++ d
/-- Subsystem NQN of an instance (R111). -/
def nqnOf (i : Nat) : List Byte :=
  asc "nqn.2031-04.com.talsis-devices:p8400:" ++ sliceB Config.serial 0 8 ++ asc ":i" ++ decimal 3 i

/-! ## The event log (R424, R425) -/

def LogEntry.bytes (e : LogEntry) : List Byte :=
  let l := leBytes 8 e.time ++ leBytes 4 e.pageId ++ leBytes 2 e.code ++ byte (e.sev.num + 8 * e.ptp.toNat + 16 * e.holdup.toNat)
    ++ byte e.inst ++ sliceB e.data 0 40 ++ leBytes 4 e.seq
  l ++ leBytes 4 (crc32c l)
/-- Oldest SEQ in NOR and in the mirror. -/
def State.logTail (s : State) : Nat := if s.log.head = 0 then 0 else max 1 (s.log.head - 65535)
def State.mirrorTail (s : State) : Nat := if s.log.mirrored = 0 then 0 else max 1 (s.log.mirrored - 4194303)
/-- The entry with a SEQ, from NOR or from the mirror; zeros where neither holds it. -/
def State.logEntry (s : State) (seq : Nat) : List Byte :=
  let held := seq ≠ 0 && decide (seq ≤ s.log.head) && (decide (s.logTail ≤ seq) || (decide (seq ≤ s.log.mirrored) && decide (s.mirrorTail ≤ seq)))
  match (if held then s.log.entries.find? fun e => e.seq = seq else none) with
  | some e => e.bytes
  | none => zeros 64
/-- Page C0h from an offset that is a multiple of 64. -/
def State.logPageC0 (s : State) (off len : Nat) : List Byte :=
  let part := fun n => if n = 0 then sliceB (leBytes 4 s.log.head ++ leBytes 4 s.logTail ++ leBytes 4 s.mirrorTail) 0 64 else s.logEntry n
  ((List.range (cdiv len 64)).flatMap fun k => part (off / 64 + k)).take len

/-! ## Health (R238, R250, R422) -/

/-- Mean WEAR of the blocks in service, in 1/32 cycles. -/
def State.meanWear (s : State) : Nat :=
  let l := s.media.blocks.filter fun e => e.2.state ≠ .retired && e.2.state ≠ .fenced && e.2.state ≠ .spare && e.2.state ≠ .system
  let dies := ((List.range 1024).filter s.dieUp).length
  l.foldl (fun n e => n + e.2.wear) 0 / max 1 (s.qlcInService + 655 * dies)
/-- Percentage Used. -/
def State.pctUsed (s : State) : Nat :=
  min 255 (max (100 * (256 * s.media.physWrites) / 800000000000000000) (100 * s.meanWear / (32 * 3000)))
/-- Critical Warning. -/
def State.criticalWarning (s : State) : Nat :=
  let pres : Bool := s.mode.mode = .preserve
  (decide (s.availPct < 10)).toNat + 2 * s.sens.smartTemp.toNat
    + 4 * (pres || (decide (s.mode.mode = .reduced) && s.mode.reducedCause.testBit 0)).toNat + 8 * pres.toNat

/-! ## Mailbox words (R158 to R160) -/

def State.m2tStatus (s : State) (i : Nat) : Nat :=
  let t := s.instOf i
  t.m2tFull.toNat + 2 * t.m2tSource.toNat + 4 * t.m2tLost.toNat + 256 * t.queue.length + 65536 * t.m2tSeq
def State.t2mStatus (s : State) (i : Nat) : Nat :=
  let t := s.instOf i
  t.t2mPending.toNat + 2 * t.t2mAcked.toNat + 4 * t.t2mLost.toNat + 65536 * t.t2mSeq
def State.mbiPend (s : State) (k : Nat) : Nat :=
  (List.range 32).foldl (fun m j => if (s.instOf (32 * k + j)).t2mPending then m + 2 ^ j else m) 0

/-! ## Discovery (R112) -/

/-- A rule admits a connection over a transport through an address entry and a sub-link to the NVMe service. -/
def admitsAt (r e : List Byte) (n sub inst l4 : Nat) : Bool :=
  let dst := beNat (sliceB r 0x18 2)
  let port := beNat (sliceB r 0x1A 2)
  ruleFlag r 0 && ruleByte r 0x1C = 1 && ruleByte r 0x1E = inst && (r.getD 3 0).getLsbD sub && (e.getD 0x10 0).getLsbD 0
    && (e.getD 0x11 0).getLsbD sub && ruleFlag r 1 = (e.getD 0x10 0).getLsbD 1 && (decide (dst = 0xFFFF) || decide (dst = n))
    && (ruleByte r 6 = 0 || ruleByte r 6 = l4) && (port = 0 || l4 = 2 || decide (port = beNat (sliceB e 0x16 2)))
/-- A transport address in ASCII. -/
def addrText (ipv6 : Bool) (l : List Byte) : List Byte :=
  if ipv6 then
    let hex := fun (n : Nat) => (Nat.toDigits 16 n).map fun c => BitVec.ofNat 8 c.toNat
    (List.range 8).flatMap fun k => (if k = 0 then [] else asc ":") ++ hex (beNat (sliceB l (2 * k) 2))
  else (List.range 4).flatMap fun k => (if k = 0 then [] else asc ".") ++ decimal 1 (l.getD k 0).toNat
/-- One entry of 1,024 bytes. -/
def discEntry (e : List Byte) (sub inst l4 : Nat) : List Byte :=
  let v6 := (e.getD 0x10 0).getLsbD 1
  let svc := if l4 = 1 then decimal 1 (beNat (sliceB e 0x16 2)) else asc "4791"
  overlay 1024 []
    [(0, byte (if l4 = 1 then 3 else 1)), (1, byte (if v6 then 2 else 1)), (2, byte 2), (4, leBytes 2 sub), (6, leBytes 2 0xFFFF),
     (8, leBytes 2 32), (32, sliceB svc 0 32), (256, sliceB (nqnOf inst) 0 256), (512, sliceB (addrText v6 e) 0 256)]
/-- The discovery log page of an instance. -/
def State.discPage (s : State) (inst : Nat) : List Byte :=
  let l := s.net.addrs.flatMap fun e => (List.range 8).flatMap fun sub => [1, 2].filterMap fun l4 =>
    if s.net.rules.any fun r => admitsAt r.2 e.2 e.1 sub inst l4 then some (discEntry e.2 sub inst l4) else none
  overlay 1024 [] [(8, leBytes 8 l.length)] ++ l.flatten

/-! ## Log pages (R119) -/

/-- Opcodes of the admin commands, and of the I/O commands with opcodes of their own (R119, R121). -/
def adminOps (manager : Bool) : List Nat :=
  [0x02, 0x06, 0x08, 0x09, 0x0A, 0x0C, 0x0D, 0x15, 0x18, 0x7F, 0x80, 0x81, 0x82, 0x84, 0xC1, 0xC2] ++ if manager then [0x10, 0x11] else []
def ioOps : List Nat := [0x00, 0x01, 0x02, 0x04, 0x05, 0x06, 0x08, 0x09, 0x0C, 0x10, 0x12, 0x14, 0x19, 0x1D]
/-- Commands Supported and Effects: CSUPP is given, the effects are free. -/
def effectsPage (base : List Byte) (manager : Bool) : List Byte :=
  let b := sliceB base 0 4096
  let word := fun (n : Nat) (on : Bool) => if on then byte ((b.getD (4 * n) 0).toNat ||| 1) ++ sliceB b (4 * n + 1) 3 else zeros 4
  let table := (List.range 512).flatMap fun n => if n < 256 then word n ((adminOps manager).contains n) else word n (ioOps.contains (n - 256))
  table ++ zeros 2048
/-- Capacity of a reclaim unit's class left in its open QLC band is not part of this page. -/
def fdpConfigs : List Byte :=
  overlay 96 []
    [(0, leBytes 2 0), (4, leBytes 4 96), (16, leBytes 2 80), (18, byte 0x80), (20, leBytes 4 1), (24, leBytes 2 4), (26, leBytes 2 3),
     (32, leBytes 8 2147483648), (40, leBytes 4 0), (80, byte 1), (84, byte 1), (88, byte 1), (92, byte 1)]
/-- SPROG and SSTAT (R409); the times are not reported. -/
def State.sanitizePage (s : State) (i : Nat) : List Byte :=
  let left := fun (e : Erase) => e.total - (e.bands.filter fun b => (KV.get? s.media.bands b).isSome).length
  let prog := match KV.get? s.sec.erases i with
    | some e => if e.step < 4 then 0 else 65535 * left e / max 1 e.total
    | none => 0xFFFF
  overlay 512 [] [(0, leBytes 2 prog), (2, leBytes 2 (KV.getD 0 s.sec.sanitized i)), (4, leBytes 4 4), (8, leBytes 4 0xFFFFFFFF),
    (12, leBytes 4 0xFFFFFFFF), (16, leBytes 4 0xFFFFFFFF), (20, leBytes 4 0xFFFFFFFF), (24, leBytes 4 0xFFFFFFFF), (28, leBytes 4 0xFFFFFFFF)]

/-- A log page of a controller: its bytes, or none where the controller has no such page. `n`: the number of the draw that its free
bytes come from. -/
def State.logData (s : State) (n lid : Nat) (k : Ctrl) : Option (List Byte) :=
  let free := Config.logPage n lid
  let mgr : Bool := k.inst = 0
  if k.disc then (if lid = 0x70 then some (s.discPage k.inst) else none)
  else match lid with
    | 0x01 => some <| overlay 1024 [] <| (List.zip (List.range 16) k.errors).map fun (j, c, q, cid, st, info) =>
        (64 * j, leBytes 8 c ++ leBytes 2 q ++ leBytes 2 cid ++ leBytes 2 (2 * st) ++ sliceB free (64 * j + 14) 18 ++ leBytes 8 info)
    | 0x02 => some <| overlay 512 free
        [(0, byte s.criticalWarning), (1, leBytes 2 s.compositeK), (3, byte s.availPct), (4, byte 10), (5, byte s.pctUsed)]
    | 0x03 => some <| overlay 512 []
        [(0, byte (s.fw.active + 16 * s.fw.pendingSlot)), (8, ((s.slotBundle 1).map (·.fr)).getD (zeros 8)), (16, ((s.slotBundle 2).map (·.fr)).getD (zeros 8))]
    | 0x04 => some (sliceB (k.changedNs.flatMap fun n => leBytes 4 n) 0 4096)
    | 0x05 => some (effectsPage free mgr)
    | 0x09 => some <| overlay 512 free [(0, byte (s.criticalWarning % 2)), (3, byte s.availPct), (4, byte 10), (5, byte s.pctUsed)]
    | 0x0C =>
      let l := ((s.media.nss.filter fun e => e.2.inst = k.inst && k.attached.contains e.2.nsid).map fun e => e.2.nsid).mergeSort
      some <| sliceB free 0 8 ++ leBytes 2 1 ++ zeros 6 ++ leBytes 4 1 ++ leBytes 4 l.length ++ sliceB free 8 8 ++ byte (s.anaOf k) ++ zeros 15
        ++ l.flatMap fun n => leBytes 4 n
    | 0x20 => some fdpConfigs
    | 0x21 => some <| leBytes 2 4 ++ zeros 6 ++ (List.range 4).flatMap fun h =>
        byte (s.media.nss.any fun e => e.2.inst = k.inst && e.2.ruhs.contains h).toNat ++ zeros 7
    | 0x22 => some <| overlay 64 free [(0, leBytes 16 (KV.getD 0 s.media.hostBytes k.inst)), (16, leBytes 16 (KV.getD 0 s.media.mediaBytes k.inst))]
    | 0x23 => some (sliceB free 0 4096)
    | 0x81 => some (s.sanitizePage k.inst)
    | 0xC1 => some (leBytes 4 (s.m2tStatus k.inst) ++ zeros 12 ++ sliceB (s.instOf k.inst).m2tData 0 256)
    | 0xC2 => if mgr then some ((List.range 8).flatMap fun w => leBytes 4 (s.mbiPend w)) else none
    | _ => none

/-! ## Identify (R119, R122, R165, R166, R169, R190) -/

/-- Identify Namespace: the bytes that the spec gives. -/
def NsS.idBytes (n : NsS) : List (Nat × List Byte) :=
  let code := if n.code = 0 then 2 else n.code
  [(0, leBytes 8 n.nsze), (8, leBytes 8 n.nsze), (25, byte 3), (26, byte n.lbaf), (28, byte 0x1F), (29, byte (n.piType + if n.piFirst then 8 else 0)),
   (33, byte 0x19), (36, leBytes 2 255), (42, leBytes 2 0), (44, leBytes 2 255), (64, leBytes 2 (n.grain - 1)), (66, leBytes 2 (n.grain - 1)),
   (72, leBytes 2 127), (92, leBytes 4 1), (102, leBytes 2 1)]
    ++ ((List.range 4).map fun f => (128 + 4 * f, leBytes 2 (lbafMeta f) ++ byte 12)) ++ [(3840, byte code)]
/-- Identify Controller: the bytes that the spec gives. -/
def State.ctrlIdBytes (s : State) (c : Nat) (k : Ctrl) : List (Nat × List Byte) :=
  let mgr : Bool := k.inst = 0
  [(4, sliceB (sliceB Config.serial 0 8 ++ List.replicate 12 (0x20 : Byte)) 0 20), (64, ((s.slotBundle s.fw.active).map (·.fr)).getD (zeros 8)),
   (77, byte 9), (78, leBytes 2 c), (111, byte (if k.disc then 2 else 1)), (256, leBytes 2 (if mgr then 0xF else 0xB)), (258, byte 255), (259, byte 7),
   (260, byte (if mgr then 0x14 else 0)), (262, byte 15), (266, leBytes 2 343), (268, leBytes 2 358), (328, leBytes 4 (1 + 2 ^ 29)), (342, byte 10),
   (520, leBytes 2 0x19F), (525, byte 0), (528, leBytes 2 255), (768, sliceB (nqnOf k.inst) 0 256), (1792, leBytes 4 516)]
/-- NSIDs of an instance that `p` accepts, ascending, above a given one. -/
def State.nsidList (s : State) (inst above : Nat) (p : Nat → Bool) : List Byte :=
  let l := ((s.media.nss.filter fun e => e.2.inst = inst && decide (above < e.2.nsid) && p e.2.nsid).map fun e => e.2.nsid).mergeSort
  sliceB ((l.take 1024).flatMap fun n => leBytes 4 n) 0 4096

/-- Identify data of a controller: a status or 4,096 bytes. -/
def State.identifyData (s : State) (c cns nsid : Nat) (k : Ctrl) : Except Status (List Byte) :=
  let free := Config.identify cns nsid k.inst
  let known := s.nsOf k.inst nsid
  let attached := k.attached.contains nsid
  let ns := fun (f : NsS → List (Nat × List Byte)) =>
    if nsid = 0xFFFFFFFF then .ok (overlay 4096 free [])
    else if nsid = 0 ∨ 256 < nsid then .error St.invalidNs
    else match known with
      | some (_, n) => .ok (if attached then overlay 4096 free (f n) else zeros 4096)
      | none => .ok (zeros 4096)
  if k.disc then (if cns = 1 then .ok (overlay 4096 free (s.ctrlIdBytes c k)) else .error St.invalidField)
  else match cns with
    | 0x00 => ns NsS.idBytes
    | 0x01 => .ok (overlay 4096 free (s.ctrlIdBytes c k))
    | 0x02 => if 0xFFFFFFFE ≤ nsid then .error St.invalidNs else .ok (s.nsidList k.inst nsid k.attached.contains)
    | 0x03 => match known with
      | some (_, n) => .ok (overlay 4096 free [(0, [0x04, 0x01, 0x00, 0x00] ++ byte n.kv.toNat)])
      | none => .error St.invalidNs
    | 0x05 => ns fun _ => []
    | 0x06 => .ok (overlay 4096 free [])
    | 0x08 => ns fun _ => [(2, byte 0), (4, leBytes 4 1), (12, leBytes 2 1)]
    | 0x1C => .ok (overlay 4096 free [(0, leBytes 8 0x1B)])
    | _ => .error St.invalidField

/-! ## Attestation (R415) -/

/-- The report for an instance with a nonce. -/
def State.attestReport (s : State) (i : Nat) (nonce : List Byte) : List Byte :=
  let m := leBytes 4 0xA77E5001 ++ leBytes 2 1 ++ leBytes 2 6 ++ leBytes 4 608 ++ byte i ++ byte s.mode.mode.code ++ leBytes 2 (s.gen i)
    ++ sliceB nonce 0 32 ++ leBytes 4 s.mode.startNo ++ zeros 4 ++ leBytes 8 s.timeNs ++ sliceB Config.serial 0 8
    ++ (List.range 5).flatMap (fun c => leBytes 8 (s.sec.rollback.getD c 0)) ++ leBytes 4 (s.sec.programmed % 16 + 16 * (s.sec.revoked % 16)) ++ zeros 12
    ++ (List.range 5).flatMap (fun c =>
      let mr := Config.measure (8 * s.fw.active + c)
      let by_ := if c = 2 then s.sec.active else (mr.getD 0 0).toNat % 4
      let svn := (((if s.fw.active = 1 then s.fw.slot1 else s.fw.slot2).map (·.svns)).getD []).getD c 0
      byte c ++ byte by_ ++ zeros 6 ++ leBytes 8 svn ++ sliceB mr 1 48)
    ++ (byte 5 ++ byte 0xFF ++ zeros 6 ++ zeros 8
      ++ sliceB (Config.sha384 ((List.range 4).flatMap (fun k => sliceB (Config.fuseDigest k) 0 48) ++ byte (s.sec.revoked % 16))) 0 48)
  m ++ sliceB (Config.identitySign (Config.sha384 m)) 0 96

end Sys2Proof.Machine
end

