-- ==== Sys2Proof/Machine/AdminOps.lean ====
section
/-! DEFINITION. What the admin commands do: log pages, features, Abort, namespaces, firmware (R119, R126, R131, R149, R165 to R167, R190,
R408 to R414, R430 to R433). -/

namespace Sys2Proof.Machine

/-! ## Log pages (R119, R160, R426) -/

/-- A log page has been read with RAE = 0: its event is armed again, for the instance where it is an instance's. -/
def State.rearm (s : State) (c inst lid : Nat) : State :=
  let shared : Bool := lid = 0xC0 || lid = 0xC1 || lid = 0xC2 || lid = 0x81
  let s := s.modCmd fun m => { m with ctrls := m.ctrls.map fun e =>
    if e.1 = c ∨ (shared ∧ e.2.inst = inst ∧ ! e.2.disc) then
      (e.1, { e.2 with aerMask := e.2.aerMask.filter (· ≠ lid), changedNs := if lid = 4 ∧ e.1 = c then [] else e.2.changedNs })
    else e }
  s.deliverAen inst
/-- Get Log Page. -/
def State.sendLog (s : State) (cap : Cap) (k : Ctrl) (lid off len : Nat) (rae : Bool) : State :=
  let done := fun (s : State) (l : List Byte) =>
    let s := (s.dataCap cap l).postCap cap St.ok
    if rae then s else s.rearm cap.ctrl k.inst lid
  let badLen : Bool := off % 4 ≠ 0 || len % 4 ≠ 0 || len = 0 || decide (2 ^ 21 < len)
  if lid = 0xC0 ∧ k.inst = 0 ∧ ! k.disc then
    if badLen ∨ off % 64 ≠ 0 then s.postCap cap St.invalidField else done s (s.logPageC0 off len)
  else
    let (n, s) := s.draw
    match s.logData n lid k with
    | none => s.postCap cap St.badLogPage
    | some l => if badLen ∨ l.length < off then s.postCap cap St.invalidField else done s (sliceB l off len)

/-! ## Abort (R130, R131) -/

/-- An Abort that loses, or finds nothing. -/
def State.notAborted (s : State) (cap : Cap) : State := (s.bump Pg.CMD Fd.CMD_CNT_COUNT 2).postCap cap St.ok 1
/-- Abort: the target's context is tested and set, or an outstanding Asynchronous Event Request ends. -/
def State.abort (s : State) (cap : Cap) (sqid : Nat) (cid : BitVec 16) (k : Ctrl) : State :=
  let won := fun (s : State) => (s.bump Pg.CMD Fd.CMD_CNT_COUNT 1).postCap cap St.ok 0
  if sqid = 0 ∧ k.aers.contains cid then
    won ((s.modCtrl cap.ctrl fun k => { k with aers := k.aers.erase cid }).post cap.ctrl 0 cid St.abortRequested)
  else
    match s.cmd.ctxs.find? fun e => e.2.ctrl = cap.ctrl && e.2.qid = sqid && e.2.cid = cid && ! s.stale e.2 with
    | none => s.notAborted cap
    | some (c, x) => if x.state = .admitted ∨ x.state = .issued then won (s.cut c St.abortRequested) else s.notAborted cap

/-! ## Features (R119, R126, R190, R422) -/

/-- Features that the module has. -/
def featureIds : List Nat := [0x01, 0x02, 0x04, 0x07, 0x08, 0x0A, 0x0B, 0x0F, 0x16, 0x1D, 0xC1]
def QClass.code : QClass → Nat
  | .urgent => 0 | .high => 1 | .medium => 2 | .low => 3
def QClass.ofCode (n : Nat) : QClass :=
  match n % 4 with
  | 0 => .urgent | 1 => .high | 2 => .medium | _ => .low
/-- A feature's default. -/
def State.featureDefault (s : State) (fid : Nat) : Nat :=
  match fid with
  | 0x07 => 63 + 63 * 65536
  | 0x0F => 1000 * s.cfg Pg.CMD Fd.CMD_KATO_MAX_S
  | 0xC1 => 2
  | _ => 0
/-- A feature's present value; none where the queue that it names does not exist. -/
def State.featureNow (s : State) (k : Ctrl) (fid w : Nat) : Option Nat :=
  match fid with
  | 0x01 => some k.arb
  | 0x04 => some (if bitsOf w 21 16 = 0 then s.sens.tempThreshold else 0)
  | 0x0B => some k.aerCfg
  | 0x0F => some k.katoMs
  | 0x1D => some (s.inst.fdpOn.contains k.inst).toNat
  | 0xC1 => (KV.get? k.queues (w % 65536)).map fun q => q.cls.code
  | _ => some (KV.getD (s.featureDefault fid) k.features fid)
/-- Get Features. -/
def State.getFeature (s : State) (cap : Cap) (k : Ctrl) (fid w sel : Nat) : State :=
  if ! featureIds.contains fid then s.postCap cap St.invalidField
  else match sel, s.featureNow k fid w with
    | _, none => s.postCap cap St.invalidField
    | 0, some v => s.postCap cap St.ok v
    | 1, _ => s.postCap cap St.ok (s.featureDefault fid)
    | 2, _ => s.postCap cap St.ok (s.featureDefault fid)
    | 3, _ => s.postCap cap St.ok (if fid = 0x04 ∧ k.inst ≠ 0 then 0 else 4)
    | _, _ => s.postCap cap St.invalidField
/-- Set Features, SV = 0. -/
def State.setFeature (s : State) (cap : Cap) (k : Ctrl) (fid w w12 : Nat) : State :=
  let ok := fun (s : State) => s.postCap cap St.ok
  let bad := s.postCap cap St.invalidField
  let keep := fun (v : Nat) => s.modCtrl cap.ctrl fun k => { k with features := KV.put k.features fid v }
  match fid with
  | 0x01 => ok (s.modCtrl cap.ctrl fun k => { k with arb := w })
  | 0x02 => if w % 32 ≠ 0 then bad else ok (keep w)
  | 0x04 =>
    if k.inst ≠ 0 then s.postCap cap St.notChangeable
    else if bitsOf w 21 16 = 0 then ok ((s.modSens fun t => { t with tempThreshold := w % 65536 }).tempTrack)
    else bad
  | 0x07 =>
    let lo := w % 65536
    let hi := w / 65536
    if lo = 0xFFFF ∨ hi = 0xFFFF then bad
    else
      let v := min lo 63 + 65536 * min hi 63
      (keep v).postCap cap St.ok v
  | 0x08 => ok s
  | 0x0A => ok (keep (w % 2))
  | 0x0B => ok (s.modCtrl cap.ctrl fun k => { k with aerCfg := w })
  | 0x0F =>
    let ms := s.katoOf w
    ok (s.modCtrl cap.ctrl fun k => { k with katoMs := ms, kaDue := some (s.now + msec ms) })
  | 0x16 => ok (keep w)
  | 0x1D =>
    if w % 65536 ≠ 1 ∨ bitsOf w12 15 8 ≠ 0 then bad
    else if ! (s.nssOf k.inst).isEmpty then s.postCap cap St.sequence
    else ok (s.modInst fun m => { m with fdpOn := if w12.testBit 0 then insNat k.inst m.fdpOn else delNat k.inst m.fdpOn })
  | 0xC1 =>
    let q := w % 65536
    if (KV.get? k.queues q).isNone then bad
    else ok (s.modCtrl cap.ctrl fun k =>
      { k with queues := KV.adjust k.queues q fun x => { x with clsNext := QClass.ofCode (bitsOf w 17 16) } })
  | _ => bad

/-! ## Namespaces (R149, R165 to R167, R190, R361, R362, R408) -/

/-- Bytes of logical capacity that an instance's namespaces hold, and its quota. -/
def State.nsBytes (s : State) (i : Nat) : Nat := (s.nssOf i).foldl (fun n e => n + 4096 * e.2.nsze) 0
def State.quotaBytes (s : State) (i : Nat) : Nat := 1000000000 * KV.getD 6250 s.inst.cfgCap i
/-- The fields of a create. -/
def createFieldsOk (nsze lbaf grain piType : Nat) (ruh : List Nat) : Bool :=
  nsze ≠ 0 && decide (grain ≤ 3) && decide (piType ≤ 3) && (piType = 0 || lbaf ≠ 0) && decide (ruh.length ≤ 4) && ruh.all (decide <| · < 4)
/-- Create: the fields, the identifiers, the capacity, then the key. -/
def State.createNs (s : State) (cap : Cap) (k : Ctrl) (nsze lbaf grain piType : Nat) (piFirst kv : Bool) (ruh : List Nat) : State :=
  let own := s.nssOf k.inst
  if 3 < lbaf then s.postCap cap St.badFormat
  else if ! createFieldsOk nsze lbaf grain piType ruh then s.postCap cap St.invalidField
  else if s.quotaBytes k.inst < s.nsBytes k.inst + 4096 * nsze ∧ own.length < 256 ∧ s.media.nss.length < 4096 then s.postCap cap St.nsCapacity
  else
    match (List.range 4096).find? fun n => (KV.get? s.media.nss n).isNone, (List.range 256).find? fun n => own.all fun e => e.2.nsid ≠ n + 1 with
    | some nsx, some id =>
      if s.sec.trngFailed then s.postCap cap St.internal
      else
        let (x0, s) := if kv then s.draw else (0, s)
        let (x1, s) := if kv then s.draw else (0, s)
        let fdp := s.inst.fdpOn.contains k.inst
        let n : NsS :=
          { inst := k.inst, nsid := id + 1, nsze := nsze, lbaf := lbaf, grain := if grain = 1 then 1 else if grain = 3 then 16 else 4, code := grain
            piType := piType, piFirst := piFirst, kv := kv, kx0 := x0 % 2 ^ 64, kx1 := x1 % 2 ^ 64
            ruhs := if ! fdp then [] else if ruh = [] then [0, 1, 2, 3] else ruh
            pendingHandles := [], keySlot := 0, keyGen := 0, keyLost := false, sanitizing := false }
        ((s.modMedia fun m => { m with nss := KV.put m.nss nsx n }).newNsKey nsx).postCap cap St.ok (id + 1)
    | _, _ => s.postCap cap St.nsIdUnavailable
/-- The attributes of a namespace changed: the controllers concerned list it and are told, if they asked. -/
def State.nsChanged (s : State) (ctrls : List Nat) (nsid : Nat) : State :=
  ctrls.foldl (fun s c => (s.modCtrl c fun k => { k with changedNs := insNat nsid k.changedNs }).aenCtrl c 8 0x04 (2 + 0x04 * 65536)) s
/-- Controllers of an instance to which a namespace is attached. -/
def State.attachedTo (s : State) (i nsid : Nat) : List Nat := ((s.ctrlsOf i).filter fun c => c.2.attached.contains nsid).map Prod.fst
/-- Delete: one namespace of the instance, or every one. -/
def State.deleteCmd (s : State) (cap : Cap) (k : Ctrl) (nsid : Nat) : State :=
  let l := if nsid = 0xFFFFFFFF then s.nssOf k.inst else (s.nssOf k.inst).filter fun e => e.2.nsid = nsid
  if l = [] ∧ nsid ≠ 0xFFFFFFFF then s.postCap cap St.invalidNs
  else if l.any (·.2.sanitizing) then s.postCap cap St.sanitizing
  else
    let s := l.foldl (fun s e =>
      let at_ := s.attachedTo k.inst e.2.nsid
      (s.deleteNs e.1).nsChanged (at_.filter (· ≠ cap.ctrl)) e.2.nsid) s
    s.postCap cap St.ok
/-- Attachment: controllers of the issuing instance alone. -/
def State.attachCmd (s : State) (cap : Cap) (k : Ctrl) (nsid : Nat) (on : Bool) (ctrls : List Nat) : State :=
  let own := s.ctrlsOf k.inst
  let at_ := s.attachedTo k.inst nsid
  if (s.nsOf k.inst nsid).isNone then s.postCap cap St.invalidNs
  else if ctrls = [] ∨ ctrls.any fun c => own.all fun e => e.1 ≠ c then s.postCap cap St.ctrlListInvalid
  else if on ∧ ctrls.any at_.contains then s.postCap cap St.nsAttached
  else if ! on ∧ ctrls.any fun c => ! at_.contains c then s.postCap cap St.nsNotAttached
  else
    let set := fun (l : List Nat) => if on then insNat nsid l else delNat nsid l
    let s := ctrls.foldl (fun s c =>
      match s.ctrl? c with
      | none => s
      | some x => (s.modCtrl c fun x => { x with attached := set x.attached }).modCmd fun m =>
          { m with attach := KV.put m.attach (256 * x.host + x.inst) (set x.attached) }) s
    (s.nsChanged ctrls nsid).postCap cap St.ok
/-- Format NVM. Secure Erase Setting 0 empties the namespace under its key; 2 is a cryptographic erase of it. -/
def State.formatCmd (s : State) (cap : Cap) (k : Ctrl) (op : Instr) (nsid lbaf ses piType : Nat) (piFirst : Bool) : State :=
  match s.nsOf k.inst nsid with
  | none => s.postCap cap St.invalidNs
  | some (nsx, n) =>
    if 3 < lbaf then s.postCap cap St.badFormat
    else if (ses ≠ 0 ∧ ses ≠ 2) ∨ 3 < piType ∨ (piType ≠ 0 ∧ lbaf = 0) then s.postCap cap St.invalidField
    else if n.sanitizing ∨ (KV.get? s.sec.erases k.inst).isSome then s.postCap cap St.sanitizing
    else
      let told := fun (s : State) => s.nsChanged ((s.attachedTo k.inst nsid).filter (· ≠ cap.ctrl)) nsid
      if ses = 0 then
        if s.startedOn [nsx] then s.postCap cap St.sequence
        else (told (((s.cutNs [nsx] (fun _ => true) St.abortRequested).emptyNs nsx).setFormat nsx lbaf piType piFirst)).postCap cap St.ok
      else
        let (c, s) := s.newCtx cap k op 0 .committed
        (told s).startErase k.inst [nsx] false (.ctx c)
/-- Sanitize: a crypto erase of every namespace of the instance. -/
def State.sanitizeCmd (s : State) (cap : Cap) (k : Ctrl) (action : Nat) (noDealloc : Bool) : State :=
  if action ≠ 4 ∨ noDealloc then s.postCap cap St.invalidField
  else if (KV.get? s.sec.erases k.inst).isSome then s.postCap cap St.sanitizing
  else
    let s := s.modSec fun m => { m with sanitized := KV.put m.sanitized k.inst 2 }
    (s.postCap cap St.ok).startErase k.inst ((s.nssOf k.inst).map Prod.fst) false .nobody

/-! ## Security Send and Receive (R414) -/

def State.secureSend (s : State) (cap : Cap) (secp spsp : Nat) (data : List Byte) : State :=
  if secp = 0xF1 ∧ spsp = 1 ∧ data.length = 32 then
    (s.modSec fun m => { m with nonces := KV.put m.nonces cap.ctrl data }).postCap cap St.ok
  else s.postCap cap St.invalidField
def State.secureReceive (s : State) (cap : Cap) (k : Ctrl) (secp spsp alloc : Nat) : State :=
  let give := fun (s : State) (l : List Byte) => (s.dataCap cap (l.take alloc)).postCap cap St.ok
  if secp = 0 ∧ spsp = 0 then give s (zeros 6 ++ [0x00, 0x02, 0x00, 0xF1])
  else if secp = 0xF1 ∧ spsp = 1 then
    match KV.get? s.sec.nonces cap.ctrl with
    | none => s.postCap cap St.sequence
    | some nonce => give (s.modSec fun m => { m with nonces := KV.del m.nonces cap.ctrl }) (s.attestReport k.inst nonce)
  else if secp = 0xF1 ∧ spsp = 2 then give s (leBytes 4 Config.certificates.length ++ Config.certificates)
  else s.postCap cap St.invalidField

end Sys2Proof.Machine
end

