-- ==== Sys2Proof/Machine/FirmOps.lean ====
section
/-! DEFINITION. Firmware bundles, their checks and Firmware Commit (R136, R410 to R412, R430 to R433). -/

namespace Sys2Proof.Machine

/-- The fuse slot of a vendor key that passes R410. -/
def State.fuseSlot (s : State) (key : List Byte) : Option Nat := (List.range 4).find? fun n => s.vendorKeyOk n key
/-- Bytes that end in a 96-byte signature block by a key. -/
def signedBy (key l : List Byte) : Bool :=
  let n := l.length - 96
  96 ≤ l.length && Config.ecdsaOk key (Config.sha384 (l.take n)) (sliceB l n 96)

/-- The entry IMAGE[k] of a bundle: class, offset, length. -/
def bundleImage (l : List Byte) (k : Nat) : Nat × Nat × Nat := (u8 l (0x20 + 16 * k), u32 l (0x24 + 16 * k), u32 l (0x28 + 16 * k))
/-- A firmware image of a class (R411, R412). -/
def State.firmImageOk (s : State) (cls : Nat) (m : List Byte) : Bool :=
  let key := sliceB m 0x20 97
  u32 m 0 = 0x7A4BF1A5 && u8 m 4 = cls && isZero m 5 3 && u32 m 0x10 = m.length && m.length % 16 = 0 && isZero m 0x14 12 && isZero m 0x81 31
    && decide (0x100 ≤ m.length) && (s.fuseSlot key).isSome && signedBy key m && decide (s.sec.rollback.getD cls 0 ≤ u64 m 8)
/-- A directive of a bundle: REVOKE of a fuse slot, or MAJOR of a page type. -/
def directive (l : List Byte) (k : Nat) : Option (Sum Nat (Nat × Nat)) :=
  let d := sliceB l (0x100 + 32 * k) 32
  match u8 d 0 with
  | 1 => if u8 d 1 < 4 && isZero d 2 30 then some (.inl (u8 d 1)) else none
  | 2 => if isZero d 1 1 && isZero d 5 27 then some (.inr (u16 d 2, u8 d 4)) else none
  | _ => none
/-- The header of a bundle (R430). -/
def bundleHeaderOk (l : List Byte) : Bool :=
  let n := u16 l 6
  u32 l 0 = 0x7A4BB0D1 && u16 l 4 = 1 && decide (n ≤ 16) && u32 l 0x10 = l.length && l.length % 4096 = 0 && decide (l.length ≤ 2 ^ 26)
    && decide (0x100 + 32 * n + 96 ≤ l.length) && isZero l 0x14 12 && isZero l 0xD1 47
    && (List.range n).all (fun k => (directive l k).isSome)
    && (List.range 5).all fun c => (List.range 5).any (fun k => (bundleImage l k).1 = c)
    && (List.range 5).all fun k =>
      let (_, off, len) := bundleImage l k
      isZero l (0x21 + 16 * k) 3 && isZero l (0x2C + 16 * k) 4 && decide (0x100 + 32 * n ≤ off) && decide (off + len + 96 ≤ l.length)
/-- The image of a class in a bundle. -/
def imageOf (l : List Byte) (cls : Nat) : List Byte :=
  match ((List.range 5).map (bundleImage l)).find? fun e => e.1 = cls with
  | some (_, off, len) => sliceB l off len
  | none => []
/-- A bundle passes check 3 of R431: what its slot then holds. -/
def State.checkBundle (s : State) (l : List Byte) : Option Bundle :=
  let key := sliceB l 0x70 97
  match s.fuseSlot key with
  | none => none
  | some slot =>
    if bundleHeaderOk l && signedBy key l && (List.range 5).all fun c => s.firmImageOk c (imageOf l c) then
      let ds := (List.range (u16 l 6)).filterMap (directive l)
      some
        { fr := sliceB l 8 8, svns := (List.range 5).map fun c => u64 (imageOf l c) 8, keySlot := slot
          revokes := ds.filterMap fun d => match d with | .inl k => some k | .inr _ => none
          majors := ds.filterMap fun d => match d with | .inl _ => none | .inr m => some m }
    else none
/-- The downloaded bundle is checked, in R431's order. -/
def State.downloaded (s : State) : Except Status Bundle :=
  let len := leNat (s.fw.staging.readBytes 0x10 4)
  let n := cdiv len 4096
  if (s.fw.pieces.filter (· < n)).length < n then .error St.underrun
  else if s.fw.pieces.any (n ≤ ·) then .error St.overrun
  else match s.checkBundle (s.fw.staging.readBytes 0 len) with
    | some b => .ok b
    | none => .error St.badFirmware
/-- A checked bundle is written whole into its slot; the staging area is emptied. -/
def State.writeSlot (s : State) (slot : Nat) (b : Bundle) : State :=
  let s := s.modFw fun f =>
    { f with staging := [], pieces := [], slot1 := if slot = 1 then some b else f.slot1, slot2 := if slot = 2 then some b else f.slot2 }
  s.logEv Pg.DEV 0x1105 .info 0 (BitVec.ofNat 8 slot :: b.fr)
/-- The commit action follows the checks (R432, R433). -/
def State.commitAction (s : State) (cap : Cap) (k : Ctrl) (op : Instr) (action slot : Nat) : State :=
  match action with
  | 0 => s.postCap cap St.ok
  | 3 =>
    let (c, s) := s.newCtx cap k op 0 .committed
    s.startActivation (some c) slot
  | _ => (s.modFw fun f => { f with pendingSlot := slot }).postCap cap St.ok
/-- Firmware Commit. -/
def State.commitFirmware (s : State) (cap : Cap) (k : Ctrl) (op : Instr) (action slot : Nat) : State :=
  if ! s.serving then s.postCap cap St.sequence
  else if 3 < action then s.postCap cap St.invalidField
  else if slot ≠ 1 ∧ slot ≠ 2 then s.postCap cap St.badSlot
  else if s.cmd.act ≠ .idle then s.postCap cap St.actProhibited
  else if action = 2 then
    match s.slotBundle slot with
    | none => s.postCap cap St.badSlot
    | some b => if s.bundlePasses b then s.commitAction cap k op 2 slot else s.postCap cap St.badFirmware
  else
    match s.downloaded with
    | .error st => s.postCap cap st
    | .ok b => (s.writeSlot slot b).commitAction cap k op action slot
/-- Firmware Image Download. -/
def State.downloadCmd (s : State) (cap : Cap) (k : Ctrl) (op : Instr) (off declared : Nat) (data : List Byte) : State :=
  if off % 4096 ≠ 0 ∨ declared % 4096 ≠ 0 ∨ declared = 0 ∨ 2 ^ 21 < declared ∨ 2 ^ 26 < off + declared then s.postCap cap St.invalidField
  else
    let (c, s) := s.newCtx cap k op declared .admitted
    s.inCapsule c declared data

end Sys2Proof.Machine
end

