-- ==== Sys2Proof/Machine/AdminEvents.lean ====
section
/-! DEFINITION. Admin commands (R119, R126, R131, R149, R160, R165 to R167, R408, R409, R414, R431). -/

namespace Sys2Proof.Machine

/-- R112, R119, R160, R426. -/
def execGetLogPage (cap : Cap) (lid : BitVec 8) (offset length : Nat) (rae : Bool) (s : State) : Res :=
  .next <| match s.adminGate cap (.getLogPage cap lid offset length rae) true false with
    | .error s => s
    | .ok (k, s) => s.sendLog cap k lid.toNat offset length rae
/-- R119. -/
def execIdentify (cap : Cap) (cns : BitVec 8) (nsid : Nat) (s : State) : Res :=
  .next <| match s.adminGate cap (.identify cap cns nsid) true false with
    | .error s => s
    | .ok (k, s) => match s.identifyData cap.ctrl cns.toNat nsid k with
      | .error st => s.postCap cap st
      | .ok l => (s.dataCap cap l).postCap cap St.ok
/-- R114. -/
def execKeepAlive (cap : Cap) (s : State) : Res :=
  .next <| match s.adminGate cap (.keepAlive cap) true false with
    | .error s => s
    | .ok (_, s) => s.postCap cap St.ok
/-- R131. -/
def execAbort (cap : Cap) (sqid : Nat) (cid : BitVec 16) (s : State) : Res :=
  .next <| s.admin cap (.abort cap sqid cid) false fun k s => s.abort cap sqid cid k
/-- R126. SV = 1 is refused before anything else. -/
def execSetFeatures (cap : Cap) (fid : BitVec 8) (cdw11 cdw12 : Word) (sv : Bool) (s : State) : Res :=
  .next <| s.admin cap (.setFeatures cap fid cdw11 cdw12 sv) false fun k s =>
    if sv then s.postCap cap St.notSaveable else s.setFeature cap k fid.toNat cdw11.toNat cdw12.toNat
/-- R119, R126. -/
def execGetFeatures (cap : Cap) (fid : BitVec 8) (cdw11 : Word) (sel : BitVec 3) (s : State) : Res :=
  .next <| s.admin cap (.getFeatures cap fid cdw11 sel) false fun k s => s.getFeature cap k fid.toNat cdw11.toNat sel.toNat
/-- R119, R160. Up to eight are outstanding. -/
def execAsynchronousEventRequest (cap : Cap) (s : State) : Res :=
  .next <| s.admin cap (.asynchronousEventRequest cap) false fun k s =>
    if 8 ≤ k.aers.length then s.postCap cap St.aerLimit
    else (s.modCtrl cap.ctrl fun k => { k with aers := k.aers ++ [cap.cid] }).deliverAen k.inst
/-- R149, R166, R167, R190, R408. -/
def execNamespaceManagement (cap : Cap) (create : Bool) (nsid nsze : Nat) (lbaf grain : BitVec 8) (piType : Nat) (piFirst kv : Bool) (ruh : List Nat)
    (s : State) : Res :=
  .next <| s.admin cap (.namespaceManagement cap create nsid nsze lbaf grain piType piFirst kv ruh) false fun k s =>
    if create then s.createNs cap k nsze lbaf.toNat grain.toNat piType piFirst kv ruh else s.deleteCmd cap k nsid
/-- R119. -/
def execNamespaceAttachment (cap : Cap) (nsid : Nat) (attach : Bool) (ctrls : List Nat) (s : State) : Res :=
  .next <| s.admin cap (.namespaceAttachment cap nsid attach ctrls) false fun k s => s.attachCmd cap k nsid attach ctrls
/-- R119, R408, R409. -/
def execFormatNvm (cap : Cap) (nsid : Nat) (lbaf : BitVec 8) (ses : BitVec 3) (piType : Nat) (piFirst : Bool) (s : State) : Res :=
  .next <| s.admin cap (.formatNvm cap nsid lbaf ses piType piFirst) false fun k s =>
    s.formatCmd cap k (.formatNvm cap nsid lbaf ses piType piFirst) nsid lbaf.toNat ses.toNat piType piFirst
/-- R409. -/
def execSanitize (cap : Cap) (action : BitVec 3) (noDealloc : Bool) (s : State) : Res :=
  .next <| s.admin cap (.sanitize cap action noDealloc) false fun k s => s.sanitizeCmd cap k action.toNat noDealloc
/-- R414. -/
def execSecuritySend (cap : Cap) (secp : BitVec 8) (spsp : BitVec 16) (data : List Byte) (s : State) : Res :=
  .next <| s.admin cap (.securitySend cap secp spsp data) false fun _ s => s.secureSend cap secp.toNat spsp.toNat data
/-- R414, R415. -/
def execSecurityReceive (cap : Cap) (secp : BitVec 8) (spsp : BitVec 16) (alloc : Nat) (s : State) : Res :=
  .next <| s.admin cap (.securityReceive cap secp spsp alloc) false fun k s => s.secureReceive cap k secp.toNat spsp.toNat alloc
/-- R119, R133, R431. -/
def execFirmwareImageDownload (cap : Cap) (offset declared : Nat) (data : List Byte) (s : State) : Res :=
  .next <| s.admin cap (.firmwareImageDownload cap offset declared data) true fun k s =>
    s.downloadCmd cap k (.firmwareImageDownload cap offset declared data) offset declared data
/-- R136, R431 to R433. -/
def execFirmwareCommit (cap : Cap) (action slot : BitVec 3) (s : State) : Res :=
  .next <| s.admin cap (.firmwareCommit cap action slot) true fun k s =>
    s.commitFirmware cap k (.firmwareCommit cap action slot) action.toNat slot.toNat
/-- R119. An opcode that the queue's kind of command does not have. -/
def execUnsupportedOpcode (cap : Cap) (opcode : BitVec 8) (s : State) : Res :=
  .next <|
    if cap.qid = 0 then
      match s.adminGate cap (.unsupportedOpcode cap opcode) true false with
      | .error s => s
      | .ok (_, s) => s.postCap cap St.invalidOpcode
    else s.ioQueued cap (.unsupportedOpcode cap opcode) fun s => s.postCap cap St.invalidOpcode

end Sys2Proof.Machine
end

