-- ==== Sys2Proof/Machine/DigEvents.lean ====
section
/-! DEFINITION. The commands of the direct digest session and of the key store (R396, R399 to R401, R406, R416). -/

namespace Sys2Proof.Machine

/-- A write of REQ_CMD with an operation and GO. -/
def State.digWrite (s : State) (path : Path) (q op : Nat) (cmd : Word) : State :=
  s.viaPath path (Pg.DIG q) Fd.DIG_REQ_CMD_OP.off fun s => s.digCmd q (setBits (setBits cmd.toNat 3 0 op) 31 31 1)

/-- R396, R400. -/
def execDigOpen (path : Path) (quad : Quad) (cmd : Word) (s : State) : Res := .next (s.digWrite path quad.ix 1 cmd)
/-- R400. -/
def execDigUpdate (path : Path) (quad : Quad) (cmd : Word) (s : State) : Res := .next (s.digWrite path quad.ix 2 cmd)
/-- R400, R401. -/
def execDigFinal (path : Path) (quad : Quad) (cmd : Word) (s : State) : Res := .next (s.digWrite path quad.ix 3 cmd)
/-- R400, R401. -/
def execDigOneshot (path : Path) (quad : Quad) (cmd : Word) (s : State) : Res := .next (s.digWrite path quad.ix 4 cmd)
/-- R400, R401. -/
def execDigHkdf (path : Path) (quad : Quad) (cmd : Word) (s : State) : Res := .next (s.digWrite path quad.ix 5 cmd)
/-- R400. -/
def execDigClose (path : Path) (quad : Quad) (cmd : Word) (s : State) : Res := .next (s.digWrite path quad.ix 6 cmd)

/-- R396. A waiting OPEN or ONESHOT takes a context when no request before it can. -/
def execDigestContextGrant (quad : Quad) (s : State) : Res :=
  .next <|
    let q := quad.ix
    let d := s.digQ q
    match d.req, d.freeCtx 0 with
    | some r, some c =>
      if r.due.isNone ∨ d.waits.find? (fun w => (d.freeCtx w.1).isSome) ≠ some digDirect then s
      else (s.digGranted q c r).engRun q 4
    | _, _ => s

/-- R396. -/
def execEngineBusyTimeout (quad : Quad) (s : State) : Res :=
  .next <|
    let q := quad.ix
    match (s.digQ q).req.bind (·.due) with
    | none => s
    | some t => (((s.reach t).bump (Pg.DIG q) Fd.DIG_CNT_COUNT 3).setEv (Pg.DIG q) 12).digFail q 1 |>.engRun q 4

/-- R399, R400, R401. The last byte is absorbed. -/
def execDigestRequestDone (quad : Quad) (eqFault neqFault : Bool) (s : State) : Res :=
  .next <|
    let q := quad.ix
    let d := s.digQ q
    match d.req with
    | none => s
    | some r =>
      if r.due.isSome then s
      else if r.op = 5 then s.digHkdfEnd q r
      else match d.session.bind fun c => (KV.get? d.ctxs c).map fun x => (c, x) with
        | none => s
        | some (c, x) =>
          if ! d.onUnit.any fun u => u.2 = c then s
          else if r.op = 2 then
            ((s.modDigQ q fun d => { d with onUnit := d.onUnit.filter fun u => u.2 ≠ c }).digEnd q 0 false false 0 []).engRun q 4
          else s.digFinal q r x eqFault neqFault

/-- R400. -/
def execSessionIdleTimeout (quad : Quad) (s : State) : Res :=
  .next <|
    let q := quad.ix
    let d := s.digQ q
    if d.session.isNone ∨ d.req.isSome then s
    else
      let s := s.reach (d.idleAt + secs (s.cfg (Pg.DIG q) Fd.DIG_REQ_CTRL_IDLE_S))
      ((s.digDrop q).modDigQ q fun d => { d with idleClosed := true }).bump (Pg.DIG q) Fd.DIG_CNT_COUNT 7

/-! ## Keys (R406, R416) -/

/-- A write of KEY_OP with an operation and GO. -/
def State.keyWrite (s : State) (path : Path) (op wrapSlot : Nat) (trngOk : Bool) : State :=
  s.viaPath path Pg.SEC Fd.SEC_KEY_OP_OP.off fun s => s.keyOp op wrapSlot trngOk
/-- R406. -/
def execKeyLoad (path : Path) (s : State) : Res := .next (s.keyWrite path 1 0 true)
/-- R406. -/
def execKeyLoadWrapped (path : Path) (wrapSlot : BitVec 10) (s : State) : Res := .next (s.keyWrite path 2 wrapSlot.toNat true)
/-- R406. -/
def execKeyGenerate (path : Path) (trngOk : Bool) (s : State) : Res := .next (s.keyWrite path 3 0 trngOk)
/-- R406. -/
def execKeyDestroy (path : Path) (s : State) : Res := .next (s.keyWrite path 4 0 true)

/-- R416. -/
def execTrngHealthFailure (s : State) : Res :=
  .next <| if ! s.isUp Dom.SEC ∨ s.sec.trngFailed then s
    else (s.modSec fun m => { m with trngFailed := true }).logEv Pg.SEC 0x1006 .critical

end Sys2Proof.Machine
end

