-- ==== Sys2Proof/Machine/HoldEvents.lean ====
section
/-! DEFINITION. The hold-up controller's events: the window, measurements, its faults, the flush (R256 to R266). -/

namespace Sys2Proof.Machine

/-- R258. -/
def execWindowUpdate (mv : BitVec 16) (s : State) : Res :=
  .next <| if s.mode.mode = .off then s
    else (s.modHold fun h => { h with vMv := mv.toNat, noCharge := h.noCharge && decide (mv.toNat < 54000) }).chargeNow.publishW
/-- R256. One that falls due while a measurement runs is taken by it. -/
def execHoldupMeasurementDue (s : State) : Res :=
  .next <| match s.hold.measDue with
    | none => s
    | some d =>
      if s.mode.mode = .off ∨ s.inHoldup then s
      else ((s.reach d).modHold fun h => { h with measDue := some (d + secs 600) }).startMeas .discharge false
/-- R256. -/
def execMeasGo (path : Path) (s : State) : Res := .next (s.viaPath path Pg.HOLD 0x40C fun s => s.startMeas .discharge false)

/-- The HC's method of SEP has ended with its measurement. -/
def State.sepEnd (s : State) (ok : Bool) : State :=
  s.methodEnd { noEnd with ok := ok, failCode := if ok then 0 else BitVec.ofNat 16 (s.page Pg.HOLD).errCode, failPage := 0x00F0 }
/-- R256. -/
def execMeasurementRunDone (us : Nat) (s : State) : Res :=
  .next <| match s.hold.meas with
    | none => s
    | some r =>
      match s.measRun r us with
      | (none, s) => s
      | (some ok, s) => if r.sep then s.sepEnd ok else s
/-- R256, R460. -/
def execMeasurementRunTimeout (s : State) : Res :=
  .next <| match s.hold.meas with
    | none => s
    | some r =>
      let s := (s.setErr Pg.HOLD 0x0101 (r.runs.length % 16 + 16 * r.method.code)).measBad r
      if r.sep then s.sepEnd false else s
/-- R257; at JAN, the method fails with PRECHARGE_TIMEOUT (R460). -/
def execChargerTimeout (mv : BitVec 16) (s : State) : Res :=
  .next <| if s.mode.mode = .off ∨ s.inHoldup ∨ 54000 ≤ mv.toNat then s
    else
      let s := s.modHold fun h => { h with vMv := mv.toNat }
      match s.mode.stage with
      | some x =>
        if x.slot = 0 then
          (s.setErr Pg.HOLD 0x0100 mv.toNat).methodEnd { noEnd with ok := false, failCode := 0x0100, failPage := 0x00F0 }
        else (s.modHold fun h => { h with noCharge := true }).storeFails 2
      | none => (s.modHold fun h => { h with noCharge := true }).storeFails 2
/-- R257. -/
def execHcFault (s : State) : Res :=
  .next <| if s.mode.mode = .off ∨ s.hold.hcFault then s
    else ((s.modHold fun h => { h with hcFault := true }).setErr Pg.HOLD 0x0103 0).storeFails 3

/-- R264. -/
def execHoldupFlushStepDone (us mj : Nat) (s : State) : Res :=
  .next <| match s.hold.flush with | none => s | some f => s.flushStep f us mj
/-- R264. Pass 2 ends at 121 ms or at the energy limit; how many of its segments it finished is not known. -/
def execFlushPass2Limit (s : State) : Res :=
  .next <| match s.hold.flush with
    | none => s
    | some f =>
      if f.step ≠ 5 then s
      else
        let (d, s) := s.draw
        let s := s.reach (f.t0 + msec 121)
        s.flushPass2End { f with us := (s.now - f.t0) / 1000 } (d % (max 1 s.pass2Segs.length))
/-- R54, R263. The 48 V input stays below the threshold. -/
def execPowerFailWarning (s : State) : Res :=
  .next <| if s.mode.mode = .off then s
    else
      let (d, s) := s.draw
      let s := s.withAuto fun s => s.modPwr fun p => { p with mainMv := d % (100 * s.cfg Pg.HOLD Fd.HOLD_CTRL_PF_THRESH) }
      let s := if s.auxOk then s.logEv Pg.PWR 0x1301 .notice 0 (0 :: leBytes 2 s.pwr.mainMv) else s
      s.enterHoldup .power

end Sys2Proof.Machine
end

