-- ==== Sys2Proof/Machine/InstEvents.lean ====
section
/-! DEFINITION. Commands on instances: resets, purges, mailboxes and the end of a breach (R143, R144, R152, R156 to R160). -/

namespace Sys2Proof.Machine

/-! ## Resets and purges (R144, R156, R157) -/

/-- A reset is asked for by a path: it begins, or joins the one held behind a reset that runs. -/
def State.resetWanted (s : State) (i who : Nat) : State :=
  if (s.instOf i).resetting then s.modInstOf i fun t => { t with resetHeld := some (t.resetHeld.getD who) } else s.resetBegins i who
/-- INST[i].RESET.GO; ignored on INST[0]. -/
def State.resetGo (s : State) (path : Path) (i : Nat) : State := if i = 0 then s else s.resetWanted i path.num
/-- INSTM.ACTION with OP 1. -/
def State.actionReset (s : State) (path : Path) (i : Nat) : State :=
  if i = 0 then s.actionDone i 2
  else
    let busy : Bool := (s.instOf i).resetting
    let s := s.modInst fun m => { m with acting := insNat i m.acting, result := if busy then 3 else 0 }
    s.resetWanted i path.num
/-- INSTM.ACTION with OP 2. -/
def State.actionPurge (s : State) (i : Nat) : State :=
  if i = 0 then s.actionDone i 2
  else if s.enabled i ∨ s.enableBit i then s.actionDone i 1
  else if s.purging i then s
  else
    let s := s.modInst fun m => { m with acting := insNat i m.acting, result := 0 }
    s.startErase i ((s.nssOf i).map Prod.fst) true .nobody
/-- A write of INSTM.ACTION. -/
def State.actionWord (s : State) (path : Path) (w : Nat) : State :=
  if ! w.testBit 31 then s
  else match bitsOf w 11 8 with
    | 1 => s.actionReset path (w % 256)
    | 2 => s.actionPurge (w % 256)
    | _ => s.actionDone (w % 256) 2

/-- R156, R157. A tenant asks through INST[i].RESET, the manager through INSTM.ACTION. -/
def execInstanceReset (path : Path) (inst : Fin 256) (s : State) : Res :=
  .next <| match path with
    | .tenant _ => s.viaPath path (Pg.INST inst.val) Fd.INST_RESET_GO.off fun s => s.resetGo path inst.val
    | _ => s.viaPath path Pg.INSTM Fd.INSTM_ACTION_GO.off fun s => s.actionReset path inst.val
/-- R144. -/
def execInstancePurge (path : Path) (inst : Fin 256) (s : State) : Res :=
  .next (s.viaPath path Pg.INSTM Fd.INSTM_ACTION_GO.off fun s => s.actionPurge inst.val)

/-! ## Mailboxes (R158 to R161) -/

/-- T2M_DOORBELL.RING: ignored on INST[0] and while a message is pending. -/
def State.ring (s : State) (i : Nat) : State :=
  if i = 0 ∨ (s.instOf i).t2mPending then s
  else
    (s.modInstOf i fun t => { t with t2mPending := true, t2mAcked := false, t2mLost := false, t2mSeq := (t.t2mSeq + 1) % 2 ^ 16 }).aenInst
      0 0xC2 (7 + 0x02 * 256 + 0xC2 * 65536)
/-- MBI_ACK with GO. -/
def State.ackT2m (s : State) (i : Nat) : State :=
  if (s.instOf i).t2mPending then (s.modInstOf i fun t => { t with t2mPending := false, t2mAcked := true }).setEv (Pg.INST i) 9 else s
/-- MBO_SEND with GO: MBO_DATA is queued for the instance of MBO_SEL. -/
def State.mboGo (s : State) : State :=
  let i := s.cfg Pg.INSTM Fd.INSTM_MBO_SEL_INDEX
  let res := fun (s : State) (n : Nat) => s.modInst fun m => { m with mboResult := n }
  if i = 0 then res s 3
  else if ! s.enabled i then res s 2
  else if 16 ≤ (s.instOf i).queue.length then res s 1
  else
    let data := (List.range 64).flatMap fun n => leBytes 4 (s.cfgAt Pg.INSTM Fd.INSTM_MBO_DATA_DATA n)
    res (s.queueMsg i ⟨false, 0, 0, data⟩) 0
/-- M2T_ACK.ACK. -/
def State.ackM2t (s : State) (i : Nat) : State := (s.modInstOf i fun t => { t with m2tFull := false }).deliverM2t i
/-- M2T_ACK.CLEAR_LOST. -/
def State.clearLost (s : State) (i : Nat) : State := s.modInstOf i fun t => { t with m2tLost := false }

/-- A write refused because a message is pending records MB_BUSY (R158, R163). -/
def State.ringVia (s : State) (path : Path) (i : Nat) : State :=
  match path with
  | .tenant _ => if (s.instOf i).t2mPending then s.setErr (Pg.INST i) 0x100 (errInfo path Fd.INST_T2M_DOORBELL_RING.off) else s.ring i
  | _ => s.ring i
/-- R158, R160. -/
def execT2mRing (path : Path) (inst : Fin 256) (s : State) : Res :=
  .next (s.viaPath path (Pg.INST inst.val) Fd.INST_T2M_DOORBELL_RING.off fun s => s.ringVia path inst.val)
/-- R158. -/
def execMbiAck (path : Path) (inst : Fin 256) (s : State) : Res :=
  .next (s.viaPath path Pg.INSTM Fd.INSTM_MBI_ACK_GO.off fun s => s.ackT2m inst.val)
/-- R159. -/
def execMboSend (path : Path) (s : State) : Res := .next (s.viaPath path Pg.INSTM Fd.INSTM_MBO_SEND_GO.off State.mboGo)
/-- R159. -/
def execM2tAck (path : Path) (inst : Fin 256) (s : State) : Res :=
  .next (s.viaPath path (Pg.INST inst.val) Fd.INST_M2T_ACK_ACK.off fun s => s.ackM2t inst.val)
/-- R153, R161. -/
def execM2tClearLost (path : Path) (inst : Fin 256) (s : State) : Res :=
  .next (s.viaPath path (Pg.INST inst.val) Fd.INST_M2T_ACK_ACK.off fun s => s.clearLost inst.val)

/-! ## The end of a breach of cause 0x0001 (R152, R153) -/

/-- R152. Ten seconds without a failed window test. -/
def execWindowBreachEnd (inst : Fin 256) (s : State) : Res :=
  .next <|
    let t := s.instOf inst.val
    match t.windowDue with
    | none => s
    | some d =>
      if s.inHoldup then s
      else
        let s := (s.reach d).modInstOf inst.val fun t => { t with windowDue := none }
        s.postNotice t.windowNotice 5 2 1 t.windowStart t.windowW [inst.val] false

end Sys2Proof.Machine
end

