-- ==== Sys2Proof/Machine/PowerEvents.lean ====
section
/-! DEFINITION. Supplies, sideband inputs, and the rise of the MGMT domain (R53 to R55, R69, R71, R445 to R448). -/

namespace Sys2Proof.Machine

/-! ## Supplies (R54, R447, R448) -/

/-- A supply left or regained its range while the module is powered: event 0x1301. -/
def State.logSupply (s : State) (aux : Bool) (mv : Nat) : State := s.logEv Pg.PWR 0x1301 .notice 0 (BitVec.ofNat 8 aux.toNat :: leBytes 2 mv)
/-- With a supply in range the always-on domains rise. -/
def State.wake (s : State) : State :=
  if s.mode.mode = .off ∧ (s.mainOk ∨ s.auxOk) then s.modPwr fun p => { p with domains := alwaysDoms.foldl (fun m d => m ||| 2 ^ d) p.domains }
  else s
/-- R54. -/
def execVmainInRange (mv : BitVec 16) (s : State) : Res :=
  .next <|
    let was := s.mainOk
    if mv.toNat < 40000 ∨ 60000 < mv.toNat then s
    else
      let s := s.withAuto fun s => s.modPwr fun p => { p with mainMv := mv.toNat }
      (if was then s else s.logSupply false mv.toNat).wake
/-- R54. -/
def execVauxInRange (mv : BitVec 16) (s : State) : Res :=
  .next <|
    let was := s.auxOk
    if mv.toNat < 10800 ∨ 13200 < mv.toNat then s
    else
      let s := s.modPwr fun p => { p with auxMv := mv.toNat }
      (if was then s else s.logSupply true mv.toNat).wake
/-- R448. The always-on domains move to the module's own converter. -/
def execVauxLost (mv : BitVec 16) (s : State) : Res :=
  .next <|
    let was := s.auxOk
    if 10800 ≤ mv.toNat ∧ mv.toNat ≤ 13200 then s
    else
      let s := s.modPwr fun p => { p with auxMv := mv.toNat }
      if was ∧ s.mainOk then s.logSupply true mv.toNat else s
/-- R54. Both inputs are gone: STANDBY ends in OFF; in HOLD-UP the flush goes on. -/
def execInputsRemoved (s : State) : Res :=
  .next <|
    let s := s.withAuto fun s => s.modPwr fun p => { p with mainMv := 0, auxMv := 0 }
    if s.mode.mode = .standby ∨ s.mode.mode = .off then s.toOff else s

/-! ## The MGMT domain rises (R69 to R71, R462) -/

def sysKeys : List Nat := [Sys.LEDGER, Sys.FENCE, Sys.SKIP, Sys.HOLD, Sys.PRESERVE, Sys.SHUTDOWN, Sys.FAIL, Pg.MODE]
/-- The key that an operand of MGMT_DOMAIN_RISE names: the system records in the order of R67, then the page MODE. -/
def sysKey (n : Nat) : Nat := sysKeys.getD n 0
/-- What the store gives for a system record: its body, nothing where none was saved, or lost in both copies. -/
inductive Restored where
  | got (b : RecBody) | absent | lost
deriving DecidableEq, Repr
def State.readSys (s : State) (la lb : List Nat) (key : Nat) : Restored :=
  match newestRec (s.mode.copyA.read la key) (s.mode.copyB.read lb key) with
  | some r => .got r.body
  | none => if s.mode.copyA.fails la key || s.mode.copyB.fails lb key then .lost else .absent
/-- Take one system record. -/
def State.takeSys (s : State) (la lb : List Nat) (key : Nat) : State :=
  match s.readSys la lb key with
  | .absent => s
  | .got b => match b with
    | .ledger l => s.modMode fun m => { m with ledger := l }
    | .fence f => s.modFence fun _ => f
    | .skipLatch n => s.modMode fun m => { m with skipLatch := n }
    | .startHold h => s.modMode fun m => { m with startHold := h }
    | .preserveCause n => s.modMode fun m => { m with preserveCause := n }
    | .shutdownStatus a b => s.modMode fun m => { m with shutLast := a, shutStep := b }
    | .restoreFail l => s.modMode fun m => { m with restoreFail := l }
    | .page w => s.loadPage Pg.MODE w
  | .lost =>
    if key = Sys.LEDGER then s.modMode fun m => { m with ledger := [], ledgerLost := true }
    else if key = Sys.FENCE then (s.modFence fun _ => .empty).modMode fun m => { m with noSkipOct := true }
    else if key = Sys.SKIP then s.modMode fun m => { m with skipLatch := 0 }
    else if key = Sys.HOLD then s.modMode fun m => { m with startHold := false, startHoldAfter := true }
    else if key = Sys.PRESERVE then s.modMode fun m => { m with preserveCause := 256 }
    else if key = Sys.SHUTDOWN then s.modMode fun m => { m with shutLast := 0, shutStep := 0 }
    else if key = Sys.FAIL then s.modMode fun m => { m with restoreFail := [] }
    else s.factoryPage Pg.MODE true
/-- Log what failed: a copy's header, a record in one copy, a record in both (R69, R462). -/
def State.logStore (s : State) (la lb : List Nat) : State :=
  let bad := fun (s : State) (sev : Sev) (what : Nat) => (s.setEv Pg.MODE 14).logEv Pg.MODE 0x0306 sev 0 [BitVec.ofNat 8 what]
  let a := s.mode.copyA
  let b := s.mode.copyB
  let sev := if a.headerOk || b.headerOk then Sev.absorbed else Sev.degraded
  let s := if a.headerOk then s else bad s sev 0x0A
  let s := if b.headerOk then s else bad s sev 0x0B
  (List.range 8).foldl (fun s n =>
    let key := sysKey n
    if (s.readSys la lb key) = .lost then bad s .degraded (0x10 + n)
    else
      let s := if a.headerOk ∧ a.fails la key then bad s .absorbed (0x10 + n) else s
      if b.headerOk ∧ b.fails lb key then bad s .absorbed (0x10 + n) else s) s
/-- R69. Without a standby image that verifies the MP does not run, and the module stays in OFF (event 0x100A is the SI's). -/
def execMgmtDomainRise (imageOk aOk bOk : Bool) (lostA lostB : List Nat) (s : State) : Res :=
  .next <|
    if s.mode.mode ≠ .off ∨ ! s.isUp Dom.MGMT then s
    else if ! imageOk then (s.modPwr fun p => { p with mpImageOk := false }).modSec fun k => { k with imageOk := false }
    else
      let la := lostA.map sysKey
      let lb := lostB.map sysKey
      let s := (s.modPwr fun p => { p with mpImageOk := true }).modSec fun k => { k with imageOk := true }
      let s := s.modCtl fun c => { c with regs := [], pages := [], latch := [] }
      let s := s.modMode fun m =>
        { m with
          prev := .off, reducedCause := 0, stageMs := 0, restored := 0, restFactory := 0, restAlt := 0, listFull := false, failedOver := 0
          copyAok := m.copyA.headerOk && aOk, copyBok := m.copyB.headerOk && bOk
          copyA := { m.copyA with headerOk := m.copyA.headerOk && aOk }, copyB := { m.copyB with headerOk := m.copyB.headerOk && bOk } }
      let s := s.modSens fun k => { k with sensors := [], ceiling := 100, nextStep := none, clearSince := none, held := [] }
      let s := s.modMctp fun m => { m with eid := 0, nonce := none, report := [] }
      let s := s.modTest fun _ => { run := none, result := 0, reason := 0, fencedUnit := false, elapsed := 0, errors := 0, firstErr := 0, bits := 0, wires := [] }
      let s := s.modTime fun t => { t with source := .aon, managerSet := false, ptpLocked := false, ptpGoodSince := none, ppsAligned := false, lastPps := none, ppsLost := false, known := false }
      let s := sysKeys.foldl (fun s k => s.takeSys la lb k) s
      let s := s.enterMode .standby
      let s := s.logStore la lb
      s.modMode fun m => { m with autoBlocked := false, autoEdge := s.autoCond }

/-! ## Power-disable and module reset (R445) -/

/-- R54, R74, R445. -/
def execPwrdisAssert (s : State) : Res :=
  .next <| if s.mode.mode = .off ∨ s.pwr.pwrdis then s
    else ((s.withAuto fun s => s.modPwr fun p => { p with pwrdis := true })).powerDisable
/-- R54, R445. -/
def execPwrdisRelease (s : State) : Res := .next (s.withAuto fun s => s.modPwr fun p => { p with pwrdis := false })
/-- R445. -/
def execResetAssert (s : State) : Res :=
  .next <| if s.mode.mode = .off ∨ s.pwr.resetLow then s else s.modPwr fun p => { p with resetLow := true, resetLowAt := some s.now }
/-- R54, R445. -/
def execResetLow10ms (s : State) : Res :=
  .next <| match s.pwr.resetLowAt with
    | none => s
    | some t => if s.pwr.resetLow then (s.reach (t + msec 10)).enterHoldup .resetSignal else s
/-- R54, R58, R445. -/
def execResetRelease (s : State) : Res :=
  .next <| match s.pwr.resetLowAt with
    | none => s
    | some t =>
      if ! s.pwr.resetLow then s
      else
        let s := (s.reach (t + msec 1)).modPwr fun p => { p with resetLow := false, resetLowAt := none }
        if s.mode.mode = .standby ∧ s.mainOk ∧ ! s.pwr.pwrdis then s.forceStart 3 else s

end Sys2Proof.Machine
end

