-- ==== Sys2Proof/Machine/ModeEvents.lean ====
section
/-! DEFINITION. Mode requests, automatic starts, the start's stages and orderly shutdown (R54 to R74). -/

namespace Sys2Proof.Machine

/-- MODE_REQ by a path. -/
def State.reqVia (s : State) (path : Path) (r : Nat) : State := s.viaPath path Pg.MODE 0x44 fun s => s.modeReq r
/-- R54. -/
def execStartRequest (path : Path) (s : State) : Res := .next (s.reqVia path 1)
/-- R54, R72, R74. -/
def execShutdownRequest (path : Path) (s : State) : Res := .next (s.reqVia path 2)
/-- R54. -/
def execDiagnosticRequest (path : Path) (s : State) : Res := .next (s.reqVia path 3)
/-- R54. -/
def execLeaveDiagnosticRequest (path : Path) (s : State) : Res := .next (s.reqVia path 4)
/-- R54, R57. -/
def execPreserveEnterRequest (path : Path) (s : State) : Res := .next (s.reqVia path 5)
/-- R57. -/
def execPreserveReleaseRequest (path : Path) (s : State) : Res := .next (s.reqVia path 6)

/-- R54. -/
def execAutoStart (s : State) : Res :=
  .next <| if s.mode.mode = .standby ∧ s.autoCond ∧ s.mode.autoEdge ∧ ! s.mode.autoBlocked then s.beginStart 1 else s
/-- R55. -/
def execAutoReturnStart (s : State) : Res :=
  .next <|
    if s.mode.mode ≠ .standby ∨ ! s.mode.autoBlocked ∨ ! s.mainOk ∨ s.pwr.pwrdis then s
    else if s.mode.holdCause = .resetSignal then (if s.pwr.resetLow then s else s.forceStart 3)
    else if s.cfgB Pg.MODE Fd.MODE_START_CTRL_AUTO_RETURN ∧ ! s.mode.startHold then s.beginStart 4
    else s

/-- R61. SEP's methods end with their measurement: its outcome is the method's. -/
def execStageMethodEnd (r : MethodEnd) (s : State) : Res :=
  .next <| match s.mode.stage with
    | none => s
    | some x =>
      if x.slot = 8 ∧ s.hold.meas.isSome then s
      else
        let pg := failPg x.slot r.failPage.toNat
        let s := if r.ok ∨ r.failCode = 0 then s else s.setErr pg r.failCode.toNat 0
        s.methodEnd r
/-- R60. The method fails at its limit; at JAN and SEP, HOLD names why (R460). -/
def execStageMethodTimeout (s : State) : Res :=
  .next <| match s.mode.stage with
    | none => s
    | some x =>
      let s := s.reach x.deadline
      if x.slot = 0 then
        (s.setErr Pg.HOLD 0x0100 s.hold.vMv).methodEnd { noEnd with ok := false, failCode := 0x0100, failPage := 0x00F0 }
      else if x.slot = 8 then
        match s.hold.meas with
        | some r => (s.measBad r).methodEnd { noEnd with ok := false, failCode := 0, failPage := 0x00F0 }
        | none => s.methodEnd { noEnd with ok := false, failCode := 0, failPage := 0x00F0 }
      else s.methodEnd { noEnd with ok := false, failCode := 0, failPage := BitVec.ofNat 16 (pageId (failPg x.slot 0xF0)) }
/-- Write 1 to clear SKIP_LATCH bits (R62). -/
def State.skipClear (s : State) (w : Nat) : State := [8, 9, 11, 12].foldl (fun s b => if w.testBit b then s.clearSkip b else s) s
/-- R62. -/
def execSkipLatchClear (path : Path) (value : Word) (s : State) : Res :=
  .next (s.viaPath path Pg.MODE 0x58 fun s => s.skipClear value.toNat)

/-- R72. Step 2 ends once every admitted command has completed. -/
def execOrderlyShutdownStepEnd (s : State) : Res :=
  .next <| match s.mode.shutdown with
    | none => s
    | some r =>
      if r.escalated ∨ (r.step = 2 ∧ s.cmd.ctxs.any fun e => match e.2.op with | .asynchronousEventRequest _ => false | _ => true) then s
      else s.shutStepEnd r
/-- R72. -/
def execDrainLimitExpiry (s : State) : Res :=
  .next <| match s.mode.shutdown with
    | none => s
    | some r => if r.step ≠ 2 then s else (s.reach (r.t0 + secs (s.cfg Pg.MODE Fd.MODE_START_CTRL_DRAIN_LIMIT))).shutStepEnd r
/-- R73. -/
def execShutdownStepOverrun (s : State) : Res :=
  .next <| match s.mode.shutdown with
    | none => s
    | some r =>
      if r.escalated ∨ ! (r.step = 5 ∨ r.step = 6) then s
      else
        let s := s.reach (r.t0 + secs (s.cfg Pg.MODE Fd.MODE_START_CTRL_DRAIN_LIMIT + 26 + r.step))
        let s := s.modMode fun m => { m with shutLast := 2, shutdown := some { r with escalated := true } }
        ((s.saveShutdown).logEv Pg.MODE 0x0308 .notice).flushBegin false 2

end Sys2Proof.Machine
end

