-- ==== Sys2Proof/Machine/TestEvents.lean ====
section
/-! DEFINITION. The commands of DIAGNOSTIC's tests (R436 to R442). -/

namespace Sys2Proof.Machine

/-- R436. -/
def execTestGo (path : Path) (domainsRise : Bool) (s : State) : Res :=
  .next (s.viaPath path Pg.TEST 0x48 fun s => s.testBegin domainsRise)
/-- R441. -/
def execTestStop (path : Path) (s : State) : Res := .next (s.viaPath path Pg.TEST 0x48 State.testAbort)
/-- INJECT (R441). -/
def State.testInject (s : State) : State := s.modTest fun t => { t with run := t.run.map fun r => { r with injected := true } }
/-- R441. -/
def execTestInject (path : Path) (s : State) : Res := .next (s.viaPath path Pg.TEST 0x404 State.testInject)
/-- R438, R440. -/
def execTestEnd (errors : Nat) (criterion : Bool) (bits : Nat) (wires : List (Fin 68)) (firstErr : Word) (s : State) : Res :=
  .next (s.testOver errors criterion bits (wires.map fun w => w.val) firstErr.toNat)

end Sys2Proof.Machine
end

