-- ==== Sys2Proof/Machine/TriggerEvents.lean ====
section
/-! DEFINITION. Registers whose write starts something, where the table gives them a row (R194, R203, R218, R346, R360). -/

namespace Sys2Proof.Machine

/-- HINT_GO issues HINT_HI:HINT_LO for the manager. -/
def State.hintGo (s : State) : State :=
  let lo := s.cfg Pg.MAPC Fd.MAPC_HINT_LO_WORD
  let hi := s.cfg Pg.MAPC Fd.MAPC_HINT_HI_WORD
  let w := lo + 2 ^ 32 * hi
  let op := bitsOf w 63 60
  if op = 0 ∨ 3 < op then s.setErr Pg.MAPC 0x0100 op
  else s.hint op (bitsOf w 59 48) (bitsOf w 47 8) (w % 256 + 1) 0 true false
/-- R203, R204, R218. -/
def execHintGo (path : Path) (s : State) : Res := .next (s.viaPath path Pg.MAPC Fd.MAPC_HINT_GO_GO.off State.hintGo)
/-- R194. -/
def execCheckGo (path : Path) (s : State) : Res := .next (s.viaPath path Pg.PAR Fd.PAR_CHECK_GO_GO.off State.startCheck)
/-- R299, R346. -/
def execCoreTestGo (path : Path) (quad : Quad) (cluster : Fin 4) (core : Fin 16) (s : State) : Res :=
  .next (s.viaPath path (Pg.CLU quad.ix cluster.val) Fd.CLU_TEST_GO_GO.off fun s => s.testCore (64 * quad.ix + 16 * cluster.val + core.val))
/-- R360. -/
def execProbeGo (path : Path) (quad : Quad) (s : State) : Res :=
  .next (s.viaPath path (Pg.MAT quad.ix) Fd.MAT_PROBE_GO_GO.off fun s => s.startProbe quad.ix)
/-- R360. -/
def execProbeStep (path : Path) (quad : Quad) (s : State) : Res :=
  .next (s.viaPath path (Pg.MAT quad.ix) Fd.MAT_PROBE_GO_GO.off fun s => s.stepProbe quad.ix)

end Sys2Proof.Machine
end

