-- ==== Sys2Proof/Machine/LifeEvents.lean ====
section
/-! DEFINITION. Reclaim levels, victims, erases, patrol and the retention clock (R224 to R243). -/

namespace Sys2Proof.Machine

/-- R224. The level changes after the free-band count has stayed across a threshold for 100 ms. -/
def execReclaimLevelChange (s : State) : Res :=
  .next <| match s.media.levelSince with
    | none => s
    | some (l, t) =>
      if s.levelFor s.availBands ≠ l ∨ l = s.media.level then s
      else
        let old := s.media.level
        let s := (s.reach (t + msec 100)).modMedia fun m => { m with level := l, levelSince := none }
        let s := if old = 2 ∨ l = 2 then s.logEv Pg.MEDIA 0x0903 .notice 0 [BitVec.ofNat 8 l] else s
        s.goOn

/-! ## Victims (R225 to R227, R236) -/

/-- Bands that reclaim may take. -/
def State.victimCands (s : State) : KV Band :=
  s.media.bands.filter fun e => e.2.state = .closed ∧ ! e.2.slc ∧ e.2.stream ≠ 5
/-- The score of a band (R226). -/
def State.bandScore (s : State) (b : Band) : Nat :=
  let h := s.retNow - b.closeH
  let age := min (1000 + 1000 * h / (24 * s.cfg Pg.MEDIA Fd.MEDIA_GC_AGE_AGE_D)) 4000
  (1000 - b.permille) * age / (1000 + b.permille)
/-- The first band, in ascending number, for which `key` is least. -/
def leastBand (key : Band → Nat) : KV Band → Option Nat
  | [] => none
  | x :: xs => some (xs.foldl (fun a b => if key b.2 < key a.2 then b else a) x).1

/-- Blocks of a lane that are members, with their bands: wear and band. -/
def State.laneMembers (s : State) (lane : Nat) : List (Nat × Nat) :=
  s.media.bands.flatMap fun e => (e.2.members.filter fun l => l / 131072 = lane && s.blockState l = .member).map fun l => ((s.blockRec l).wear, e.1)
/-- The lowest band that wear levelling takes. -/
def State.wearVictim (s : State) : Option Nat :=
  let cands := s.victimCands
  let busy := s.media.wlBands.filter (s.media.victims.contains ·)
  let picks := (List.range 64).filterMap fun lane =>
    let l := s.laneMembers lane
    let hi := l.foldl (fun m e => max m e.1) 0
    match l with
    | [] => none
    | x :: xs =>
      let lo := xs.foldl (fun a b => if b.1 < a.1 then b else a) x
      let taken := busy.any fun n => (KV.get? s.media.bands n).any fun b => b.members.any fun m => m / 131072 = lane
      if 32 * s.cfg Pg.MEDIA Fd.MEDIA_WL_CTRL_SPREAD < hi - lo.1 ∧ ! taken ∧ (KV.get? cands lo.2).isSome then some lo.2 else none
  picks.foldl (fun r n => match r with | none => some n | some k => some (min k n)) none

/-- The lowest margin of a band's blocks marked for refresh. -/
def State.refreshMargin (s : State) (b : Band) : Nat :=
  b.members.foldl (fun m l => if (s.blockRec l).refresh then min m (s.blockRec l).margin else m) 127

/-- The bands that step 4 of a cryptographic erase is to erase (R409). -/
def State.eraseBands (s : State) : List Nat := s.sec.erases.flatMap fun e => if e.2.step = 4 then e.2.bands else []
/-- The victim that R225 takes now, those of a cryptographic erase ahead of level 1 (R409); the flag tells a wear-levelling
victim. -/
def State.pickVictim (s : State) : Option (Nat × Bool) :=
  let c := s.victimCands
  let plain := fun (o : Option Nat) => o.map fun n => (n, false)
  match (c.filter fun e => s.holdsRetire e.2).head? with
  | some e => some (e.1, false)
  | none =>
    match leastBand s.refreshMargin (c.filter fun e => s.holdsRefresh e.2) with
    | some n => some (n, false)
    | none =>
      if 2 ≤ s.media.level then plain (leastBand Band.valid c)
      else match s.wearVictim with
        | some n => some (n, true)
        | none => match c.find? fun e => s.eraseBands.contains e.1 with
          | some e => some (e.1, false)
          | none => if s.media.level = 1 then plain (leastBand (fun b => 2 ^ 40 - s.bandScore b) c) else none

/-- R225 to R228 steps 1 and 2. -/
def execGcVictimSelect (s : State) : Res :=
  .next <| if s.inHoldup ∨ ! s.isUp Dom.FABRIC then s
    else match s.pickVictim with
      | none => s
      | some (n, wl) =>
        match KV.get? s.media.bands n with
        | none => s
        | some b =>
          let s := s.modMedia fun m =>
            { m with victimValid := b.permille, wlBands := if wl then insNat n (m.wlBands.filter (m.victims.contains ·)) else m.wlBands }
          s.relocate n b

/-! ## Erases (R228 steps 5 and 6, R231 to R236) -/

/-- A read that was started, or a READ token on its way, still refers to the band (R285). -/
def State.bandHeld (s : State) (n : Nat) : Bool :=
  (s.media.reads.any fun r => r.2.band = n && r.2.who ≠ .patrol)
    || s.prog.flight.any fun t => t.kind = 1 && entState t.value.toNat = 2 && match s.bandOf (entLoc t.value.toNat) with
      | some (k, _) => k = n
      | none => false

/-- Blocks of a die that are or were last in SLC mode, a given one aside. -/
def State.dieSlc (s : State) (die loc : Nat) : Nat :=
  let isS := fun (b : Block) => b.slc && b.state ≠ .retired && b.state ≠ .fenced && b.state ≠ .spare
  let l := s.dieBlocks die
  655 + (l.filter fun e => e.1 ≠ loc && isS e.2).length - (l.filter fun e => isS (blockDefault e.1)).length
/-- Median WEAR of a die's blocks. -/
def State.dieMedian (s : State) (die : Nat) : Nat :=
  let l := ((s.dieBlocks die).map fun e => e.2.wear).mergeSort
  let z := 8192 - l.length
  if 4095 < z then 0 else l.getD (4095 - z) 0

/-- An erased block joins a free list: BLOCK_FREE (R228 step 6, R235). -/
def State.freeBlock (s : State) (loc : Nat) : State :=
  let b := s.blockRec loc
  let die := loc / 8192
  let slc := decide (s.dieSlc die loc < s.poolPerDie) && decide (s.dieMedian die ≤ b.wear)
  let s := s.modBlock loc fun k =>
    { k with state := .free, slc := slc, margin := 127, refresh := false, reads := 0, patrolled := false, interval := 0 }
  let s := s.journal 0x14 0 (mediaLoc loc) (b.wear + slc.toNat * 2 ^ 20) (loc / 2097152)
  s.refill (loc / 131072)

/-- One erase of a block: WEAR, and its free list or its retirement (R221, R232, R233). -/
def State.eraseBlock (s : State) (loc : Nat) (ok : Bool) : State :=
  let s := s.bump Pg.MEDIA Fd.MEDIA_GC_CNT_COUNT 2
  if ! ok then (s.bump (Pg.LANE (loc / 2097152) (loc / 131072 % 16)) Fd.LANE_CNT_COUNT 6).retireBlock loc 2
  else
    let s := s.modBlock loc fun b => { b with wear := b.wear + if b.slc then 1 else 32 }
    let b := s.blockRec loc
    if 32 * s.cfg Pg.MEDIA Fd.MEDIA_WL_CTRL_RETIRE_WEAR ≤ b.wear then s.retireBlock loc 3
    else if 2 ≤ b.firstRefresh then s.retireBlock loc 4
    else s.freeBlock loc

/-- Members of an erasable band that are never erased: retire-pending blocks, retired now, and fenced ones. -/
def State.passMembers (s : State) (n : Nat) : State :=
  match KV.get? s.media.bands n with
  | none => s
  | some b =>
    (List.range b.members.length).foldl (fun s m =>
      let loc := b.members.getD m 0
      if b.erased.contains m then s
      else match s.blockState loc with
        | .retirePending => (s.retireBlock loc 1).modBand n fun b => { b with erased := insNat m b.erased }
        | .fenced => s.modBand n fun b => { b with erased := insNat m b.erased }
        | _ => s) s
/-- Every member has its record: the band record goes. -/
def State.bandGone (s : State) (n : Nat) : State :=
  match KV.get? s.media.bands n with
  | none => s
  | some b =>
    if b.erased.length < b.members.length then s
    else (s.modMedia fun m => { m with bands := KV.del m.bands n, wlBands := m.wlBands.filter (· ≠ n) }).bump Pg.MEDIA Fd.MEDIA_GC_CNT_COUNT 0

/-- R228 steps 5 and 6. -/
def execBlockEraseDone (band : Nat) (member : Fin 34) (ok : Bool) (s : State) : Res :=
  .next <| match KV.get? s.media.bands band with
    | none => s
    | some b =>
      if b.state ≠ .erasable ∨ s.bandHeld band ∨ s.inHoldup then s
      else
        let s := s.passMembers band
        match KV.get? s.media.bands band with
        | none => s
        | some b =>
          let m := member.val
          let s :=
            if b.erased.contains m then s
            else (s.eraseBlock (b.members.getD m 0) ok).modBand band fun b => { b with erased := insNat m b.erased }
          (((s.bandGone band).levelTrack).directCheck).goOn

/-! ## Patrol (R239 to R243) -/

/-- A block's patrol falls due at this hour of the retention clock. -/
def State.patrolHour (s : State) (loc : Nat) : Nat :=
  let b := s.blockRec loc
  let days := if b.interval = 0 then s.cfg Pg.MEDIA Fd.MEDIA_PATROL_CTRL_DAYS else b.interval
  (if b.patrolled then 24 * b.patrolD else b.progH) + 24 * days
/-- The block is to be patrolled without waiting for its day. -/
def State.patrolNow (s : State) (loc : Nat) : Bool :=
  let b := s.blockRec loc
  s.media.patrolHead.contains loc || s.media.catchup
    || decide (1000 * s.cfg Pg.MEDIA (if b.slc then Fd.MEDIA_DISTURB_SLC_K else Fd.MEDIA_DISTURB_QLC_K) < b.reads)
/-- Blocks whose patrol is overdue (PATROL_STATUS.OVERDUE). -/
def State.overdue (s : State) : Nat :=
  (s.media.bands.foldl (fun n e => n + (e.2.members.filter fun l =>
    (s.blockState l = .member || s.blockState l = .erasable || s.blockState l = .retirePending) && decide (s.patrolHour l < s.retNow)).length) 0)

/-- R239, R240. The patrol read of a block starts. -/
def execPatrolDue (lane : Fin 64) (die : Fin 16) (plane : Fin 4) (block : Fin 2048) (s : State) : Res :=
  .next <|
    let loc := ((lane.val * 16 + die.val) * 4 + plane.val) * 2048 + block.val
    let st := s.blockState loc
    match s.bandOf loc with
    | none => s
    | some (n, m) =>
      match KV.get? s.media.bands n with
      | none => s
      | some b =>
        let running := s.media.reads.any fun r => r.2.who = .patrol && r.2.band = n && r.2.member = m
        if b.nextRow = 0 ∨ running ∨ ! (st = .member ∨ st = .erasable ∨ st = .retirePending) ∨ b.members.getD m 0 ≠ loc then s
        else
          let s := if s.patrolNow loc then s else s.reach (s.media.retAt + secs (3600 * (s.patrolHour loc - s.media.retHours)))
          let (d, s) := s.draw
          let id := s.media.nextRead
          let r : MRead :=
            { who := .patrol, nsx := 0, grain := 0, band := n, member := m, row := d % b.nextRow, step := 1, second := false, sent := [] }
          let s := s.modMedia fun k =>
            { k with nextRead := id + 1, reads := KV.put k.reads id r, catchupDone := if k.catchup then k.catchupDone + b.nextRow else k.catchupDone }
          let s := s.bumpPart Pg.MEDIA Fd.MEDIA_GC_CNT_COUNT 6 b.nextRow 1000
          s.bumpBy (Pg.LANE (lane.val / 16) (lane.val % 16)) Fd.LANE_CNT_COUNT 0 b.nextRow

/-- Event 0x0905: the off-time in hours, all ones where it is not known. -/
def State.logCatchup (s : State) (start : Bool) : State :=
  s.logEv Pg.MEDIA 0x0905 .info 0 (BitVec.ofNat 8 start.toNat :: leBytes 4 (s.media.offHours.getD 0xFFFFFFFF))
/-- R243. -/
def execCatchupPatrolEnd (s : State) : Res :=
  .next <| if ! s.media.catchup then s
    else (s.modMedia fun m => { m with catchup := false, catchupDone := 100 }).logCatchup false

/-- R239, R251. The retention clock is recorded at each hour. -/
def execRetentionClockSave (s : State) : Res :=
  .next <| if s.mode.mode = .off then s
    else
      let s := s.reach (s.media.retAt + secs 3600)
      let h := (s.now - s.media.retAt) / secs 3600
      (s.modMedia fun m => { m with retHours := m.retHours + h, retAt := m.retAt + secs (3600 * h) }).recordTime

end Sys2Proof.Machine
end

