-- ==== Sys2Proof/Machine/Views.lean ====
section
/-! DEFINITION. What the read-only fields of the pages show, computed from the state (the register maps of each chapter), and the
level events (R34). A field without a row here shows its live word. -/

namespace Sys2Proof.Machine

/-- A computed field: its value in element `k`. -/
abbrev ViewRow := Field × (Nat → Nat)
def one (f : Field) (v : Nat) : ViewRow := (f, fun _ => v)
def flag (f : Field) (b : Bool) : ViewRow := (f, fun _ => b.toNat)
/-- A value that stops at the top of its field. -/
def capped (f : Field) (v : Nat) : ViewRow := (f, fun _ => min v f.max1)
/-- Bit k of a word for each of several fields. -/
def bitRows (w : Nat) (l : List Field) : List ViewRow := (List.zip (List.range l.length) l).map fun e => (e.2, fun _ => (w.testBit e.1).toNat)
def maskOf (n : Nat) (p : Nat → Bool) : Nat := (List.range n).foldl (fun m k => if p k then m ||| 2 ^ k else m) 0
def word32 (l : List Byte) (k : Nat) : Nat := leNat (sliceB l (4 * k) 4)

/-! ## MODE (R65, R66) -/

/-- A record of the start ledger, 128 bytes (R65). -/
def LedgerRec.bytes (r : LedgerRec) : List Byte :=
  let l := leBytes 4 r.startNo ++ leBytes 1 r.cause ++ leBytes 1 r.endMode ++ leBytes 1 r.flags ++ zeros 1 ++ leBytes 8 r.time
    ++ sliceB (r.slots.map fun b => BitVec.ofNat 8 b) 0 14 ++ zeros 2 ++ sliceB (r.durs.flatMap fun d => leBytes 4 d) 0 56
    ++ leBytes 2 r.failCode ++ leBytes 2 r.failPage ++ zeros 32
  l ++ leBytes 4 (crc32c l)
/-- STAGE_TIME of the running stage; NOV's three slots are one stage. -/
def State.stageTime (s : State) : Nat :=
  match s.mode.stage with
  | none => s.mode.stageMs
  | some r =>
    let before := if r.slot = 11 ∨ r.slot = 12 then ((List.range (r.slot - 10)).map fun k => s.rec_.durs.getD (10 + k) 0).foldl (· + ·) 0 else 0
    before + (s.now - r.slotStart) / 1000000
def Method.code : Method → Nat
  | .none => 0 | .primary => 1 | .alternate => 2
def State.viewMode (s : State) : List ViewRow :=
  let m := s.mode
  let sel := s.cfg Pg.MODE Fd.MODE_LEDGER_SEL_INDEX
  [one Fd.MODE_MODE_CUR_MODE m.mode.code, one Fd.MODE_MODE_CUR_STAGE ((m.stage.map fun r => slotStage r.slot).getD 0),
   one Fd.MODE_MODE_CUR_METHOD ((m.stage.map fun r => r.method.code).getD 0), one Fd.MODE_MODE_CUR_PREV m.prev.code,
   flag Fd.MODE_MODE_CUR_START_HOLD m.startHold, one Fd.MODE_STAGE_TIME_MS s.stageTime, one Fd.MODE_LEDGER_STARTS_START_NO m.startNo,
   one Fd.MODE_RESTORE_STATUS_RESTORED m.restored, one Fd.MODE_RESTORE_STATUS_FACTORY m.restFactory, one Fd.MODE_RESTORE_STATUS_ALT m.restAlt,
   flag Fd.MODE_RESTORE_STATUS_LIST_FULL m.listFull, flag Fd.MODE_RESTORE_STATUS_COPY_A_OK m.copyAok, flag Fd.MODE_RESTORE_STATUS_COPY_B_OK m.copyBok,
   one Fd.MODE_SHUTDOWN_STATUS_LAST m.shutLast, one Fd.MODE_SHUTDOWN_STATUS_STEP m.shutStep,
   (Fd.MODE_LEDGER_DATA_DATA, fun k => match m.ledger[sel]? with | some r => word32 r.bytes k | none => 0),
   one Fd.MODE_RESTORE_FAIL_COUNT m.restoreFail.length,
   (Fd.MODE_RESTORE_LIST_PAGE, fun k => match m.restoreFail[k]? with | some p => pageId p | none => 0),
   flag Fd.MODE_SKIP_LATCH_SEP (m.skipLatch.testBit 8), flag Fd.MODE_SKIP_LATCH_OCT (m.skipLatch.testBit 9),
   flag Fd.MODE_SKIP_LATCH_NOV_P0 (m.skipLatch.testBit 11), flag Fd.MODE_SKIP_LATCH_NOV_P1 (m.skipLatch.testBit 12)]
  ++ bitRows m.reducedCause [Fd.MODE_REDUCED_CAUSE_BANDS, Fd.MODE_REDUCED_CAUSE_CORES, Fd.MODE_REDUCED_CAUSE_CLUSTER, Fd.MODE_REDUCED_CAUSE_MEDIA_CORES,
      Fd.MODE_REDUCED_CAUSE_ENGINES, Fd.MODE_REDUCED_CAUSE_LINK, Fd.MODE_REDUCED_CAUSE_MP]
  ++ bitRows m.preserveCause [Fd.MODE_PRESERVE_CAUSE_SPARES, Fd.MODE_PRESERVE_CAUSE_MEDIA, Fd.MODE_PRESERVE_CAUSE_DRAM, Fd.MODE_PRESERVE_CAUSE_PORTS,
      Fd.MODE_PRESERVE_CAUSE_HOLDUP, Fd.MODE_PRESERVE_CAUSE_QUADRANT, Fd.MODE_PRESERVE_CAUSE_FLUSH, Fd.MODE_PRESERVE_CAUSE_MANAGER,
      Fd.MODE_PRESERVE_CAUSE_STORE, Fd.MODE_PRESERVE_CAUSE_REGS]

/-! ## DEV, SENS, LOG, SEC and TEST -/

def State.viewDev (s : State) : List ViewRow :=
  [one Fd.DEV_SERIAL_LO_ASCII (word32 Config.serial 0), one Fd.DEV_SERIAL_HI_ASCII (word32 Config.serial 1), one Fd.DEV_FW_SLOT_ACTIVE s.fw.active,
   one Fd.DEV_FW_SLOT_PENDING s.fw.pendingSlot, flag Fd.DEV_FW_SLOT_TRIAL s.fw.trial,
   one Fd.DEV_FW_SLOT_VALID ((s.slotBundle 1).isSome.toNat + 2 * (s.slotBundle 2).isSome.toNat), flag Fd.DEV_PTP_LOCKED s.time.ptpLocked,
   one Fd.DEV_TIME_LO_NS s.timeNs, one Fd.DEV_TIME_HI_NS (s.timeNs / 2 ^ 32)]
def State.sensCount (s : State) (p : Sensor → Bool) : Nat := (s.sens.sensors.filter fun e => p e.2).length

def State.viewSens (s : State) : List ViewRow :=
  let x := s.sensor (s.cfg Pg.SENS Fd.SENS_SEL_INDEX)
  let w := fun (v : Int) => (v % 2 ^ 24).toNat
  [one Fd.SENS_VALUE_READING (w x.reading), one Fd.SENS_VALUE_STATE (x.state.num), one Fd.SENS_PEAK_READING (w x.peak),
   one Fd.SENS_SUMMARY_CEILING s.sens.ceiling, flag Fd.SENS_SUMMARY_THROTTLING (decide (s.sens.ceiling < 100)), one Fd.SENS_SUMMARY_HOT s.hottest,
   one Fd.SENS_SUMMARY_WARN (s.sensCount fun x => x.state.warm), one Fd.SENS_SUMMARY_FAILED (s.sensCount fun x => x.state = .failed)]
def State.mirrorLag (s : State) : Nat := min 0xFFFF (s.log.head - s.log.mirrored)
def State.viewLog (s : State) : List ViewRow :=
  [one Fd.LOG_HEAD_SEQ s.log.head, one Fd.LOG_TAIL_SEQ s.logTail, one Fd.LOG_MIRROR_TAIL_SEQ s.mirrorTail, one Fd.LOG_STATUS_MIRROR_LAG s.mirrorLag,
   (Fd.LOG_ENTRY_DATA, fun k => word32 (s.logEntry (s.cfg Pg.LOG Fd.LOG_ENTRY_SEL_SEQ)) k)]
/-- EMPTY slots of 16 to 1,023. -/
def State.freeKeys (s : State) : Nat := 1008 - (s.sec.keys.filter fun e => 16 ≤ e.1 && e.1 < 1024 && e.2.type ≠ 0).length
def State.viewSec (s : State) : List ViewRow :=
  let k := s.keySlot (s.cfg Pg.SEC Fd.SEC_KEY_SEL_SLOT)
  let c := s.sec.rollback.getD (s.cfg Pg.SEC Fd.SEC_ROLLBACK_SEL_CLASS) 0
  [one Fd.SEC_FUSES_PROGRAMMED s.sec.programmed, one Fd.SEC_FUSES_REVOKED s.sec.revoked, one Fd.SEC_FUSES_ACTIVE s.sec.active,
   one Fd.SEC_ROLLBACK_LO_COUNT c, one Fd.SEC_ROLLBACK_HI_COUNT (c / 2 ^ 32), flag Fd.SEC_TRNG_FAILED s.sec.trngFailed,
   one Fd.SEC_KEY_INFO_TYPE k.type, flag Fd.SEC_KEY_INFO_SCOPE_ALL k.scopeAll, one Fd.SEC_KEY_INFO_ORIGIN k.origin, one Fd.SEC_KEY_INFO_OWNER k.owner,
   one Fd.SEC_KEY_INFO_PERM k.perm, one Fd.SEC_KEY_INFO_LEN k.len, one Fd.SEC_KEY_STATUS_FREE s.freeKeys]
def State.viewTest (s : State) : List ViewRow :=
  let t := s.test
  let ms := match t.run with | some r => (s.now - r.t0) / 1000000 | none => t.elapsed
  [flag Fd.TEST_STATUS_BUSY t.run.isSome, one Fd.TEST_STATUS_RESULT t.result, one Fd.TEST_STATUS_REASON t.reason,
   flag Fd.TEST_STATUS_FENCED_UNIT t.fencedUnit, one Fd.TEST_ELAPSED_VALUE ms, capped Fd.TEST_ERRORS_VALUE t.errors,
   one Fd.TEST_FIRST_ERR_VALUE t.firstErr, one Fd.TEST_BITS_LO_COUNT t.bits, one Fd.TEST_BITS_HI_COUNT (t.bits / 2 ^ 32),
   (Fd.TEST_WIRE_FAIL_WIRES, fun k => maskOf 32 fun w => t.wires.contains (32 * k + w))]

/-! ## CLK and PWR (R446, R454) -/

/-- A PPS edge came within the last 1.5 s. -/
def State.ppsHere (s : State) : Bool := s.time.lastPps.any fun t => decide (s.now - t ≤ msec 1500)
def State.viewClk (s : State) : List ViewRow :=
  [one Fd.CLK_PLL_LOCK_LOCKED (maskOf 25 fun d => s.clockUp d && ! s.pwr.pllLost.testBit d), flag Fd.CLK_REF_STATUS_REF156 (s.isUp Dom.MGMT),
   flag Fd.CLK_REF_STATUS_PPS_PRESENT s.ppsHere, flag Fd.CLK_REF_STATUS_PPS_ALIGNED s.time.ppsAligned,
   (Fd.CLK_CPU_MHZ_MHZ, fun q => if s.isUp (Dom.CPU q) then 400 + Config.cpuMhz q s.now % 1801 else 0)]
def State.viewPwr (s : State) : List ViewRow :=
  let p := s.pwr
  [one Fd.PWR_DOMAIN_UP_UP p.domains, one Fd.PWR_INPUT_MAIN_MV p.mainMv, one Fd.PWR_INPUT_AUX_MV p.auxMv, one Fd.PWR_POWER_DW p.deciWatt,
   flag Fd.PWR_SIDEBAND_PWRDIS p.pwrdis, flag Fd.PWR_SIDEBAND_RESET_LOW p.resetLow, flag Fd.PWR_SIDEBAND_CAGE0_PRESENT p.cage0.present,
   flag Fd.PWR_SIDEBAND_CAGE1_PRESENT p.cage1.present, flag Fd.PWR_SIDEBAND_CAGE0_POWER (s.cagePower 0), flag Fd.PWR_SIDEBAND_CAGE1_POWER (s.cagePower 1)]

/-! ## HOLD (R255 to R260) -/

def State.windowMibNow (s : State) : Nat := s.hold.w
def State.viewHold (s : State) : List ViewRow :=
  let h := s.hold
  let age := match h.goodAt with | some t => min 0xFFFF ((s.now - t) / secs 1) | none => 0xFFFF
  [one Fd.HOLD_STORE_V_MV h.vMv, flag Fd.HOLD_STORE_CHARGING s.chargeNow.hold.charging, flag Fd.HOLD_STORE_MEASURING h.meas.isSome, one Fd.HOLD_CAP_UF h.capUf,
   one Fd.HOLD_CAP_BOL_UF h.capBol, capped Fd.HOLD_ENERGY_MJ (energyMj h.capUf h.vMv), one Fd.HOLD_WINDOW_MIB h.w,
   one Fd.HOLD_ACKED_MIB (cdiv s.ackedBytes (2 ^ 20)), one Fd.HOLD_ACKED_BUFFERED_MIB (cdiv s.bufferedBytes (2 ^ 20)),
   one Fd.HOLD_MEAS_STATUS_METHOD h.lastMethod.code, flag Fd.HOLD_MEAS_STATUS_OK h.lastOk, one Fd.HOLD_MEAS_STATUS_FAILS h.fails,
   flag Fd.HOLD_MEAS_STATUS_STALE h.stale, one Fd.HOLD_MEAS_STATUS_AGE_S age, one Fd.HOLD_LAST_FLUSH_TIME_VALUE h.lastTime,
   one Fd.HOLD_LAST_FLUSH_ENERGY_VALUE h.lastEnergy, one Fd.HOLD_LAST_FLUSH_DATA_PASS1_MIB h.lastP1,
   one Fd.HOLD_LAST_FLUSH_DATA_PASS2_MIB h.lastP2, capped Fd.HOLD_LAST_FLUSH_LOST_REVERTED h.reverted,
   capped Fd.HOLD_LAST_FLUSH_LOST_LOG_DROPPED h.logDropped]

/-! ## The network edge (R78 to R99) -/

def State.viewNet (s : State) (p : Nat) : List ViewRow :=
  let pg := Pg.NET p
  let sub := s.cfg pg Fd.NET_CNT_SEL_SUB
  [one Fd.NET_NET_STATUS_LINK_UP (maskOf 4 fun k => (s.subOf p k).up), one Fd.NET_NET_STATUS_DEGRADED (maskOf 4 fun k => (s.subOf p k).degraded),
   one Fd.NET_NET_STATUS_LANE_LOCK (KV.getD 0 s.net.laneLock p), flag Fd.NET_NET_STATUS_FAILED (s.fence.ports.contains p),
   flag Fd.NET_NET_STATUS_SELFTEST ((List.range 4).any fun k => (s.subOf p k).selftest), one Fd.NET_MAC_LO_ADDR (Config.mac p),
   one Fd.NET_MAC_HI_ADDR (Config.mac p / 2 ^ 32),
   (Fd.NET_CNT_COUNT, fun k => if k = 0 then Config.corrected (4 * p + sub) s.now else KV.getD 0 (s.subOf p sub).cnt k),
   (Fd.NET_EQ_LANE_EQ, fun k => KV.getD 0 s.net.eq (8 * p + k))]
def State.sramUsed (s : State) : Nat := s.net.sram.foldl (fun n f => n + f.bytes) 0
def State.viewNetx (s : State) : List ViewRow :=
  [one Fd.NETX_CONN_STATUS_TCP (s.connCount false), one Fd.NETX_CONN_STATUS_ROCE (s.connCount true),
   one Fd.NETX_BUF_STATUS_SRAM_KIB (cdiv s.sramUsed 1024), one Fd.NETX_BUF_STATUS_SPILL_MIB (cdiv s.spillUsed (2 ^ 20)),
   flag Fd.NETX_BUF_STATUS_SPILLING s.net.spilling, flag Fd.NETX_BUF_STATUS_COOKIES s.net.cookies]
def State.viewCls (s : State) : List ViewRow :=
  [one Fd.CLS_CLS_STATUS_VALID_RULES (s.net.rules.filter fun r => ruleFlag r.2 0).length,
   one Fd.CLS_CLS_STATUS_HELD_OFF (s.net.holdoff.filter fun e => decide (s.now < e.2)).length]

/-! ## Commands and instances (R116, R117, R136, R142 to R164) -/

def State.viewCmd (s : State) : List ViewRow :=
  let io := (s.cmd.ctxs.filter fun x => x.2.qid ≠ 0).length
  [one Fd.CMD_CTX_STATUS_IO_USED io, one Fd.CMD_CTX_STATUS_ADMIN_USED (s.cmd.ctxs.length - io), flag Fd.CMD_ACT_STATUS_ADMIT_STOPPED (s.cmd.act ≠ .idle),
   capped Fd.CMD_ACT_STATUS_LAST_PAUSE_US s.cmd.lastPause]
/-- A queue of the instance holds more contexts than its limit (R148). -/
def State.overLimit (s : State) (i : Nat) : Bool :=
  s.cmd.ctrls.any fun c => c.2.inst = i && c.2.queues.any fun q => decide (s.queueLimit i q.2.entries < s.queueHeld c.1 q.1)
def State.viewArb (s : State) : List ViewRow :=
  let i := s.cfg Pg.ARB Fd.ARB_INST_SEL_INDEX
  [one Fd.ARB_DEFICIT_D (s.defOf i % 2 ^ 32).toNat, one Fd.ARB_URGENT_UD (s.udOf i), one Fd.ARB_CTX_HELD_HELD (s.ioHeld i),
   one Fd.ARB_CTX_LIMIT_LIMIT (s.ioLimit i), flag Fd.ARB_INST_STATE_BACKLOG (s.cmd.ctxs.any fun x => x.2.inst = i && x.2.state = .admitted && x.2.qid ≠ 0),
   flag Fd.ARB_INST_STATE_OVER_LIMIT (s.overLimit i)]
def State.viewInstm (s : State) : List ViewRow :=
  [flag Fd.INSTM_ACTION_STATUS_BUSY (s.inst.acting ≠ []), one Fd.INSTM_ACTION_STATUS_RESULT s.inst.result,
   one Fd.INSTM_ENABLED_COUNT_COUNT s.enabledList.length, one Fd.INSTM_MBO_STATUS_RESULT s.inst.mboResult,
   one Fd.INSTM_MBO_STATUS_QUEUED (s.instOf (s.cfg Pg.INSTM Fd.INSTM_MBO_SEL_INDEX)).queue.length, (Fd.INSTM_MBI_PEND_PEND, s.mbiPend),
   one Fd.INSTM_NOTICE_SEQ_LAST s.inst.noticeSeq]
def State.viewInst (s : State) (i : Nat) : List ViewRow :=
  let t := s.instOf i
  [one Fd.INST_INFO_INSTANCE i, flag Fd.INST_INFO_ENABLED (s.enabled i), one Fd.INST_GEN_GENERATION t.gen, flag Fd.INST_GEN_RESETTING t.resetting,
   one Fd.INST_SHARE_UNITS (s.share i), flag Fd.INST_SHARE_SETTLED (s.settled i), one Fd.INST_SLM_ENTITLED_MIB (16 * s.share i),
   one Fd.INST_SLM_USED_USED_MIB (cdiv (s.slmUsed i) (2 ^ 20)), one Fd.INST_CAP_QUOTA_GB (KV.getD 6250 s.inst.cfgCap i),
   one Fd.INST_CAP_USED_USED_GB (cdiv (s.nsBytes i) 1000000000), one Fd.INST_URG_TARGET_US (KV.getD 1000 s.inst.cfgUrg i),
   one Fd.INST_URG_LATE_COUNT t.urgLate, flag Fd.INST_T2M_STATUS_PENDING t.t2mPending, flag Fd.INST_T2M_STATUS_ACKED t.t2mAcked,
   flag Fd.INST_T2M_STATUS_LOST t.t2mLost, one Fd.INST_T2M_STATUS_SEQ t.t2mSeq, (Fd.INST_M2T_DATA_DATA, word32 t.m2tData),
   flag Fd.INST_M2T_STATUS_FULL t.m2tFull, flag Fd.INST_M2T_STATUS_SOURCE t.m2tSource, flag Fd.INST_M2T_STATUS_NOTICE_LOST t.m2tLost,
   one Fd.INST_M2T_STATUS_QUEUED t.queue.length, one Fd.INST_M2T_STATUS_SEQ t.m2tSeq]

/-! ## Media (R177 to R251) -/

def BandState.code : BandState → Nat
  | .open_ => 1 | .closed => 2 | .folding => 3 | .rebuilding => 4 | .erasable => 5
/-- Bands with `n` unreadable members not yet rebuilt; 3 stands for three or more. -/
def State.bandsLost (s : State) (n : Nat) : Nat := (s.media.bands.filter fun b => min 3 (s.lostMembers b.2).length = n).length
/-- Progress of the catch-up patrol, per cent of the programmed pages. -/
def State.catchupPct (s : State) : Nat :=
  if s.media.catchup then min 100 (100 * s.media.catchupDone / max 1 (s.media.bands.foldl (fun n b => n + 34 * b.2.nextRow) 0)) else min 100 s.media.catchupDone
def State.maxWear (s : State) : Nat :=
  s.media.blocks.foldl (fun n e => if e.2.state = .retired ∨ e.2.state = .fenced ∨ e.2.state = .spare ∨ e.2.state = .system then n else max n e.2.wear) 0
def State.viewMedia (s : State) : List ViewRow :=
  let m := s.media
  let n := s.cfg Pg.MEDIA Fd.MEDIA_BAND_SEL_BAND
  let b := KV.get? m.bands n
  let ofBand := fun (g : Band → Nat) => (b.map g).getD 0
  let loc := fun (k : Nat) => ofBand fun b => b.members.getD k 0
  [flag Fd.MEDIA_STATUS_DIRECT m.direct, flag Fd.MEDIA_STATUS_FOLDING (m.folding || m.victims ≠ []),
   flag Fd.MEDIA_STATUS_URGENT (decide (s.slcFreePct ≤ s.cfg Pg.MEDIA Fd.MEDIA_FOLD_CTRL_FOLD_URGENT)), one Fd.MEDIA_STATUS_SLC_FREE_PCT s.slcFreePct,
   capped Fd.MEDIA_STATUS_OPEN_BANDS (m.bands.filter fun b => b.2.state = .open_).length, one Fd.MEDIA_SLC_FREE_BLOCKS s.slcFree,
   one Fd.MEDIA_QLC_FREE_BLOCKS s.qlcFree, one Fd.MEDIA_PHYS_USED_GIB (s.physUsed / 2 ^ 30), one Fd.MEDIA_PHYS_FREE_GIB (s.physFree / 2 ^ 30),
   one Fd.MEDIA_BAND_INFO_STATE (ofBand fun b => b.state.code), one Fd.MEDIA_BAND_INFO_STREAM (ofBand fun b => b.stream),
   one Fd.MEDIA_BAND_INFO_SLC (ofBand fun b => b.slc.toNat), one Fd.MEDIA_BAND_INFO_UNREADABLE (ofBand fun b => (s.lostMembers b).length),
   one Fd.MEDIA_BAND_INFO_VALID (ofBand fun b => b.permille), (Fd.MEDIA_BAND_MEMBER_LANE, fun k => loc k / 131072),
   (Fd.MEDIA_BAND_MEMBER_DIE, fun k => loc k / 8192 % 16), (Fd.MEDIA_BAND_MEMBER_PLANE, fun k => loc k / 2048 % 4),
   (Fd.MEDIA_BAND_MEMBER_BLOCK, fun k => loc k % 2048), (Fd.MEDIA_BAND_MEMBER_PARITY, fun k => ofBand fun _ => (decide (k = bandP n ∨ k = bandQ n)).toNat),
   (Fd.MEDIA_BAND_MEMBER_UNREADABLE, fun k => ofBand fun b => (s.memberLost b k).toNat), capped Fd.MEDIA_GC_STATUS_AVAIL s.availBands,
   one Fd.MEDIA_GC_STATUS_LEVEL m.level, flag Fd.MEDIA_GC_STATUS_CAP_EXCEEDED m.capExceeded, flag Fd.MEDIA_GC_STATUS_CATCHUP m.catchup,
   flag Fd.MEDIA_GC_STATUS_TIME_KNOWN s.time.known, one Fd.MEDIA_GC_STATUS_VICTIM_VALID m.victimValid, capped Fd.MEDIA_SPARE_STATUS_SPARES s.sparesS,
   capped Fd.MEDIA_SPARE_STATUS_AVAIL_PCT (min 100 s.availPct), capped Fd.MEDIA_SPARE_POOL_BLOCKS s.spareBlocks,
   one Fd.MEDIA_SPARE_POOL_LANES_LOW ((List.range 64).filter fun l =>
      ! s.fence.lanes.contains l && decide (s.laneCount l true false < s.cfg Pg.MEDIA Fd.MEDIA_SPARE_CTRL_REFILL_AT)).length,
   capped Fd.MEDIA_WEAR_MEAN (s.meanWear / 32), capped Fd.MEDIA_WEAR_MAX (s.maxWear / 32),
   one Fd.MEDIA_ENDURANCE_TB (256 * m.physWrites / 1000000000000), one Fd.MEDIA_PCT_USED_PERCENT s.pctUsed,
   one Fd.MEDIA_PATROL_STATUS_CATCHUP_PCT s.catchupPct, capped Fd.MEDIA_PATROL_STATUS_OVERDUE s.overdue]
def State.viewPar (s : State) : List ViewRow :=
  let r := s.media.bands.find? fun b => b.2.state = .rebuilding
  [one Fd.PAR_BANDS_1_COUNT (s.bandsLost 1), one Fd.PAR_BANDS_2_COUNT (s.bandsLost 2), one Fd.PAR_BANDS_LOST_COUNT (s.bandsLost 3),
   one Fd.PAR_REBUILD_BAND_BAND ((r.map (·.1)).getD 0xFFFFFFFF), one Fd.PAR_REBUILD_ROW_ROW ((r.map fun b => b.2.rebuildRow).getD 0),
   flag Fd.PAR_CHECK_STATUS_BUSY s.media.checkBusy, flag Fd.PAR_CHECK_STATUS_MISMATCH s.media.checkMis, one Fd.PAR_CHECK_STATUS_ROW s.media.checkRow]
def State.viewLane (s : State) (l : Nat) : List ViewRow :=
  [one Fd.LANE_LANE_STATUS_RATE (if s.media.laneDown.contains l then 2 else if s.media.lane24.contains l then 1 else 0),
   flag Fd.LANE_LANE_STATUS_FENCED (s.fence.lanes.contains l), one Fd.LANE_DIE_PRESENT_DIES (KV.getD 0 s.media.census l),
   one Fd.LANE_DIE_FENCED_DIES (maskOf 16 fun d => s.fence.dies.contains (16 * l + d))]

/-! ## The map cache (R199 to R215) -/

def State.replayMib (s : State) : Nat := s.replayLag / 2 ^ 20
def State.viewMapc (s : State) : List ViewRow :=
  let c := s.cache (s.cfg Pg.MAPC Fd.MAPC_QUAD_SEL_INDEX)
  [flag Fd.MAPC_STATUS_ENABLED c.enabled, flag Fd.MAPC_STATUS_DRAINING c.draining, flag Fd.MAPC_STATUS_RESIZED c.resized,
   one Fd.MAPC_STATUS_DIRTY_PCT (100 * c.dirty / max 1 c.capacity), one Fd.MAPC_STATUS_EVB_USED c.evb.length,
   one Fd.MAPC_LINES_VALID_LINES (c.lines fun w => w.valid), one Fd.MAPC_LINES_DIRTY_LINES c.dirty, one Fd.MAPC_QUEUES_MISSES c.misses.length,
   one Fd.MAPC_QUEUES_HINTS c.hints.length, one Fd.MAPC_CKPT_NO_NUMBER s.map.ckptNo, capped Fd.MAPC_REPLAY_LAG_MIB s.replayMib,
   (Fd.MAPC_CNT_COUNT, fun k => KV.getD 0 c.cnt k)]

/-! ## Tasks, cores and pools (R290 to R317, R320 to R347) -/

def State.viewTsk (s : State) (q : Nat) : List ViewRow :=
  let pg := Pg.TSK q
  let d := s.disp q
  let n := 4096 * q + s.cfg pg Fd.TSK_FLOW_SEL_SLOT
  let f := s.flow? n
  let of_ := fun (g : Flow → Nat) => (f.map g).getD 0
  let i := s.cfg pg Fd.TSK_INST_SEL_INDEX
  let ready := fun (p : Nat) => (d.readyAt p).length
  let cores := (List.range 64).filter fun k => ! coreFenced s.fence q k
  let has := fun (p : CoreS → Bool) => ((List.range 64).filter fun k => p (KV.getD .init s.kw.cores (64 * q + k))).length
  [one Fd.TSK_STORE_STATUS_USED d.used, one Fd.TSK_STORE_TOMB_TOMBSTONES d.tombs.length, capped Fd.TSK_READY_A_PRIO0 (ready 0),
   capped Fd.TSK_READY_A_PRIO1 (ready 1), capped Fd.TSK_READY_B_PRIO2 (ready 2), capped Fd.TSK_READY_B_PRIO3 (ready 3), one Fd.TSK_CORES_HEALTHY cores.length,
   one Fd.TSK_CORES_BUSY (has fun c => c.run.isSome), one Fd.TSK_CORES_TESTING (has fun c => c.testing),
   one Fd.TSK_FLOW_STATUS_STATE (of_ fun f => if f.endWith.isSome then 2 else 1), one Fd.TSK_FLOW_STATUS_INSTANCE (of_ fun f => f.inst),
   one Fd.TSK_FLOW_STATUS_PEND (of_ fun f => f.window.length), one Fd.TSK_FLOW_BASE_LO_BASE (of_ fun f => f.base),
   one Fd.TSK_FLOW_BASE_HI_BASE (of_ fun f => f.base / 2 ^ 32), capped Fd.TSK_FLOW_ERR_ERRORS (of_ fun f => f.errors),
   one Fd.TSK_INST_ENTRIES_ENTRIES (d.heldBy i), one Fd.TSK_INST_RESERVED_ENTRIES (16 * s.share i)]
def State.viewClu (s : State) (q c : Nat) : List ViewRow :=
  let pg := Pg.CLU q c
  let core := fun (k : Nat) => KV.getD CoreS.init s.kw.cores (64 * q + 16 * c + k)
  let st := fun (k : Nat) => if coreFenced s.fence q (16 * c + k) then 3 else if (core k).testing then 2 else if (core k).run.isSome then 1 else 0
  let x := core (s.cfg pg Fd.CLU_CORE_SEL_INDEX)
  let t := fun (g : Task → Nat) => (x.run.map fun r => g r.task).getD 0
  let u := KV.getD ClusterS.init s.kw.clusters (4 * q + c)
  let dirty := u.sets.foldl (fun n e => n + (e.2.ways.filter fun w => w.valid && w.dirty).length) 0
  (List.zip (List.range 16)
    [Fd.CLU_CORE_STATE_STATE0, Fd.CLU_CORE_STATE_STATE1, Fd.CLU_CORE_STATE_STATE2, Fd.CLU_CORE_STATE_STATE3, Fd.CLU_CORE_STATE_STATE4,
     Fd.CLU_CORE_STATE_STATE5, Fd.CLU_CORE_STATE_STATE6, Fd.CLU_CORE_STATE_STATE7, Fd.CLU_CORE_STATE_STATE8, Fd.CLU_CORE_STATE_STATE9,
     Fd.CLU_CORE_STATE_STATE10, Fd.CLU_CORE_STATE_STATE11, Fd.CLU_CORE_STATE_STATE12, Fd.CLU_CORE_STATE_STATE13, Fd.CLU_CORE_STATE_STATE14,
     Fd.CLU_CORE_STATE_STATE15]).map (fun e => (e.2, fun _ => st e.1))
  ++ [one Fd.CLU_CORE_TASK_INSTANCE (t (·.inst)), one Fd.CLU_CORE_TASK_NODE (t (·.node)), one Fd.CLU_CORE_TASK_ATTEMPT (t (·.attempt)),
      one Fd.CLU_CORE_TASK_PROGRAM (t (·.prog)), one Fd.CLU_LAST_EXC_CODE x.excCode, one Fd.CLU_LAST_EXC_INSTANCE x.excInst,
      one Fd.CLU_LAST_PC_OFFSET x.excPc, one Fd.CLU_FENCED_CORES (maskOf 16 fun k => s.fence.cores.contains (64 * q + 16 * c + k)),
      flag Fd.CLU_L2_STATUS_ENABLED u.enabled, flag Fd.CLU_L2_STATUS_DRAINING u.draining, one Fd.CLU_L2_STATUS_DIRTY dirty]
def State.viewBuf (s : State) (q : Nat) : List ViewRow :=
  let pg := Pg.BUF q
  let i := s.cfg pg Fd.BUF_REQ_SEL_INSTANCE
  let e := s.cfg pg Fd.BUF_REQ_SEL_CLASS
  let ch := fun (p : Nat) => s.bufCharge q i e p
  [(Fd.BUF_FREE_SRAM_BUFFERS, fun c => s.freeCount q 0 c), (Fd.BUF_FREE_DRAM_BUFFERS, fun c => s.freeCount q 1 c), one Fd.BUF_WRITE_FREE_BUFFERS (s.freeCount q 2 4),
   capped Fd.BUF_REQ_SRAM_KIB (cdiv (ch 0) 1024), capped Fd.BUF_REQ_DRAM_KIB (cdiv (ch 1) 1024), capped Fd.BUF_REQ_MIN_KIB (s.bufMin q i e 0 / 1024),
   flag Fd.BUF_REQ_STATE_WAITING ((s.pool q).waits.any fun w => w.inst = i && w.eng = e),
   flag Fd.BUF_REQ_STATE_BORROWING (decide (s.bufMin q i e 0 < ch 0) || decide (s.bufMin q i e 1 < ch 1)),
   capped Fd.BUF_RETIRED_BUFFERS (s.pool q).retired.length]

/-! ## Engines (R350 to R417) -/

def State.fencedMask (s : State) (q : Nat) (k : EngineKind) : Nat := maskOf k.count fun u => s.fence.units.contains (unitKey q k u)
/-- Units of a quadrant that run a task of a kind. -/
def State.busyMask (s : State) (q kind : Nat) : Nat := maskOf 8 fun u => (s.disp q).engine.any fun e => e.kind = kind && e.unit = some u
def State.waitingOf (s : State) (q kind : Nat) : Nat := ((s.disp q).engine.filter fun e => e.kind = kind && e.unit.isNone && ! e.suspended).length
def State.autoUsed (s : State) (q : Nat) : Nat := (s.mat! q).sections.foldl (fun n e => n + e.2.blocks) 0
def State.autoSpare (s : State) (q : Nat) : Nat := s.cfg (Pg.MAT q) Fd.MAT_AUTO_SPARE_BLOCKS
def State.viewMat (s : State) (q : Nat) : List ViewRow :=
  let pg := Pg.MAT q
  let m := s.mat! q
  let i := s.cfg pg Fd.MAT_INST_SEL_INDEX
  let e := m.probe[m.probeAt]?
  [one Fd.MAT_UNITS_HEALTHY (s.fence.unitsUp q .scan).length, one Fd.MAT_UNITS_BUSY (min 8 ((popMask (s.busyMask q 1)) + m.probeBusy.toNat)),
   one Fd.MAT_UNITS_FENCED (s.fencedMask q .scan), one Fd.MAT_UNITS_INDEX_FENCED (s.fencedMask q .index), one Fd.MAT_AUTO_STATUS_USED (s.autoUsed q),
   one Fd.MAT_AUTO_STATUS_SPARE_FREE (s.autoSpare q - s.autoBeyond q (s.autoSpare q)),
   flag Fd.MAT_AUTO_STATUS_OVERDRAWN (decide (s.autoSpare q < s.autoBeyond q (s.autoSpare q))), one Fd.MAT_INST_AUTO_HELD (m.heldBy i),
   one Fd.MAT_INST_AUTO_ENTITLED (s.autoE (s.autoSpare q) i), capped Fd.MAT_QUEUE_WAITING (s.waitingOf q 1), capped Fd.MAT_IDX_STATUS_SEARCHES m.searches.length,
   capped Fd.MAT_IDX_STATUS_UPDATES m.updates.length, one Fd.MAT_PROBE_RESULT_END ((e.map fun x => bitsOf x.1 8 0).getD 0),
   one Fd.MAT_PROBE_RESULT_MULTI ((e.map fun x => bitsOf x.1 9 9).getD 0), one Fd.MAT_PROBE_RESULT_LITERAL ((e.map fun x => bitsOf x.1 10 10).getD 0),
   flag Fd.MAT_PROBE_RESULT_VALID e.isSome, flag Fd.MAT_PROBE_RESULT_BUSY m.probeBusy, flag Fd.MAT_PROBE_RESULT_OVER m.probeOver,
   one Fd.MAT_PROBE_MATCH_INDEX ((e.map fun x => bitsOf x.2 11 0).getD 0), one Fd.MAT_PROBE_MATCH_PRIORITY ((e.map fun x => bitsOf x.2 27 16).getD 0)]
def State.suspended (s : State) (q kind : Nat) : Nat := ((s.disp q).engine.filter fun e => e.kind = kind && e.suspended).length
def State.viewCmp (s : State) (q : Nat) : List ViewRow :=
  let r := KV.getD ⟨0, 0⟩ s.cmp q
  [one Fd.CMP_UNITS_COMP_HEALTHY (s.fence.unitsUp q .compressor).length, one Fd.CMP_UNITS_DECOMP_HEALTHY (s.fence.unitsUp q .decompressor).length,
   one Fd.CMP_UNITS_COMP_FENCED (s.fencedMask q .compressor), one Fd.CMP_UNITS_DECOMP_FENCED (s.fencedMask q .decompressor),
   one Fd.CMP_UNITS_COMP_BUSY (s.busyMask q 3), one Fd.CMP_UNITS_DECOMP_BUSY (s.busyMask q 2), one Fd.CMP_CONTEXTS_COMP_USED (s.suspended q 3),
   one Fd.CMP_CONTEXTS_DECOMP_USED (min 16 (s.suspended q 2 + popMask (s.busyMask q 2))), capped Fd.CMP_QUEUE_COMP_WAITING (s.waitingOf q 3),
   capped Fd.CMP_QUEUE_DECOMP_WAITING (s.waitingOf q 2), capped Fd.CMP_RATIO_PERMILLE (1000 * r.framed / max 1 r.rawUnits)]
def State.viewDig (s : State) (q : Nat) : List ViewRow :=
  let d := s.digQ q
  [one Fd.DIG_UNITS_HEALTHY (s.fence.unitsUp q .digest).length, one Fd.DIG_UNITS_BUSY (maskOf 4 fun u => (KV.get? d.onUnit u).isSome),
   one Fd.DIG_UNITS_FENCED (s.fencedMask q .digest), one Fd.DIG_CONTEXTS_USED d.ctxs.length, capped Fd.DIG_CONTEXTS_WAITING d.waits.length]
/-- Namespace entries of the XTS ciphers (R408). -/
def State.xtsKeys (s : State) : Nat := (s.media.nss.filter fun e => ! e.2.keyLost).length
def State.viewXts (s : State) (q : Nat) : List ViewRow :=
  let n := (s.fence.unitsUp q .xts).length
  [one Fd.XTS_STATUS_PIPES n, flag Fd.XTS_STATUS_PARTNER (decide (n = 0)), one Fd.XTS_STATUS_KEYS s.xtsKeys]

/-! ## One field, and the level events -/

/-- The computed fields of a page. -/
def State.view (s : State) (pg : Nat) : List ViewRow :=
  let t := pageType pg
  let u := pageUnit pg
  let q := pageQuad pg
  if t = PT.DEV then s.viewDev
  else if t = PT.MODE then s.viewMode
  else if t = PT.CLK then s.viewClk
  else if t = PT.PWR then s.viewPwr
  else if t = PT.HOLD then s.viewHold
  else if t = PT.SENS then s.viewSens
  else if t = PT.LOG then s.viewLog
  else if t = PT.SEC then s.viewSec
  else if t = PT.NET then s.viewNet u
  else if t = PT.NETX then s.viewNetx
  else if t = PT.CLS then s.viewCls
  else if t = PT.CMD then s.viewCmd
  else if t = PT.ARB then s.viewArb
  else if t = PT.INSTM then s.viewInstm
  else if t = PT.MEDIA then s.viewMedia
  else if t = PT.MAPC then s.viewMapc
  else if t = PT.PAR then s.viewPar
  else if t = PT.TEST then s.viewTest
  else if t = PT.LANE then s.viewLane (16 * q + u)
  else if t = PT.CLU then s.viewClu q u
  else if t = PT.TSK then s.viewTsk q
  else if t = PT.BUF then s.viewBuf q
  else if t = PT.MAT then s.viewMat q
  else if t = PT.CMP then s.viewCmp q
  else if t = PT.DIG then s.viewDig q
  else if t = PT.XTS then s.viewXts q
  else if t = PT.INST then s.viewInst u
  else []
/-- What a field of a page shows in element `k`. -/
def State.shown (s : State) (pg : Nat) (f : Field) (k : Nat) : Nat :=
  match (s.view pg).find? fun e => e.1.off = f.off && e.1.lo = f.lo with
  | some e => e.2 k % (f.max1 + 1)
  | none => s.cfgAt pg f k

/-- Whether a level event's condition holds on a page: bit and condition (R34, and each chapter's events). -/
def State.levels (s : State) (pg : Nat) : List (Nat × Bool) :=
  let t := pageType pg
  let u := pageUnit pg
  let q := pageQuad pg
  let any := fun (p : Nat → Bool) => (List.range 256).any p
  if t = PT.MODE then [(15, s.mode.mode = .preserve)]
  else if t = PT.NET then [(9, (List.range 4).any fun k => (s.subOf u k).degraded), (10, s.fence.ports.contains u)]
  else if t = PT.NETX then
    [(8, s.net.spilling), (9, s.net.cookies), (10, decide (16384 ≤ s.connCount false) || decide (16384 ≤ s.connCount true)),
     (11, decide (0 < s.spillCap) && decide (s.spillCap ≤ s.spillUsed))]
  else if t = PT.CMD then [(10, s.cmd.act ≠ .idle)]
  else if t = PT.ARB then [(8, any s.overLimit), (9, any fun i => s.enabled i && decide (0 < s.ioLimit i) && decide (s.ioLimit i ≤ s.ioHeld i))]
  else if t = PT.INSTM then [(8, any fun i => (s.instOf i).t2mPending)]
  else if t = PT.INST then [(8, (s.instOf u).m2tFull)]
  else if t = PT.MEDIA then
    [(8, s.media.direct), (9, decide (s.slcFreePct ≤ s.cfg Pg.MEDIA Fd.MEDIA_FOLD_CTRL_FOLD_URGENT)), (11, decide (2 ≤ s.media.level)),
     (12, s.media.capExceeded), (13, s.media.catchup), (15, decide (s.availPct < 10))]
  else if t = PT.PAR then [(8, s.bandsLost 1 ≠ 0), (9, s.bandsLost 2 ≠ 0)]
  else if t = PT.LANE then [(9, s.media.lane24.contains (16 * q + u) && ! s.media.laneDown.contains (16 * q + u))]
  else if t = PT.MAPC then
    [(8, (List.range 4).any fun q => (s.cache q).draining), (11, decide (9 * 2 ^ 30 * s.cfg Pg.MAPC Fd.MAPC_CKPT_JOURNAL_GIB ≤ 10 * s.replayLag))]
  else if t = PT.HOLD then [(9, decide (s.hold.w < 16384)), (10, decide (2 ^ 20 * s.hold.w < s.ackedBytes)), (12, belowMinimum s.hold.capUf)]
  else if t = PT.TSK then
    [(8, decide (65536 ≤ (s.disp q).used + s.headReserve (s.disp q))),
     (9, (List.range 4).any fun p => decide (16384 ≤ ((s.disp q).readyAt p).length))]
  else if t = PT.BUF then [(9, (s.pool q).waits ≠ []), (10, s.freeCount q 2 4 = 0)]
  else if t = PT.MAT then
    [(9, decide (s.autoSpare q ≤ s.autoBeyond q (s.autoSpare q))), (12, decide (1024 ≤ (s.mat! q).updates.length))]
  else if t = PT.CMP then [(10, decide (16 ≤ s.suspended q 3) || decide (16 ≤ s.suspended q 2 + popMask (s.busyMask q 2)))]
  else if t = PT.DIG then [(10, (s.digQ q).ctxs.length = 16)]
  else if t = PT.SEC then [(9, s.sec.trngFailed)]
  else if t = PT.SENS then [(8, s.sensCount (fun x => x.state.warm) ≠ 0), (9, decide (s.sens.ceiling < 100))]
  else if t = PT.LOG then [(9, decide (1024 ≤ s.mirrorLag))]
  else if t = PT.PWR then [(8, ! s.mainOk || ! s.auxOk), (9, s.pwr.pwrdis)]
  else if t = PT.CLK then [(9, s.cfgB Pg.CLK Fd.CLK_PPS_CTRL_USE && ! s.ppsHere)]
  else if t = PT.TEST then [(10, s.test.run.isSome)]
  else []
/-- EV_RAW: the edges held, with the levels as they are (R34). -/
def State.evRaw (s : State) (pg : Nat) : Nat :=
  ((6, decide ((s.page pg).errCode ≠ 0)) :: s.levels pg).foldl (fun w e => if e.2 then w ||| 2 ^ e.1 else w) (s.page pg).evRaw
/-- Bits of EV_RAW that are levels. -/
def State.levelBits (s : State) (pg : Nat) : List Nat := 6 :: (s.levels pg).map Prod.fst

end Sys2Proof.Machine
end

