-- ==== Sys2Proof/Machine/WordOps.lean ====
section
/-! DEFINITION. Words of the control space: what a path reads, the staging image with its windows into tables, and what a
write does by its access code (R30 to R41, R459). -/

namespace Sys2Proof.Machine

/-! ## The staging image (R41) and the windows into tables (R81, R96, R459) -/

/-- The window of a page: the offset of its selector and those of the words that show the selected entry. -/
def window (pt : Nat) : Option (Nat × List Nat) :=
  if pt = PT.NETX ∨ pt = PT.CLS then some (0x40, (List.range 8).map fun n => 0x44 + 4 * n)
  else if pt = PT.INSTM then some (0x60, [0x64, 0x68]) else none
def inWindow (pt off : Nat) : Bool :=
  match window pt with | some w => w.2.contains off | none => false
/-- The word that a window shows of a live entry. -/
def State.windowWord (s : State) (pt entry off : Nat) : Nat :=
  if pt = PT.NETX then word32 (KV.getD (zeros 32) s.net.addrs entry) ((off - 0x44) / 4)
  else if pt = PT.CLS then word32 (KV.getD (zeros 32) s.net.rules entry) ((off - 0x44) / 4)
  else if off = 0x64 then KV.getD 6250 s.inst.cfgCap entry
  else KV.getD 1000 s.inst.cfgUrg entry
/-- The RWS fields of a word, live. -/
def State.liveRws (s : State) (pg off : Nat) : Nat :=
  let pt := pageType pg
  let own := fun o => RegMap.only pt o (· = .rws) (s.live (pg * 4096 + o))
  match window pt with
  | some w => if w.2.contains off then s.windowWord pt (own w.1) off else own off
  | none => own off
/-- The same word of the staging image. -/
def State.imageWord (s : State) (pg off : Nat) : Nat := (KV.get? (s.page pg).staged off).getD (s.liveRws pg off)
/-- The words of the staging image that differ from the live values. -/
def State.imageDiff (s : State) (pg : Nat) : KV Nat := (s.page pg).staged.filter fun e => e.2 ≠ s.liveRws pg e.1
/-- Put one word into the image. While a COMMIT runs every word stays listed, since the live values may yet change. -/
def State.putImage (s : State) (pg off w : Nat) : State :=
  let same : Bool := w = s.liveRws pg off && (s.page pg).job.isNone
  s.modPage pg fun p => { p with staged := if same then KV.del p.staged off else KV.put p.staged off w }
/-- Put one word into the image; a selector reloads its window from the live entry that it names (R459). -/
def State.stageWord (s : State) (pg off w : Nat) : State :=
  let pt := pageType pg
  let s := s.putImage pg off w
  match window pt with
  | some x => if off = x.1 then x.2.foldl (fun s o => s.putImage pg o (s.windowWord pt w o)) s else s
  | none => s
/-- A path may stage: it owns the image, or nobody does, or the image equals the live values. -/
def State.mayStage (s : State) (path : Path) (pg : Nat) : Bool :=
  (s.page pg).owner = 0 || (s.page pg).owner = path.num || (s.imageDiff pg).isEmpty
/-- A staged write makes its path the owner. -/
def State.ownStage (s : State) (path : Path) (pg : Nat) : State :=
  s.modPage pg fun p => { p with owner := path.num, ownerAt := s.now, job := p.job.map fun j => { j with post := path.num } }
/-- The path owns the image, and `f` stages, or STAGE_OWNED is recorded. -/
def State.staging (s : State) (path : Path) (pg off : Nat) (f : State → State) : State :=
  if s.mayStage path pg then f (s.ownStage path pg) else s.setErr pg 3 (errInfo path off)

/-- PAGE_CTRL.FACTORY: the factory values of every kept RWS field; of a window, the selected entry's. -/
def State.stageFactory (s : State) (path : Path) (pg : Nat) : State :=
  let pt := pageType pg
  let kept := fun (f : Field) => f.acc = .rws && f.kept
  let offs := ((RegMap.rows pt).filter kept).flatMap fun f => (List.range f.cnt).map fun k => f.off + 4 * k
  s.staging path pg 0x0C fun s =>
    (offs.eraseDups.foldl (fun s off =>
      s.putImage pg off ((RegMap.at pt off).foldl (fun w f => if kept f then setBits w f.hi f.lo f.start else w) (s.imageWord pg off))) s).modPage pg
        fun p => { p with factoryStaged := true }

/-! ## COMMIT (R42 to R44) -/

def hasCap (pg bit : Nat) : Bool := (RegMap.caps (pageType pg)).testBit bit
def State.commitStatus (s : State) (pg : Nat) : Nat :=
  let p := s.page pg
  p.reason + 256 * p.rule + 65536 * (p.commits % 256) + 2 ^ 30 * p.ok.toNat + 2 ^ 31 * p.job.isSome.toNat
/-- COMMIT.GO: taken, or ignored while one runs. A COMMIT taken closes every expert region of the page. -/
def State.commitGo (s : State) (path : Path) (pg : Nat) (w : Waiter) : State :=
  if ! hasCap pg 0 then s
  else if (s.page pg).job.isSome then s.setErr pg 4 (errInfo path 0x14)
  else
    let s := [Path.mp, Path.manager].foldl (fun s p => if s.expertOpen p pg then s.closeExpert p pg else s) s
    let d := s.imageDiff pg
    s.modPage pg fun p =>
      { p with job := some { snap := d, factory := p.factoryStaged, post := 0, waiter := w }, factoryStaged := false }

/-! ## The header (R32 to R35, R44) -/

def PageSt.view (p : PageSt) : Path → Bool
  | .mp => p.viewMp | .manager => p.viewMgr | .tenant _ => p.viewTen
def PageSt.setView (p : PageSt) (path : Path) (b : Bool) : PageSt :=
  match path with
  | .mp => { p with viewMp := b } | .manager => { p with viewMgr := b } | .tenant _ => { p with viewTen := b }
/-- The slot whose MINOR a page shows. -/
def State.pageVer (s : State) (pg : Nat) : Nat := 256 * (s.pageMajor pg % 256) + Config.minor s.fw.active (pageType pg) % 256
def State.evout (s : State) (pg : Nat) : Nat := (KV.getD 1 s.ctl.regs (pg * 4096 + 0x0C)) % 2
def State.evMask (s : State) (pg : Nat) : Nat := KV.getD 0 s.ctl.regs (pg * 4096 + 0x24)
def State.pageStatus (s : State) (path : Path) (pg : Nat) : Nat :=
  let p := s.page pg
  (s.expertOpen path pg).toNat + 2 * (! (s.imageDiff pg).isEmpty).toNat + 4 * p.owner + 16 * p.lockUntil.isSome.toNat
    + 32 * p.saveDue.isSome.toNat + 64 * p.factoryRestored.toNat + 256 * s.unitState pg
/-- A word of the header, as a path reads it. -/
def State.headerWord (s : State) (path : Path) (pg off : Nat) : Nat :=
  let p := s.page pg
  if off = 0x00 then pageId pg
  else if off = 0x04 then s.pageVer pg
  else if off = 0x08 then RegMap.caps (pageType pg)
  else if off = 0x0C then s.evout pg + 2 * (p.view path).toNat
  else if off = 0x10 then s.pageStatus path pg
  else if off = 0x18 then (if hasCap pg 0 then s.commitStatus pg else 0)
  else if off = 0x20 then s.evRaw pg
  else if off = 0x24 then s.evMask pg
  else if off = 0x28 then s.evRaw pg - (s.evRaw pg &&& s.evMask pg)
  else if off = 0x34 then p.errCode + 65536 * p.errCount
  else if off = 0x38 then p.errInfo
  else 0
/-- The defined RO bits of a header word. -/
def headerRo (pg off : Nat) : Nat :=
  if off = 0x00 then 0xFFFFFFF0 else if off = 0x04 then 0xFFFF else if off = 0x08 then 0xFF0F else if off = 0x10 then 0x37F
  else if off = 0x18 then (if hasCap pg 0 then 0xC0FFFFFF else 0)
  else if off = 0x20 ∨ off = 0x28 ∨ off = 0x34 ∨ off = 0x38 then 0xFFFFFFFF else 0

/-- EV_SET: an edge event stays; a level event follows its condition again after a cycle. -/
def State.evSet (s : State) (pg w : Nat) : State :=
  let m := (s.levelBits pg).foldl (fun m b => m - (m &&& 2 ^ b)) w
  s.modPage pg fun p => { p with evRaw := p.evRaw ||| m }
/-- EV_CLR: bit 6 also clears ERR_CODE and ERR_INFO. -/
def State.evClr (s : State) (pg w : Nat) : State :=
  let s := s.modPage pg fun p => { p with evRaw := p.evRaw - (p.evRaw &&& w) }
  if w.testBit 6 then s.modPage pg fun p => { p with errCode := 0, errCount := 0, errInfo := 0 } else s

/-- EXPERT_KEY (R44). A tenant's writes are ignored. -/
def State.expertKey (s : State) (path : Path) (pg w : Nat) : State :=
  let first := 0x5EA50000 + pg * 4096 % 65536
  let u := (s.page pg).unlock path
  let bad := errInfo path 0x1C
  if ! hasCap pg 1 ∨ path.num = 3 then s
  else if (s.page pg).lockUntil.isSome then s.setErr pg 5 bad
  else if w = first then s.modPage pg fun p => p.setUnlock path { u with armed := some s.now }
  else if w = 0xFFFFFFFF - first ∧ u.armed.any (fun t => decide (s.now - t ≤ secs 1)) then
    (s.modPage pg fun p => p.setUnlock path { u with armed := none, openUntil := some (s.now + secs 10) }).setEv pg 2
  else
    let s := ((s.modPage pg fun p => p.setUnlock path { u with armed := none, fails := s.now :: u.fails.filter fun t => decide (s.now - t < secs 60) }).setErr pg 5 bad).setEv pg 3
    let p := s.page pg
    let n := ((p.mp.fails ++ p.mgr.fails).filter fun t => decide (s.now - t < secs 60)).length
    if n < 4 then s else (s.modPage pg fun p => { p with lockUntil := some (s.now + secs 60) }).logEv pg 0x0211 .notice path.inst

/-- A write of a header word. `w` is the waiter of a COMMIT that it takes. -/
def State.putHeader (s : State) (path : Path) (pg off v : Nat) (w : Waiter) : State :=
  if off = 0x0C then
    let s := ((s.setLive (pg * 4096 + 0x0C) (v % 2)).wantSave pg).modPage pg fun p => p.setView path (v.testBit 1)
    let s := if v.testBit 2 then s.reloadStage pg else s
    if v.testBit 3 then s.stageFactory path pg else s
  else if off = 0x14 then (if v.testBit 0 then s.commitGo path pg w else s)
  else if off = 0x1C then s.expertKey path pg v
  else if off = 0x24 then (s.setLive (pg * 4096 + 0x24) v).wantSave pg
  else if off = 0x2C then s.evSet pg v
  else if off = 0x30 then s.evClr pg v
  else if v &&& headerRo pg off ≠ s.headerWord path pg off &&& headerRo pg off then s.setErr pg 1 (errInfo path off)
  else s

/-! ## Reads (R30, R31, R36, R39) -/

/-- The fields of a word, as a path reads them. -/
def State.fieldWord (s : State) (path : Path) (pg off : Nat) : Nat :=
  let staged := (s.page pg).view path
  (RegMap.at (pageType pg) off).foldl (fun w f =>
    match f.acc with
    | .wo | .w1s => w
    | .rws => setBits w f.hi f.lo (bitsOf (if staged then s.imageWord pg off else s.liveRws pg off) f.hi f.lo)
    | _ => setBits w f.hi f.lo (s.shown pg f ((off - f.off) / 4))) 0
/-- A word as a path reads it. -/
def State.peek (s : State) (path : Path) (pg off : Nat) : Nat :=
  if (pageInfo pg).isNone ∨ ! path.reaches pg off ∨ ! s.pathUp path then 0
  else if s.unitState pg ≠ 0 ∧ off ≠ 0x00 ∧ off ≠ 0x04 ∧ off ≠ 0x08 ∧ off ≠ 0x10 then 0
  else if off < 0x40 then s.headerWord path pg off
  else if 0x400 ≤ off ∧ ! s.expertOpen path pg then 0
  else if pg = Pg.DEV ∧ off = Fd.DEV_TIME_HI_NS.off then (KV.get? s.ctl.latch path.num).getD (s.fieldWord path pg off)
  else s.fieldWord path pg off
/-- A read of DEV.TIME_LO latches DEV.TIME_HI for its path (R31). -/
def State.latchTime (s : State) (path : Path) (pg off : Nat) : State :=
  if pg = Pg.DEV ∧ off = Fd.DEV_TIME_LO_NS.off ∧ s.unitState pg = 0 ∧ s.pathUp path ∧ path.reaches pg off then
    s.modCtl fun c => { c with latch := KV.put c.latch path.num (s.timeNs / 2 ^ 32 % 2 ^ 32) }
  else s
/-- Words from an offset on, in ascending order. -/
def State.readWords (s : State) (path : Path) (pg off : Nat) : Nat → List Nat × State
  | 0 => ([], s)
  | n + 1 =>
    let v := s.peek path pg off
    let (l, s) := (s.latchTime path pg off).readWords path pg (off + 4) n
    (v :: l, s)

/-! ## Writes (R40) -/

/-- What a write of a word with W1C, W1S or WO fields does. -/
def State.pageAction (s : State) (path : Path) (pg off v : Nat) : State :=
  let t := pageType pg
  let q := pageQuad pg
  let u := pageUnit pg
  let go : Bool := v.testBit 0
  let hi : Bool := v.testBit 31
  if t = PT.MODE then
    if off = 0x44 then s.modeReq (v % 16) else if off = 0x58 then s.skipClear v else s
  else if t = PT.DEV then (if off = 0x408 ∧ go then s.timeSetGo else s)
  else if t = PT.HOLD then (if off = 0x40C ∧ go then s.startMeas .discharge false else s)
  else if t = PT.SEC then
    if off = 0x424 then s.keyOpWord v (! s.sec.trngFailed)
    else if 0x440 ≤ off ∧ off < 0x4C8 then s.setLive (pg * 4096 + off) v else s
  else if t = PT.NET then (if off = 0x420 ∧ go then s.clearEq u else s)
  else if t = PT.CLS then (if off = 0x64 ∧ hi then s.revokeRule (v % 8192) else s)
  else if t = PT.INSTM then
    if off = 0x80 then s.actionWord path v
    else if off = 0x94 ∧ hi then s.mboGo
    else if off = 0x9C ∧ hi then s.ackT2m (v % 256) else s
  else if t = PT.INST then
    if off = 0x60 ∧ go then s.resetGo path u
    else if off = 0x200 ∧ go then s.ringVia path u
    else if off = 0x384 then
      let s := if go then s.ackM2t u else s
      if v.testBit 1 then s.clearLost u else s
    else s
  else if t = PT.MAPC then (if off = 0x408 ∧ go then s.hintGo else s)
  else if t = PT.PAR then (if off = 0x404 ∧ go then s.startCheck else s)
  else if t = PT.TEST then
    if off = 0x48 then
      let s := if go then s.testBegin true else s
      if v.testBit 1 then s.testAbort else s
    else if off = 0x404 ∧ go then s.testInject else s
  else if t = PT.CLU then (if off = 0x404 ∧ hi then s.testCore (64 * q + 16 * u + v % 16) else s)
  else if t = PT.MAT then
    if off = 0x508 then
      let s := if go then s.startProbe q else s
      if v.testBit 1 then s.stepProbe q else s
    else s
  else if t = PT.DIG then (if off = 0x60 then s.digCmd q v else s)
  else s

/-- A tenant's write into its mailbox while a message is pending (R158). -/
def State.mailboxBusy (s : State) (path : Path) (pg off : Nat) : Bool :=
  path.num = 3 && pageType pg = PT.INST && decide (0x100 ≤ off) && decide (off ≤ 0x200) && (s.instOf (pageUnit pg)).t2mPending
/-- RW fields take effect at once. Test selections are ignored while a test runs (R436). -/
def State.putRw (s : State) (path : Path) (pg off v : Nat) : State :=
  let pt := pageType pg
  if ! RegMap.any pt off (·.acc = .rw) then s
  else if pt = PT.TEST ∧ (off = 0x40 ∨ off = 0x44) ∧ s.test.run.isSome then s.setErr pg 0x0100 0
  else if s.mailboxBusy path pg off then s.setErr pg 0x0100 (errInfo path off)
  else
    let s := s.setLive (pg * 4096 + off) (RegMap.merge pt off (· = .rw) (s.live (pg * 4096 + off)) v)
    if RegMap.any pt off (fun f => f.acc = .rw && f.kept) then s.wantSave pg else s
/-- RWS fields go into the staging image. -/
def State.putRws (s : State) (path : Path) (pg off v : Nat) : State :=
  let pt := pageType pg
  if RegMap.any pt off (·.acc = .rws) then s.staging path pg off fun s => s.stageWord pg off (RegMap.only pt off (· = .rws) v) else s
/-- An RO field is written with a value that differs from what it holds. -/
def State.roDiffers (s : State) (pg off v : Nat) : Bool :=
  RegMap.any (pageType pg) off fun f => f.acc = .ro && s.shown pg f ((off - f.off) / 4) ≠ bitsOf v f.hi f.lo
/-- A write of a word of the page's own map. -/
def State.putBody (s : State) (path : Path) (pg off v : Nat) : State :=
  let ro := s.roDiffers pg off v
  let s := ((s.putRw path pg off v).putRws path pg off v).pageAction path pg off v
  if ro then s.setErr pg 1 (errInfo path off) else s
/-- A write of a word by a path that reaches it, to a page whose unit is up. -/
def State.putWord (s : State) (path : Path) (pg off v : Nat) (w : Waiter) : State :=
  if off < 0x40 then s.putHeader path pg off v w else s.putBody path pg off v
/-- The offset lies in an expert region. -/
def inExpert (pg off : Nat) : Bool := decide (0x400 ≤ off) && hasCap pg 1
/-- A write of one word by a path. Without an expert region, the offsets from 0x400 on are reserved (R6, R32). -/
def State.writeWord (s : State) (path : Path) (pg off v : Nat) : State :=
  if off % 4 ≠ 0 ∨ (0x400 ≤ off ∧ ! hasCap pg 1) then s else s.viaPath path pg off fun s => s.putWord path pg off v .nobody
/-- Several words in ascending order. -/
def State.putWords (s : State) (path : Path) (pg off : Nat) (w : Waiter) : List Nat → State
  | [] => s
  | v :: l => (s.putWord path pg off v w).putWords path pg (off + 4) w l

end Sys2Proof.Machine
end

