-- ==== Sys2Proof/Machine/CommitOps.lean ====
section
/-! DEFINITION. The checks of a COMMIT, what applying its set does, and its outcome (R42 to R50, with the agreement rules of
R75, R106 to R108, R162, R193, R194, R218, R252, R317 and R370). -/

namespace Sys2Proof.Machine

/-- The value that a snapshot gives a field, in element `k`. -/
def State.snapAt (s : State) (pg : Nat) (snap : KV Nat) (f : Field) (k : Nat) : Nat :=
  let off := f.off + 4 * k
  bitsOf ((KV.get? snap off).getD (s.liveRws pg off)) f.hi f.lo
/-- The entry that a window holds in a snapshot. -/
def State.snapEntry (s : State) (pg : Nat) (snap : KV Nat) (w : Nat × List Nat) : List Byte :=
  w.2.flatMap fun o => leBytes 4 ((KV.get? snap o).getD (s.liveRws pg o))

/-! ## Agreement rules: the number of the first that fails, 0 for none -/

/-- The number of the first condition that does not hold. -/
def firstFalse (l : List (Nat × Bool)) : Nat := ((l.find? fun e => ! e.2).map Prod.fst).getD 0

/-- NET (R106). -/
def State.rulesNet (s : State) (pg : Nat) (g : Field → Nat → Nat) : Nat :=
  let strict := g Fd.NET_ETS_STRICT_STRICT 0
  let bw := [Fd.NET_ETS_BW_LO_TC0, Fd.NET_ETS_BW_LO_TC1, Fd.NET_ETS_BW_LO_TC2, Fd.NET_ETS_BW_LO_TC3, Fd.NET_ETS_BW_HI_TC0, Fd.NET_ETS_BW_HI_TC1,
    Fd.NET_ETS_BW_HI_TC2, Fd.NET_ETS_BW_HI_TC3]
  let sum := (List.zip (List.range 8) bw).foldl (fun n e => if strict.testBit e.1 then n else n + g e.2 0) 0
  let valid := fun n => g Fd.NET_MACSEC_SA_VALID n = 1
  let active := fun n => g Fd.NET_MACSEC_SA_ACTIVE n = 1
  let sub := fun k =>
    (([4 * k, 4 * k + 1].filter fun n => valid n && active n).length = 1) && (valid (4 * k + 2) || valid (4 * k + 3))
  firstFalse
    [(1, strict = 255 || sum = 100),
     (2, g Fd.NET_NET_CTRL_BREAKOUT 0 = s.cfg pg Fd.NET_NET_CTRL_BREAKOUT || s.cfg pg Fd.NET_NET_CTRL_ENABLE = 0 || g Fd.NET_NET_CTRL_ENABLE 0 = 0),
     (3, g Fd.NET_NET_CTRL_MACSEC_MODE 0 = 0 || (List.range (min 4 (2 ^ g Fd.NET_NET_CTRL_BREAKOUT 0))).all sub),
     (4, (List.range 16).all fun n => ! valid n || (s.keySlot (g Fd.NET_MACSEC_SA_KEY_SLOT n)).type = 3),
     (5, (List.range 16).all fun n => ! active n || (valid n && decide (n % 4 < 2)))]
/-- Two address entries share an address on one VLAN and an overlapping port mask. -/
def entriesClash (a b : List Byte) : Bool :=
  let fl := fun (l : List Byte) n => (l.getD 0x10 0).getLsbD n
  let vlan := fun (l : List Byte) => beNat (sliceB l 0x12 2) % 4096
  fl a 0 && fl b 0 && fl a 1 = fl b 1 && sliceB a 0 16 = sliceB b 0 16 && vlan a = vlan b && (a.getD 0x11 0 &&& b.getD 0x11 0) ≠ 0
/-- NETX (R107). -/
def State.rulesNetx (s : State) (pg : Nat) (snap : KV Nat) (g : Field → Nat → Nat) : Nat :=
  let kmax := g Fd.NETX_ECN_KMAX 0
  let on := g Fd.NETX_SPILL_ON 0
  let e := s.snapEntry pg snap (0x40, (List.range 8).map fun n => 0x44 + 4 * n)
  let any := fun (l : List Field) => l.any fun f => g f 0 = 1
  firstFalse
    [(1, decide (g Fd.NETX_ECN_KMIN 0 < kmax) && decide (kmax ≤ on) && decide (on ≤ 60)),
     (2, any [Fd.NETX_TLS_AES256, Fd.NETX_TLS_AES128] && any [Fd.NETX_TLS_X25519, Fd.NETX_TLS_SECP384]),
     (3, any [Fd.NETX_AUTH_SHA256, Fd.NETX_AUTH_SHA384, Fd.NETX_AUTH_SHA512]
       && any [Fd.NETX_AUTH_NULL_DH, Fd.NETX_AUTH_FFDHE3072, Fd.NETX_AUTH_FFDHE4096, Fd.NETX_AUTH_FFDHE8192]),
     (4, s.net.addrs.all fun x => x.1 = g Fd.NETX_ADDR_SEL_INDEX 0 || ! entriesClash e x.2)]
/-- A valid rule is well formed (R96, R108). -/
def ruleInRange (r : List Byte) : Bool :=
  let b := fun n => (r.getD n 0).toNat
  let max := if (r.getD 2 0).getLsbD 1 then 128 else 32
  ! (r.getD 2 0).getLsbD 0 ||
    (decide (b 2 < 16) && decide (b 4 < 16) && b 0x1F = 0 && decide (b 7 ≤ max) && beNat (sliceB r 8 16) % 2 ^ (128 - min 128 (b 7)) = 0 && decide (b 6 ≤ 2))
/-- CLS (R108). -/
def State.rulesCls (s : State) (r : List Byte) : Nat :=
  let valid := (r.getD 2 0).getLsbD 0
  let dst := beNat (sliceB r 0x18 2)
  firstFalse
    [(1, ! valid || ! (r.getD 2 0).getLsbD 2 || (r.getD 6 0).toNat = 1),
     (2, ! valid || dst = 0xFFFF || (decide (dst < 512) && ((KV.getD (zeros 32) s.net.addrs dst).getD 0x10 0).getLsbD 0))]
/-- Instances enabled in a snapshot of INSTM. -/
def snapEnabled (g : Field → Nat → Nat) (i : Nat) : Bool :=
  i = 0 || (if i < 32 then (g Fd.INSTM_ENABLE_EN_0 0).testBit (i - 1) else (g Fd.INSTM_ENABLE_EN (i / 32 - 1)).testBit (i % 32))
def snapShare (g : Field → Nat → Nat) (i : Nat) : Nat := if i = 0 then g Fd.INSTM_SHARE_UNITS_0 0 else g Fd.INSTM_SHARE_UNITS (i - 1)
/-- INSTM (R162). -/
def State.rulesInstm (s : State) (g : Field → Nat → Nat) : Nat :=
  let all := List.range 256
  let en := all.filter (snapEnabled g)
  let expl : Bool := g Fd.INSTM_SHARE_CTRL_EXPLICIT 0 = 1
  let sel := g Fd.INSTM_CFG_SEL_INDEX 0
  let quota := g Fd.INSTM_CFG_CAP_QUOTA_GB 0
  firstFalse
    [(1, ! expl || (en.foldl (fun n i => n + snapShare g i) 0) = 4096),
     (2, ! expl || all.all fun i => if en.contains i then decide (16 ≤ snapShare g i) else snapShare g i = 0),
     (3, decide (en.foldl (fun n i => n + (if i = sel then quota else KV.getD 6250 s.inst.cfgCap i)) 0 ≤ 1600000)),
     (4, decide (s.nsBytes sel ≤ 1000000000 * quota)),
     (5, en.all fun i => ! s.purging i)]
/-- MEDIA (R193, R252). -/
def rulesMedia (g : Field → Nat) : Nat :=
  firstFalse
    [(1, decide (g Fd.MEDIA_FOLD_CTRL_FOLD_URGENT < g Fd.MEDIA_FOLD_CTRL_FOLD_HI)),
     (2, decide (g Fd.MEDIA_CLASSIFY_T0_MAX < 60 * g Fd.MEDIA_CLASSIFY_T1_MAX) && decide (g Fd.MEDIA_CLASSIFY_T1_MAX < 24 * g Fd.MEDIA_CLASSIFY_T2_MAX)),
     (3, decide (3 ≤ g Fd.MEDIA_FOLD_CTRL_FOLD_URGENT)),
     (4, decide (g Fd.MEDIA_GC_CTRL_BAND_RESERVE < g Fd.MEDIA_GC_CTRL_GC_URGENT) && decide (g Fd.MEDIA_GC_CTRL_GC_URGENT < g Fd.MEDIA_GC_CTRL_GC_START)),
     (5, decide (g Fd.MEDIA_PATROL_CTRL_MARGIN_REFRESH < g Fd.MEDIA_PATROL_CTRL_MARGIN_OK)),
     (6, decide (g Fd.MEDIA_SPARE_CTRL_REFILL_AT < g Fd.MEDIA_SPARE_CTRL_REFILL_TO)),
     (7, decide (g Fd.MEDIA_CAP_RESERVE_HYST_GB ≤ g Fd.MEDIA_CAP_RESERVE_RESERVE_GB))]
/-- BUF (R317). -/
def rulesBuf (g : Field → Nat) : Nat :=
  let sum := fun (l : List Field) => l.foldl (fun n f => n + g f) 0
  firstFalse
    [(1, decide (sum [Fd.BUF_RES_LO_RES0, Fd.BUF_RES_LO_RES1, Fd.BUF_RES_LO_RES2, Fd.BUF_RES_LO_RES3, Fd.BUF_RES_HI_RES4] ≤ 100)),
     (2, sum [Fd.BUF_SPLIT_SRAM_MIB0, Fd.BUF_SPLIT_SRAM_MIB1, Fd.BUF_SPLIT_SRAM_MIB2, Fd.BUF_SPLIT_SRAM_MIB3, Fd.BUF_SPLIT_SRAM_MIB4] = 48
       && decide (1 ≤ g Fd.BUF_SPLIT_SRAM_MIB4)),
     (3, sum [Fd.BUF_SPLIT_DRAM_UNITS0, Fd.BUF_SPLIT_DRAM_UNITS1, Fd.BUF_SPLIT_DRAM_UNITS2, Fd.BUF_SPLIT_DRAM_UNITS3, Fd.BUF_SPLIT_DRAM_UNITS4] = 16
       && decide (g Fd.BUF_SPLIT_DRAM_UNITS0 ≤ 8))]
/-- MAT (R370). -/
def State.rulesMat (s : State) (q : Nat) (g : Field → Nat) : Nat :=
  let spare := g Fd.MAT_AUTO_SPARE_BLOCKS
  let key := 64 * g Fd.MAT_PROBE_SEL_INSTANCE + 4 * g Fd.MAT_PROBE_SEL_PROGRAM + g Fd.MAT_PROBE_SEL_SECTION
  firstFalse
    [(1, decide (s.autoBeyond q spare ≤ spare)), (2, g Fd.MAT_PROBE_SEL_VALID = 0 || (KV.get? (s.mat! q).sections key).isSome),
     (3, s.enabledList.all fun i => decide (s.autoE spare i ≤ g Fd.MAT_AUTO_LIMIT_BLOCKS))]
/-- The first agreement rule of a page that a snapshot breaks. -/
def State.brokenRule (s : State) (pg : Nat) (snap : KV Nat) : Nat :=
  let t := pageType pg
  let g := s.snapAt pg snap
  let g0 := fun f => g f 0
  if t = PT.MODE then
    firstFalse [(1, ! (g0 Fd.MODE_STAGE_FORCE_FORCE11 = 3 && g0 Fd.MODE_STAGE_FORCE_FORCE12 = 3)),
      (2, g0 Fd.MODE_START_CTRL_AUTO_RETURN = 0 || g0 Fd.MODE_START_CTRL_AUTO = 1)]
  else if t = PT.NET then s.rulesNet pg g
  else if t = PT.NETX then s.rulesNetx pg snap g
  else if t = PT.CLS then s.rulesCls (s.snapEntry pg snap (0x40, (List.range 8).map fun n => 0x44 + 4 * n))
  else if t = PT.INSTM then s.rulesInstm g
  else if t = PT.MEDIA then rulesMedia g0
  else if t = PT.PAR then firstFalse [(1, decide (g0 Fd.PAR_REBUILD_CTRL_SHARE_PCT < g0 Fd.PAR_REBUILD_CTRL_URGENT_PCT))]
  else if t = PT.MAPC then firstFalse [(1, decide (g0 Fd.MAPC_CLEAN_DIRTY_LO < g0 Fd.MAPC_CLEAN_DIRTY_HI))]
  else if t = PT.BUF then rulesBuf g0
  else if t = PT.MAT then s.rulesMat (pageQuad pg) g0
  else 0

/-! ## The other checks, in the order of R43's table -/

/-- Every staged field lies in its range. -/
def State.snapInRange (s : State) (pg : Nat) (snap : KV Nat) : Bool :=
  let t := pageType pg
  snap.all (fun e => RegMap.inRange t e.1 e.2)
    && (t ≠ PT.CLS || ruleInRange (s.snapEntry pg snap (0x40, (List.range 8).map fun n => 0x44 + 4 * n)))
/-- In HOLD-UP a COMMIT is rejected with MODE on every page but HOLD and LOG (R49). -/
def State.holdupBlocks (s : State) (pg : Nat) : Bool := s.inHoldup && pg ≠ Pg.HOLD && pg ≠ Pg.LOG
/-- The present mode forbids the change (R49, R75, R143). -/
def State.modeBlocks (s : State) (pg : Nat) (snap : KV Nat) : Bool :=
  s.holdupBlocks pg
    || (pg = Pg.MODE && s.mode.mode = .start && (KV.get? snap 0x400).isSome)
    || (pg = Pg.INSTM && (s.mode.mode = .reduced || s.mode.mode = .preserve)
      && (List.range 256).any fun i => snapEnabled (s.snapAt pg snap) i && ! s.enableBit i)
/-- The set enables a fenced unit: a quadrant's map cache. -/
def State.enablesFenced (s : State) (pg : Nat) (snap : KV Nat) : Bool :=
  pg = Pg.MAPC && s.fence.quads.any fun q =>
    (s.snapAt pg snap Fd.MAPC_CTRL_ENABLE 0).testBit q && ! (s.cfg pg Fd.MAPC_CTRL_ENABLE).testBit q
/-- REASON and RULE of a set (R43). A set with no change is accepted, unless the mode, an expiry or an uncorrectable word rejects
every COMMIT. -/
def State.commitReason (s : State) (pg : Nat) (snap : KV Nat) (ecc : Bool) : Nat × Nat :=
  let expired := (s.page pg).expired
  if snap.isEmpty ∧ ! expired ∧ ! ecc ∧ ! s.holdupBlocks pg then (8, 0)
  else
    let cls : Bool := pg = Pg.CLS && ! s.snapInRange pg snap
    let rule := s.brokenRule pg snap
    if cls then (2, 0)
    else if rule ≠ 0 then (1, rule)
    else if ! s.snapInRange pg snap then (2, 0)
    else if s.modeBlocks pg snap then (3, 0)
    else if s.enablesFenced pg snap then (4, 0)
    else if expired then (5, 0)
    else if ecc then (6, 0)
    else (0, 0)

/-! ## Applying a set -/

/-- A window's entry, or its two values, goes into its table (R81, R96, R459). -/
def State.applyWindow (s : State) (pg : Nat) (snap : KV Nat) : State :=
  let t := pageType pg
  match window t with
  | none => s
  | some w =>
    if ! (snap.any fun e => e.1 = w.1 || w.2.contains e.1) then s
    else
      let i := (KV.get? snap w.1).getD (s.liveRws pg w.1)
      let e := s.snapEntry pg snap w
      if t = PT.NETX then s.modNet fun n => { n with addrs := KV.set (zeros 32) n.addrs i e }
      else if t = PT.CLS then s.modNet fun n => { n with rules := KV.set (zeros 32) n.rules i e }
      else s.modInst fun m =>
        { m with cfgCap := KV.set 6250 m.cfgCap i (leNat (sliceB e 0 4)), cfgUrg := KV.set 1000 m.cfgUrg i (leNat (sliceB e 4 4)) }
/-- The changed words become live together. -/
def State.applyWords (s : State) (pg : Nat) (snap : KV Nat) : State :=
  let t := pageType pg
  let s := s.applyWindow pg snap
  snap.foldl (fun s e =>
    if inWindow t e.1 then s
    else s.setLive (pg * 4096 + e.1) (RegMap.merge t e.1 (· = .rws) (s.live (pg * 4096 + e.1)) e.2)) s

/-- A map cache's enable changes (R213, R214). -/
def State.applyCache (s : State) (q : Nat) (on : Bool) : State :=
  let c := s.cache q
  if ! on then
    if ! c.enabled then s
    else
      let s := (s.modCache q fun c => { c with draining := true }).writeBackAll q
      if c.resizing then s else s.packSegments q
  else if c.enabled then s.modCache q fun c => { c with draining := c.resizing }
  else s.modCache q fun c => { c with enabled := true, draining := false, sets := [] }
/-- A cluster's L2 likewise (R345). -/
def State.applyL2 (s : State) (q cl : Nat) (on : Bool) : State :=
  s.modCluster q cl fun c =>
    if ! on then { c with draining := c.enabled } else if c.enabled then { c with draining := false } else { c with enabled := true, sets := [] }
/-- What follows when a page's new values apply; `t` is the state before. -/
def State.applyEffects (s t : State) (pg : Nat) (snap : KV Nat) : State :=
  let ty := pageType pg
  let q := pageQuad pg
  let u := pageUnit pg
  let turned := fun (f : Field) => s.cfg pg f ≠ t.cfg pg f
  if ty = PT.MODE then t.withAuto fun _ => s
  else if ty = PT.NET then
    let up : Bool := s.cfgB pg Fd.NET_NET_CTRL_ENABLE && ! t.cfgB pg Fd.NET_NET_CTRL_ENABLE
    let s := t.withAna u fun _ => if turned Fd.NET_NET_CTRL_ENABLE ∨ turned Fd.NET_NET_CTRL_BREAKOUT then s.portDown u else s
    let s :=
      if up then (((s.modNet fun n => { n with portUp := insNat u n.portUp }).modCage u fun c => { c with cutOff := false }).cageCheck u).clearSkip (11 + u)
      else s
    let sa := fun (x : State) n => (x.cfgAt pg Fd.NET_MACSEC_SA_VALID n, x.cfgAt pg Fd.NET_MACSEC_SA_KEY_SLOT n, x.cfgAt pg Fd.NET_MACSEC_SA_AN n)
    let new := (List.range 16).filter fun n => n % 4 < 2 && s.cfgAt pg Fd.NET_MACSEC_SA_VALID n = 1 && sa s n ≠ sa t n
    s.modNet fun m => { m with pn := new.foldl (fun l n => KV.del l (16 * u + n)) m.pn }
  else if ty = PT.DEV then
    if ! s.cfgB pg Fd.DEV_PTP_ENABLE ∨ turned Fd.DEV_PTP_DOMAIN then s.ptpLost else s
  else if ty = PT.CLK then (if s.cfgB pg Fd.CLK_PPS_CTRL_USE then s else s.modTime fun m => { m with ppsAligned := false })
  else if ty = PT.NETX then s.cookieTrack
  else if ty = PT.INSTM then
    if snap.any fun e => decide (e.1 < 0x60) || decide (0x400 ≤ e.1) then s.modInst fun m => { m with applyDue := true } else s
  else if ty = PT.MEDIA then s.levelTrack.directCheck.capCheck.spareCheck
  else if ty = PT.MAPC then
    let s := (List.range 4).foldl (fun s q => s.cleaner q) s
    (List.range 4).foldl (fun s q =>
      let on := (s.cfg pg Fd.MAPC_CTRL_ENABLE).testBit q
      if on = (t.cfg pg Fd.MAPC_CTRL_ENABLE).testBit q then s else s.applyCache q on) s
  else if ty = PT.CLU then (if turned Fd.CLU_L2CTRL_ENABLE then s.applyL2 q u (s.cfgB pg Fd.CLU_L2CTRL_ENABLE) else s)
  else s
/-- The set holds a kept field. -/
def setKept (pg : Nat) (snap : KV Nat) : Bool := snap.any fun e => RegMap.any (pageType pg) e.1 fun f => f.acc = .rws && f.kept
/-- An accepted set: applied, its ownership ended, its kept values to be saved. -/
def State.applySet (s : State) (pg : Nat) (j : CommitJob) : State :=
  let s := (s.applyWords pg j.snap).applyEffects s pg j.snap
  let d := s.imageDiff pg
  let s := s.modPage pg fun p => { p with staged := d, owner := if d.isEmpty then 0 else j.post, expired := false }
  let s := if setKept pg j.snap ∨ j.factory then s.wantSave pg else s
  if j.factory then s.setEv pg 7 else s

/-- The end of a COMMIT for whoever waits. -/
def State.tellWaiter (s : State) (pg : Nat) (ok : Bool) (w : Waiter) : State :=
  match w with
  | .nobody => s
  | .ctx n => s.finish n (if ok then St.ok else St.configRejected) (s.commitStatus pg) 0
  | .mctp tag => s.emit (.mctp tag (if ok then 0 else 3) (leBytes 4 (s.commitStatus pg)))
/-- The checks end (R42, R43): COMMIT_STATUS is written, BUSY clears, and the event is set. -/
def State.commitEnds (s : State) (pg : Nat) (ecc : Bool) : State :=
  match (s.page pg).job with
  | none => s
  | some j =>
    let r := s.commitReason pg j.snap ecc
    let ok : Bool := r.1 = 0 || r.1 = 8
    let s := s.modPage pg fun p => { p with job := none, reason := r.1, rule := r.2, commits := p.commits + 1, ok := ok }
    let s :=
      if ok then s.applySet pg j
      else
        let s := s.modPage pg fun p => { p with factoryStaged := p.factoryStaged || j.factory }
        if r.1 = 5 then s.modPage pg fun p => { p with expired := false } else if r.1 = 6 then s.reloadStage pg else s
    (s.setEv pg (if ok then 0 else 1)).tellWaiter pg ok j.waiter

end Sys2Proof.Machine
end

