-- ==== Sys2Proof/Machine/CtlEvents.lean ====
section
/-! DEFINITION. The commands of the control space: writes and reads by the paths, COMMIT, the expert unlock, saves and the
protection of register words (R30 to R52, R68, R120, R462). -/

namespace Sys2Proof.Machine

/-- The page and the offset of an address. -/
def pageOf (a : BitVec 26) : Nat := a.toNat / 4096
def offOf (a : BitVec 26) : Nat := a.toNat % 4096

/-- R40, and for a register whose writes have a row of their own the same effect. -/
def execRegisterWrite (path : Path) (addr : BitVec 26) (value : Word) (s : State) : Res :=
  .next (s.writeWord path (pageOf addr) (offOf addr) value.toNat)
/-- R41. -/
def execStagedWrite (path : Path) (addr : BitVec 26) (value : Word) (s : State) : Res :=
  .next (s.writeWord path (pageOf addr) (offOf addr) value.toNat)
/-- R42. -/
def execCommit (path : Path) (page : PageNo) (s : State) : Res := .next (s.writeWord path page.val 0x14 1)
/-- R42, R43. -/
def execCommitDone (page : PageNo) (ecc : Bool) (s : State) : Res := .next (s.commitEnds page.val ecc)
/-- R41: PAGE_CTRL with ABORT, its other bits as they stand. -/
def execPageCtrlAbort (path : Path) (page : PageNo) (s : State) : Res :=
  .next (s.viaPath path page.val 0x0C fun s => s.reloadStage page.val)
/-- R41: PAGE_CTRL with FACTORY, its other bits as they stand. -/
def execPageCtrlFactory (path : Path) (page : PageNo) (s : State) : Res :=
  .next (s.viaPath path page.val 0x0C fun s => s.stageFactory path page.val)
/-- R44. -/
def execExpertKeyWrite (path : Path) (page : PageNo) (value : Word) (s : State) : Res :=
  .next (s.writeWord path page.val 0x1C value.toNat)
/-- R45. -/
def execExpertRegionExpiry (path : Path) (page : PageNo) (s : State) : Res :=
  .next <| match ((s.page page.val).unlock path).openUntil with
    | none => s
    | some t => (s.reach t).expireExpert path page.val
/-- R44. -/
def execKeyLockoutEnd (page : PageNo) (s : State) : Res :=
  .next <| match (s.page page.val).lockUntil with
    | none => s
    | some t => (s.reach t).modPage page.val fun p => { p with lockUntil := none }
/-- R41. -/
def execStagingOwnerTimeout (page : PageNo) (s : State) : Res :=
  .next <| if (s.page page.val).owner = 0 then s else (s.reach ((s.page page.val).ownerAt + secs 60)).reloadStage page.val
/-- R34. -/
def execEvSetWrite (path : Path) (page : PageNo) (value : Word) (s : State) : Res :=
  .next (s.writeWord path page.val 0x2C value.toNat)
/-- R34. -/
def execEvClrWrite (path : Path) (page : PageNo) (value : Word) (s : State) : Res :=
  .next (s.writeWord path page.val 0x30 value.toNat)
/-- R31. -/
def execTimeLoRead (path : Path) (s : State) : Res := .next ((s.tickPage Pg.DEV).latchTime path Pg.DEV Fd.DEV_TIME_LO_NS.off)

/-! ## Control Read and Control Write (R30, R37, R38, R120) -/

/-- The path of an instance's admin queue, and where an address of a command of it lies. -/
def adminPath (inst : Nat) : Path := if inst = 0 then .manager else .tenant (Fin.ofNat 256 inst)
def adminAddr (inst : Nat) (addr : BitVec 26) : Nat × Nat :=
  if inst = 0 then (pageOf addr, offOf addr) else (Pg.INST inst + addr.toNat / 4096, addr.toNat % 4096)
/-- The words lie in one allocated page that the path reaches. -/
def accessOk (path : Path) (addr : BitVec 26) (pg off n : Nat) : Bool :=
  addr.toNat % 4 = 0 && n ≠ 0 && decide (n ≤ 1024) && decide (off + 4 * n ≤ 4096) && (pageInfo pg).isSome
    && (match path with | .tenant _ => decide (addr.toNat + 4 * n ≤ 0x400) | _ => true)

/-- What a Control Write makes of its words, on the admin queue or the management bus. -/
inductive WriteEnd where
  | denied | locked
  /-- A COMMIT was written while one ran. -/
  | busy
  /-- A COMMIT was taken, and its end decides. -/
  | waits
  | done
deriving DecidableEq, Repr

/-- A staged word of the write would be refused (R38), or a mailbox word of a tenant (R158). -/
def State.stagedRefused (s : State) (path : Path) (pg off : Nat) (l : List Nat) : Option Nat :=
  let rws := (List.range l.length).map fun k => off + 4 * k
  match rws.find? fun o => s.mailboxBusy path pg o && (RegMap.any (pageType pg) o fun f => f.acc = .rw || f.acc = .w1s) with
  | some o => some (0x0100 + 65536 * o)
  | none =>
    if s.mayStage path pg then none
    else (rws.find? fun o => RegMap.any (pageType pg) o (·.acc = .rws) || (o = 0x0C && (l.getD ((0x0C - off) / 4) 0).testBit 3)).map fun o => 3 + 65536 * o
/-- The refusals of R38 in their order, then the words, then COMMIT_AFTER. A word of MODE_REQ that R54 does not allow is denied. -/
def State.writeMany (s : State) (path : Path) (pg off : Nat) (l : List Nat) (after : Bool) (w : Waiter) : WriteEnd × State :=
  let s := s.tickPage pg
  if s.unitState pg ≠ 0 then (.denied, s)
  else match ((List.range l.length).map fun k => off + 4 * k).find? fun o => inExpert pg o && ! s.expertOpen path pg with
  | some o => (.locked, s.setErr pg 2 (errInfo path o))
  | none =>
    match s.stagedRefused path pg off l with
    | some e => (.denied, s.setErr pg (e % 65536) (errInfo path (e / 65536)))
    | none =>
      let has := fun o => decide (off ≤ o) && decide (o < off + 4 * l.length)
      let req : Bool := pg = Pg.MODE && has 0x44 && ! s.reqAllowed (l.getD ((0x44 - off) / 4) 0 % 16)
      let go : Bool := hasCap pg 0 && (after || (has 0x14 && (l.getD ((0x14 - off) / 4) 0).testBit 0))
      let busy : Bool := go && (s.page pg).job.isSome
      let s := s.putWords path pg off w l
      let s := if after then s.putHeader path pg 0x14 1 w else s
      (if busy then .busy else if go then .waits else if req then .denied else .done, s)
/-- COMMIT_STATUS comes back where COMMIT was among the words or follows them. -/
def wantsStatus (off n : Nat) (after : Bool) : Bool := after || (decide (off ≤ 0x14) && decide (0x14 < off + 4 * n))

/-- R30, R37, R120. -/
def execControlRead (cap : Cap) (addr : BitVec 26) (nwords : BitVec 11) (s : State) : Res :=
  .next <| s.admin cap (.controlRead cap addr nwords) false fun k s =>
    let path := adminPath k.inst
    let (pg, off) := adminAddr k.inst addr
    if ! accessOk path addr pg off nwords.toNat then s.postCap cap St.invalidField
    else
      let (l, s) := (s.tickPage pg).readWords path pg off nwords.toNat
      (s.dataCap cap (l.flatMap fun v => leBytes 4 v)).postCap cap St.ok
/-- R38, R120. A write whose COMMIT was taken waits in a context for its end. -/
def execControlWrite (cap : Cap) (addr : BitVec 26) (nwords : BitVec 11) (words : List Word) (commitAfter : Bool) (s : State) : Res :=
  .next <| s.admin cap (.controlWrite cap addr nwords words commitAfter) false fun k s =>
    let path := adminPath k.inst
    let (pg, off) := adminAddr k.inst addr
    let n := nwords.toNat
    let l := (List.range n).map fun i => (words.getD i 0).toNat
    if ! accessOk path addr pg off n then s.postCap cap St.invalidField
    else
      let (c, t) := s.newCtx cap k (.controlWrite cap addr nwords words commitAfter) 0 .committed
      let (e, u) := s.writeMany path pg off l commitAfter (.ctx c)
      let dw0 := fun (u : State) => if wantsStatus off n commitAfter then u.commitStatus pg else 0
      match e with
      | .waits => (t.writeMany path pg off l commitAfter (.ctx c)).2
      | .denied => u.postCap cap St.denied (dw0 u)
      | .locked => u.postCap cap St.expertLocked (dw0 u)
      | .busy => u.postCap cap { St.denied with dnr := false } (dw0 u)
      | .done => u.postCap cap St.ok (dw0 u)

/-! ## Protection of register words (R51, R52, R161) -/

/-- The register words of powered pages. -/
def State.scrubbed (s : State) (a : BitVec 26) : Bool := (pageInfo (pageOf a)).isSome && s.isUp (pageDomain (pageOf a)) && offOf a % 4 = 0
/-- A word was corrected; the first time since the start is logged. -/
def State.wordCorrected (s : State) (pg off : Nat) : State :=
  let s := s.setEv pg 4
  if (s.page pg).corrected.contains off then s
  else (s.modPage pg fun p => { p with corrected := insNat off p.corrected }).logEv pg 0x0210 .absorbed 0 (leBytes 4 off)
/-- An uncorrectable mailbox word loses its message. -/
def State.mailboxLost (s : State) (pg off : Nat) : State :=
  let i := pageUnit pg
  if pageType pg ≠ PT.INST then s
  else if 0x100 ≤ off ∧ off < 0x200 ∧ (s.instOf i).t2mPending then
    (s.modInstOf i fun t => { t with t2mPending := false, t2mLost := true }).logEv pg 0x0606 .absorbed i [0]
  else if 0x280 ≤ off ∧ off < 0x380 ∧ (s.instOf i).m2tFull then
    ((s.modInstOf i fun t => { t with m2tFull := false, m2tLost := true }).logEv pg 0x0606 .absorbed i [1]).deliverM2t i
  else s
/-- A word was uncorrectable: it is restored. -/
def State.wordLost (s : State) (pg off : Nat) : State :=
  ((s.setEv pg 5).logEv pg 0x0213 .absorbed 0 (leBytes 4 off)).mailboxLost pg off
/-- R51. -/
def execRegisterScrub (corrected uncorrectable : List (BitVec 26)) (s : State) : Res :=
  .next <|
    let s := (corrected.filter s.scrubbed).foldl (fun s a => s.wordCorrected (pageOf a) (offOf a)) s
    (uncorrectable.filter s.scrubbed).foldl (fun s a => s.wordLost (pageOf a) (offOf a)) s

/-- A kept field takes the value of the page's newest record in the store. -/
def State.restoreWord (s : State) (pg off : Nat) : State :=
  let pt := pageType pg
  let header : Bool := off = 0x0C || off = 0x24
  if ! header ∧ ! RegMap.anyKept pt off then s
  else
    let w := match newestRec (s.mode.copyA.read [] pg) (s.mode.copyB.read [] pg) with
      | some r => (match r.body with | .page l => KV.get? l off | _ => none)
      | none => none
    if header then s.setLive (pg * 4096 + off) (w.getD (if off = 0x0C then 1 else 0))
    else s.setLive (pg * 4096 + off) (RegMap.keptMerge pt off (s.live (pg * 4096 + off)) (w.getD (RegMap.startWord pt off)))
/-- A page's register array fails: the chiplet's spare takes over, once; beyond it the page's unit is fenced, or the module
enters PRESERVE (R23, R52). -/
def State.arrayFails (s : State) (pg : Nat) : State :=
  if s.fence.arrays.contains pg then s
  else
    let c := pageChiplet pg
    let t := pageType pg
    let q := pageQuad pg
    let u := pageUnit pg
    let s := (s.modFence fun f => { f with arrays := insNat pg f.arrays }).saveFence
    if ! s.ctl.spareUsed.contains c then (s.modCtl fun m => { m with spareUsed := insNat c m.spareUsed }).failure pg 0x010E true none
    else if t = PT.LANE then (s.logEv pg 0x010E .degraded).laneFails (16 * q + u)
    else if t = PT.CLU then (s.logEv pg 0x010E .degraded).clusterFails q u
    else if t = PT.NET then (s.logEv pg 0x010E .degraded).portFails u
    else s.failure pg 0x010E false (some 9)
/-- R52. -/
def execRegisterWordRestored (addr : BitVec 26) (ok : Bool) (s : State) : Res :=
  .next <|
    let pg := pageOf addr
    let off := offOf addr
    if ! s.scrubbed addr then s
    else if ok then s.restoreWord pg off
    else
      let again : Bool := (s.page pg).uncorr.any fun e => e.1 = off && decide (s.now - e.2 ≤ secs 86400)
      let s := (s.setErr pg 6 off).logEv pg 0x0213 .degraded 0 (leBytes 4 off)
      let s := s.modPage pg fun p => { p with uncorr := (off, s.now) :: p.uncorr.filter fun e => decide (s.now - e.2 ≤ secs 86400) }
      if again then s.arrayFails pg else s

/-! ## The retained settings store (R48, R68, R462) -/

/-- R48. -/
def execSettingSaveDone (page : PageNo) (s : State) : Res :=
  .next <| if (s.page page.val).saveDue.isSome then s.savePage page.val else s

def State.copyOf (s : State) : StoreCopy → StoreCopyS
  | .a => s.mode.copyA | .b => s.mode.copyB
def State.setCopy (s : State) (c : StoreCopy) (v : StoreCopyS) : State :=
  s.modMode fun m => match c with | .a => { m with copyA := v } | .b => { m with copyB := v }
def StoreCopy.other : StoreCopy → StoreCopy
  | .a => .b | .b => .a
/-- The bytes of a log that holds each newest record once. -/
def StoreCopyS.packed (c : StoreCopyS) : Nat := min (2 ^ 20) (c.recs.foldl (fun n r => n + r.2.body.bytes) 16)
/-- R68. The log holds each newest record once. -/
def execStoreCompactionDone (copy : StoreCopy) (s : State) : Res :=
  .next <|
    let c := s.copyOf copy
    if ! c.compacting then s
    else (s.setCopy copy { c with compacting := false, used := c.packed }).startCompaction
/-- R462. -/
def execStoreCopyReformat (copy : StoreCopy) (s : State) : Res :=
  .next <|
    if s.mode.mode ≠ .service ∨ (s.copyOf copy).headerOk then s
    else
      let c : StoreCopyS := { headerOk := true, recs := (s.copyOf (StoreCopy.other copy)).recs, used := 0, compacting := false }
      (s.setCopy copy { c with used := c.packed }).startCompaction

end Sys2Proof.Machine
end

