-- ==== Sys2Proof/Machine/EraseEvents.lean ====
section
/-! DEFINITION. The steps of a cryptographic erase (R409). -/

namespace Sys2Proof.Machine

/-- R409. An erase goes on while hosts are served; after a start, from DEC. -/
def execCryptoEraseStepDone (inst : Fin 256) (s : State) : Res :=
  .next <| match KV.get? s.sec.erases inst.val with
    | none => s
    | some e => if s.serving then s.eraseNext inst.val e else s

end Sys2Proof.Machine
end

