-- ==== Sys2Proof/Machine/FabricEvents.lean ====
section
/-! DEFINITION. Fabrics commands (R95, R102, R111, R114, R119, R126, R135, R461). -/

namespace Sys2Proof.Machine

/-- R95, R111. -/
def execConnect (conn : Nat) (subnqn : Option (Fin 256)) (qid entries katoMs hostnqn ctrl : Nat) (s : State) : Res :=
  .next <| s.connectArrives (.connect conn subnqn qid entries katoMs hostnqn ctrl) conn (subnqn.map (·.val)) qid entries katoMs hostnqn ctrl

/-! ## Properties (R111, R126, R135, R461) -/

/-- CAP: the fields that the spec gives, and CQR, over free ones. -/
def capValue : Nat :=
  let w := Config.property 0
  setBits (setBits (setBits (setBits (setBits w 15 0 1023) 16 16 1) 18 17 1) 31 24 1) 51 48 0
/-- A property: its size in bytes is 8 for CAP, 4 for the others. -/
def Ctrl.property (k : Ctrl) (off : Nat) : Option Nat :=
  match off with
  | 0x00 => some (capValue % 2 ^ 64)
  | 0x08 => some (Config.property 8 % 2 ^ 32)
  | 0x14 => some k.cc
  | 0x1C => some (k.rdy.toNat + 4 * k.shst)
  | _ => none
/-- R119, R461. -/
def execPropertyGet (cap : Cap) (offset : Nat) (s : State) : Res :=
  .next <| match s.adminGate cap (.propertyGet cap offset) false false with
    | .error s => s
    | .ok (k, s) => match k.property offset with
      | some v => s.postCap cap St.ok (v % 2 ^ 32) (v / 2 ^ 32)
      | none => s.postCap cap St.invalidField

/-- CC is written: EN from 0 to 1 makes the controller ready, from 1 to 0 resets it; a shutdown notification ends at once. -/
def State.setCc (s : State) (cap : Cap) (k : Ctrl) (w : Nat) : State :=
  let was := k.cc.testBit 0
  let on := w.testBit 0
  if 1 < bitsOf w 13 11 then s.postCap cap St.invalidField
  else if k.resetting ∧ on then s.postCap cap St.sequence
  else
    let w := if was && on then setBits k.cc 15 14 (bitsOf w 15 14) else w
    let shst := if bitsOf w 15 14 = 0 then 0 else 2
    let s := s.modCtrl cap.ctrl fun k => { k with cc := w, shst := shst, rdy := k.rdy || on }
    let s := s.postCap cap St.ok
    if was && ! on then s.resetCtrl cap.ctrl false else s
/-- R126, R135. -/
def execPropertySet (cap : Cap) (offset : Nat) (value : Dword) (s : State) : Res :=
  .next <| match s.adminGate cap (.propertySet cap offset value) false false with
    | .error s => s
    | .ok (k, s) => if offset = 0x14 then s.setCc cap k (value.toNat % 2 ^ 32) else s.postCap cap St.invalidField

/-! ## Authentication (R102, R103) -/

/-- R102. -/
def execAuthenticationSend (cap : Cap) (kind hash group : Nat) (response : List Byte) (challenge : Option Nat) (s : State) : Res :=
  .next <| match s.adminGate cap (.authenticationSend cap kind hash group response challenge) false true with
    | .error s => s
    | .ok (k, s) => s.authMessage cap k kind hash group response challenge
/-- R102. -/
def execAuthenticationReceive (cap : Cap) (s : State) : Res :=
  .next <| match s.adminGate cap (.authenticationReceive cap) false true with
    | .error s => s
    | .ok (k, s) => s.authNext cap k

/-! ## Disconnect (R114) -/

/-- R114. -/
def execDisconnect (cap : Cap) (s : State) : Res :=
  .next <|
    if cap.qid = 0 then
      match s.adminGate cap (.disconnect cap) false false with
      | .error s => s
      | .ok (_, s) => (s.postCap cap St.ok).endAssoc cap.ctrl
    else s.ioQueued cap (.disconnect cap) fun s => (s.postCap cap St.ok).dropQueue cap.ctrl cap.qid

end Sys2Proof.Machine
end

