-- ==== Sys2Proof/Machine/IoCommands.lean ====
section
/-! DEFINITION. Arrival of the I/O commands (R116 to R118, R121): each takes a context where its queue has room and is issued
by the arbiter; what it then does is `State.startOp`, `State.partsDone` and the events it waits for. -/

namespace Sys2Proof.Machine

/-- R17, R121. -/
def execRead (cap : Cap) (r : NvmRange) (seqReq oneTime prp : Bool) (sglBytes : Nat) (s : State) : Res :=
  .next (s.ioArrive cap (.read cap r seqReq oneTime prp sglBytes))

/-- R18, R121. -/
def execWrite (cap : Cap) (r : NvmRange) (fua seqReq : Bool) (fdp : Fdp) (prp : Bool) (data : List Byte) (s : State) : Res :=
  .next (s.ioArrive cap (.write cap r fua seqReq fdp prp data))

/-- R134. -/
def execFlush (cap : Cap) (nsid : Nat) (s : State) : Res :=
  .next (s.ioArrive cap (.flush cap nsid))

/-- R121. -/
def execWriteUncorrectable (cap : Cap) (r : NvmRange) (s : State) : Res :=
  .next (s.ioArrive cap (.writeUncorrectable cap r))

/-- R121. -/
def execCompare (cap : Cap) (r : NvmRange) (seqReq prp : Bool) (data : List Byte) (s : State) : Res :=
  .next (s.ioArrive cap (.compare cap r seqReq prp data))

/-- R121, R169. -/
def execWriteZeroes (cap : Cap) (r : NvmRange) (deallocate : Bool) (s : State) : Res :=
  .next (s.ioArrive cap (.writeZeroes cap r deallocate))

/-- R121, R169. -/
def execDatasetManagement (cap : Cap) (nsid : Nat) (deallocate : Bool) (ranges : List (Nat × Nat)) (s : State) : Res :=
  .next (s.ioArrive cap (.datasetManagement cap nsid deallocate ranges))

/-- R121. -/
def execVerify (cap : Cap) (r : NvmRange) (seqReq : Bool) (s : State) : Res :=
  .next (s.ioArrive cap (.verify cap r seqReq))

/-- R121. -/
def execCopy (cap : Cap) (nsid : Nat) (format : Nat) (src : List (Nat × Nat)) (dst : Nat) (s : State) : Res :=
  .next (s.ioArrive cap (.copy cap nsid format src dst))

/-- R190. -/
def execIoManagementReceive (cap : Cap) (nsid : Nat) (s : State) : Res :=
  .next (s.ioArrive cap (.ioManagementReceive cap nsid))

/-- R190. -/
def execIoManagementSend (cap : Cap) (nsid : Nat) (handles : List Nat) (s : State) : Res :=
  .next (s.ioArrive cap (.ioManagementSend cap nsid handles))

/-- R364. -/
def execStore (cap : Cap) (nsid : Nat) (key : List Byte) (noOverwrite mustExist : Bool) (declared : Nat) (value : List Byte) (s : State) : Res :=
  .next (s.ioArrive cap (.store cap nsid key noOverwrite mustExist declared value))

/-- R364. -/
def execRetrieve (cap : Cap) (nsid : Nat) (key : List Byte) (bufLen : Nat) (s : State) : Res :=
  .next (s.ioArrive cap (.retrieve cap nsid key bufLen))

/-- R364. -/
def execDelete (cap : Cap) (nsid : Nat) (key : List Byte) (s : State) : Res :=
  .next (s.ioArrive cap (.delete cap nsid key))

/-- R364. -/
def execExist (cap : Cap) (nsid : Nat) (key : List Byte) (s : State) : Res :=
  .next (s.ioArrive cap (.exist cap nsid key))

/-- R364. -/
def execList (cap : Cap) (nsid : Nat) (key : List Byte) (maxKeys : Nat) (s : State) : Res :=
  .next (s.ioArrive cap (.list cap nsid key maxKeys))

/-- R274, R276. -/
def execLoadProgram (cap : Cap) (index : Fin 16) (declared : Nat) (image : List Byte) (s : State) : Res :=
  .next (s.ioArrive cap (.loadProgram cap index declared image))

/-- R277. -/
def execProgramActivation (cap : Cap) (index : Fin 16) (activate : Bool) (s : State) : Res :=
  .next (s.ioArrive cap (.programActivation cap index activate))

/-- R282, R283. -/
def execExecuteProgram (cap : Cap) (index : Fin 16) (d : ExecDesc) (bufferBytes : Nat) (s : State) : Res :=
  .next (s.ioArrive cap (.executeProgram cap index d bufferBytes))

/-- R121, R147. -/
def execMemoryRangeSetManagement (cap : Cap) (rsid : BitVec 16) (length : Option Nat) (s : State) : Res :=
  .next (s.ioArrive cap (.memoryRangeSetManagement cap rsid length))

/-- R121. -/
def execMemoryRead (cap : Cap) (rsid : BitVec 16) (offset length : Nat) (s : State) : Res :=
  .next (s.ioArrive cap (.memoryRead cap rsid offset length))

/-- R121, R133. -/
def execMemoryWrite (cap : Cap) (rsid : BitVec 16) (offset declared : Nat) (data : List Byte) (s : State) : Res :=
  .next (s.ioArrive cap (.memoryWrite cap rsid offset declared data))

/-- R121. -/
def execMemoryCopy (cap : Cap) (rsid : BitVec 16) (offset : Nat) (r : NvmRange) (toNamespace : Bool) (s : State) : Res :=
  .next (s.ioArrive cap (.memoryCopy cap rsid offset r toNamespace))

/-- R121. -/
def execMemoryFill (cap : Cap) (rsid : BitVec 16) (offset length : Nat) (value : Byte) (s : State) : Res :=
  .next (s.ioArrive cap (.memoryFill cap rsid offset length value))

end Sys2Proof.Machine
end

