-- ==== Sys2Proof/Machine/KvEvents.lean ====
section
/-! DEFINITION. The slots of the index pipeline (R361 to R367). -/

namespace Sys2Proof.Machine

/-- An entry of List's data: the key's length and bytes, padded to a multiple of four. -/
def listEntry (key : List Byte) : List Byte := sliceB (leBytes 2 key.length ++ key) 0 (cdiv (2 + key.length) 4 * 4)

/-- A List has read a bucket: its keys, and the next bucket or the end. -/
def State.listBucket (s : State) (c : Nat) (x : Ctx) (nsx : Nat) (n : NsS) (key : List Byte) (most : Nat) : State :=
  let b := x.bucket nsx n
  let l := s.bucketSlots nsx b
  let named := x.aux = 0 ∧ key ≠ []
  let again := fun (s : State) (aux : Nat) => (s.modCtx c fun x => { x with aux := aux }).wantIndex c
  let l := if named then l.dropWhile fun e => e.2.key ≠ key else l
  if named ∧ l = [] then again s 1
  else
    let new := l.take (most - x.res)
    let res := x.res + new.length
    let got := x.got ++ new.flatMap fun e => listEntry e.2.key
    let s := s.modCtx c fun x => { x with got := got, res := res }
    if res < most ∧ b + 1 < n.buckets then again s (b + 2)
    else (s.dataCtx c (leBytes 4 res ++ got)).finish c St.ok

/-- R363, R364. A search takes the next slot of its bucket's pipeline, in order of arrival. -/
def execIndexSearchSlot (ctx : Nat) (s : State) : Res :=
  .next <| match s.ctx? ctx with
    | none => s
    | some x =>
      match s.nsOf x.inst x.kvNsid with
      | none => s
      | some (k, n) =>
        let q := s.indexQuad k (x.bucket k n)
        if (s.mat! q).searches.head? ≠ some ctx then s
        else
          let s := (s.modMatQ q fun m => { m with searches := m.searches.tail }).bump (Pg.MAT q) Fd.MAT_CNT_COUNT 5
          match x.op with
          | .retrieve _ _ key _ =>
            match s.findKey q k n key with
            | (none, s) => s.finish ctx St.noKey
            | (some (_, e), s) =>
              let s := s.modCtx ctx fun x => { x with aux := e.grain, res := e.vlen }
              (s.readRange ctx k n.grain (e.grain * n.grain) (cdiv e.vlen (n.grain * 4096) * n.grain) 0).partsDone ctx
          | .exist _ _ key =>
            match s.findKey q k n key with
            | (none, s) => s.finish ctx St.noKey
            | (some _, s) => s.finish ctx St.ok
          | .list _ _ key most => s.listBucket ctx x k n key most
          | _ => s

/-- R363 to R365. An update takes its slot: the condition is decided and the bucket written. -/
def execIndexUpdateSlot (ctx : Nat) (s : State) : Res :=
  .next <| match s.ctx? ctx with
    | none => s
    | some x =>
      match s.nsOf x.inst x.kvNsid with
      | none => s
      | some (k, n) =>
        let q := s.indexQuad k (x.bucket k n)
        if (s.mat! q).updates.head? ≠ some ctx then s
        else
          let s := (s.modMatQ q fun m => { m with updates := m.updates.tail }).bump (Pg.MAT q) Fd.MAT_CNT_COUNT 6
          match x.op with
          | .store _ _ key noOver must declared _ =>
            let (st, s) := s.storeSlot q k n key noOver must (x.aux - 1) declared
            if st = St.ok then ((s.modCtx ctx fun x => { x with state := .committed }).windowTest ctx false).zapFreed
            else (s.freeOwn ctx).finish ctx st
          | .delete _ _ key =>
            let (st, s) := s.deleteSlot q k n key
            (s.finish ctx st).zapFreed
          | _ => s

end Sys2Proof.Machine
end

