-- ==== Sys2Proof/Machine/KwAlu.lean ====
section
/-! DEFINITION. The Kwalia register ALU and immediate instructions (R334, R335, R342). -/

namespace Sys2Proof.Machine

/-- R334, ADD. -/
def execKAdd (x : RArgs) (s : State) : Res := .next (s.kAlu (encR x 0x00) x Alu.add)
/-- R334, ADC. -/
def execKAdc (x : RArgs) (s : State) : Res := .next (s.kAlu (encR x 0x01) x Alu.adc)
/-- R334, SUB. -/
def execKSub (x : RArgs) (s : State) : Res := .next (s.kAlu (encR x 0x02) x Alu.sub)
/-- R334, SBC. -/
def execKSbc (x : RArgs) (s : State) : Res := .next (s.kAlu (encR x 0x03) x Alu.sbc)
/-- R334, AND. -/
def execKAnd (x : RArgs) (s : State) : Res := .next (s.kAlu (encR x 0x04) x Alu.and)
/-- R334, OR. -/
def execKOr (x : RArgs) (s : State) : Res := .next (s.kAlu (encR x 0x05) x Alu.or)
/-- R334, XOR. -/
def execKXor (x : RArgs) (s : State) : Res := .next (s.kAlu (encR x 0x06) x Alu.xor)
/-- R334, ANDN. -/
def execKAndn (x : RArgs) (s : State) : Res := .next (s.kAlu (encR x 0x07) x Alu.andn)
/-- R334, SHL. -/
def execKShl (x : RArgs) (s : State) : Res := .next (s.kAlu (encR x 0x08) x Alu.shl)
/-- R334, SHR. -/
def execKShr (x : RArgs) (s : State) : Res := .next (s.kAlu (encR x 0x09) x Alu.shr)
/-- R334, SAR. -/
def execKSar (x : RArgs) (s : State) : Res := .next (s.kAlu (encR x 0x0A) x Alu.sar)
/-- R334, ROR. -/
def execKRor (x : RArgs) (s : State) : Res := .next (s.kAlu (encR x 0x0B) x Alu.ror)
/-- R334, ROL. -/
def execKRol (x : RArgs) (s : State) : Res := .next (s.kAlu (encR x 0x0C) x Alu.rol)
/-- R334, MIN. -/
def execKMin (x : RArgs) (s : State) : Res := .next (s.kAlu (encR x 0x0D) x Alu.min)
/-- R334, MAX. -/
def execKMax (x : RArgs) (s : State) : Res := .next (s.kAlu (encR x 0x0E) x Alu.max)
/-- R334, MINU. -/
def execKMinu (x : RArgs) (s : State) : Res := .next (s.kAlu (encR x 0x0F) x Alu.minu)
/-- R334, MAXU. -/
def execKMaxu (x : RArgs) (s : State) : Res := .next (s.kAlu (encR x 0x10) x Alu.maxu)
/-- R334, MUL. -/
def execKMul (x : RArgs) (s : State) : Res := .next (s.kAlu (encR x 0x11) x Alu.mul)
/-- R334, MULHS. -/
def execKMulhs (x : RArgs) (s : State) : Res := .next (s.kAlu (encR x 0x12) x Alu.mulhs)
/-- R334, MULHU. -/
def execKMulhu (x : RArgs) (s : State) : Res := .next (s.kAlu (encR x 0x13) x Alu.mulhu)
/-- R342, DIVS. -/
def execKDivs (x : RArgs) (s : State) : Res := .next (s.kAlu (encR x 0x14) x fun _ => Alu.quot true)
/-- R342, DIVU. -/
def execKDivu (x : RArgs) (s : State) : Res := .next (s.kAlu (encR x 0x15) x fun _ => Alu.quot false)
/-- R342, REMS. -/
def execKRems (x : RArgs) (s : State) : Res := .next (s.kAlu (encR x 0x16) x fun _ => Alu.remn true)
/-- R342, REMU. -/
def execKRemu (x : RArgs) (s : State) : Res := .next (s.kAlu (encR x 0x17) x fun _ => Alu.remn false)
/-- R334, NEG. -/
def execKNeg (x : RArgs) (s : State) : Res := .next (s.kAlu (encR x 0x18) x Alu.neg)
/-- R334, NOT. -/
def execKNot (x : RArgs) (s : State) : Res := .next (s.kAlu (encR x 0x19) x Alu.not)
/-- R334, CLZ. -/
def execKClz (x : RArgs) (s : State) : Res := .next (s.kAlu (encR x 0x1A) x Alu.clz)
/-- R334, POPC. -/
def execKPopc (x : RArgs) (s : State) : Res := .next (s.kAlu (encR x 0x1B) x Alu.popc)
/-- R334, BSWAP. -/
def execKBswap (x : RArgs) (s : State) : Res := .next (s.kAlu (encR x 0x1C) x Alu.bswap)
/-- R334, CMP: nothing is written. -/
def execKCmp (x : RArgs) (s : State) : Res := .next (s.kAlu (encR x 0x1D) x Alu.sub false)

/-- R335, ADDI. -/
def execKAddi (x : IArgs) (s : State) : Res := .next (s.kImm (encI x 0x01) x (x.imm.signExtend 32) Alu.add)
/-- R335, ANDI. -/
def execKAndi (x : IArgs) (s : State) : Res := .next (s.kImm (encI x 0x02) x (x.imm.signExtend 32) Alu.and)
/-- R335, ORI. -/
def execKOri (x : IArgs) (s : State) : Res := .next (s.kImm (encI x 0x03) x (x.imm.signExtend 32) Alu.or)
/-- R335, XORI. -/
def execKXori (x : IArgs) (s : State) : Res := .next (s.kImm (encI x 0x04) x (x.imm.signExtend 32) Alu.xor)
/-- R335, SHLI. -/
def execKShli (x : IArgs) (s : State) : Res := .next (s.kImm (encI x 0x05) x (x.imm.zeroExtend 32) Alu.shl)
/-- R335, SHRI. -/
def execKShri (x : IArgs) (s : State) : Res := .next (s.kImm (encI x 0x06) x (x.imm.zeroExtend 32) Alu.shr)
/-- R335, SARI. -/
def execKSari (x : IArgs) (s : State) : Res := .next (s.kImm (encI x 0x07) x (x.imm.zeroExtend 32) Alu.sar)
/-- R335, RORI. -/
def execKRori (x : IArgs) (s : State) : Res := .next (s.kImm (encI x 0x08) x (x.imm.zeroExtend 32) Alu.ror)
/-- R335, CMPI: nothing is written. -/
def execKCmpi (x : IArgs) (s : State) : Res := .next (s.kImm (encI x 0x09) x (x.imm.signExtend 32) Alu.sub false)
/-- R335, MOVI. -/
def execKMovi (x : UArgs) (s : State) : Res :=
  .next (s.kStep (encU x 0x0A) x.core x.g false false false fun s r => .next s (r.setG x.d (x.imm.signExtend 32)))
/-- R335, MOVH. -/
def execKMovh (x : UArgs) (s : State) : Res :=
  .next (s.kStep (encU x 0x0B) x.core x.g false false false fun s r =>
    .next s (r.setG x.d ((x.imm.zeroExtend 32 <<< 16) ||| (r.rg x.d &&& 0xFFFF#32))))

end Sys2Proof.Machine
end

