-- ==== Sys2Proof/Machine/KwControl.lean ====
section
/-! DEFINITION. The Kwalia control instructions: branches, calls, loops, REP, END, NOP and the special registers (R323,
R328 to R332, R337). -/

namespace Sys2Proof.Machine

end Sys2Proof.Machine

namespace Sys2Proof
open Machine

/-- The target of a branch with a word offset. -/
def BArgs.target (x : BArgs) (r : TaskRun) : Nat := ((r.pc : Int) + 4 * x.off.toInt).toNat % 2 ^ 32
/-- A target below zero lies outside CODE: it is kept as an address that no fetch accepts. -/
def BArgs.go (x : BArgs) (r : TaskRun) : Nat := if (r.pc : Int) + 4 * x.off.toInt < 0 then 2 ^ 32 - 4 else x.target r

end Sys2Proof

namespace Sys2Proof.Machine

/-- Push a return address: `none` where the stack overflows (R330). -/
def TaskRun.push (r : TaskRun) : Option TaskRun :=
  if r.rstack.length < 16 then some { r with rstack := (r.pc + 4) :: r.rstack }
  else if r.rswrap then some { r with rstack := ((r.pc + 4) :: r.rstack).take 16 }
  else none

/-- R337, BR. -/
def execKBr (x : BArgs) (s : State) : Res :=
  .next (s.kStep (encG x.g 0x20 x.off.toNat) x.core x.g false false true fun s r => .goto s (r.branch (x.go r) 3))
/-- R337, CALL. -/
def execKCall (x : BArgs) (s : State) : Res :=
  .next (s.kStep (encG x.g 0x21 x.off.toNat) x.core x.g false false true fun s r =>
    match r.push with
    | none => .exc Exc.STACK_OVERFLOW r
    | some r' => .goto s { r' with pc := x.go r })
/-- R337, JR. -/
def execKJr (x : CArgs) (a : Fin 32) (s : State) : Res :=
  .next (s.kStep (encF x.g 0x22 0 a.val 0 0) x.core x.g false false true fun s r =>
    let t := (r.rg a).toNat
    if t % 4 ≠ 0 then .exc Exc.ALIGN r else .goto s (r.branch t 3))
/-- R337, CALLR. -/
def execKCallr (x : CArgs) (a : Fin 32) (s : State) : Res :=
  .next (s.kStep (encF x.g 0x23 0 a.val 0 0) x.core x.g false false true fun s r =>
    let t := (r.rg a).toNat
    match r.push with
    | none => .exc Exc.STACK_OVERFLOW r
    | some r' => if t % 4 ≠ 0 then .exc Exc.ALIGN r else .goto s { r' with pc := t })
/-- R337, RET. -/
def execKRet (x : CArgs) (s : State) : Res :=
  .next (s.kStep (encG x.g 0x24 0) x.core x.g false false true fun s r =>
    match r.rstack with
    | [] => .exc Exc.STACK_UNDERFLOW r
    | t :: ts => .goto s { r with pc := t, rstack := ts })

/-- Open a loop (R328). -/
def TaskRun.openLoop (r : TaskRun) (count : Word) (off : Nat) : Option TaskRun :=
  let le := r.pc + 4 * off
  if r.ldepth = 3 ∨ (0 < r.ldepth ∧ (r.le.getD (r.ldepth - 1) 0).toNat < le) then none
  else if count = 0 then some { r with pc := le + 4 }
  else
    let m := r.ldepth
    some { r with
      ls := r.ls.set m (BitVec.ofNat 32 (r.pc + 4)), le := r.le.set m (BitVec.ofNat 32 le), lc := r.lc.set m count,
      ldepth := m + 1, pc := r.pc + 4 }

/-- R337, LOOP. -/
def execKLoop (x : CArgs) (a : Fin 32) (off : BitVec 12) (s : State) : Res :=
  .next (s.kStep (encG x.g 0x25 (a.val * 2 ^ 12 + off.toNat)) x.core x.g false false true fun s r =>
    match r.openLoop (r.rg a) off.toNat with
    | none => .exc Exc.LOOP_NEST r
    | some r => .goto s r)
/-- R337, LOOPI. -/
def execKLoopi (x : CArgs) (count : BitVec 10) (off : BitVec 12) (s : State) : Res :=
  .next (s.kStep (encG x.g 0x26 (count.toNat * 2 ^ 12 + off.toNat)) x.core x.g false false true fun s r =>
    match r.openLoop (count.zeroExtend 32) off.toNat with
    | none => .exc Exc.LOOP_NEST r
    | some r => .goto s r)

end Sys2Proof.Machine

namespace Sys2Proof
open Machine

/-- The COUNT of a REP. -/
def RepCount.value (r : TaskRun) : RepCount → Nat
  | .imm n => n.toNat
  | .reg a => (r.rg a).toNat
end Sys2Proof

namespace Sys2Proof.Machine

/-- PC is the LE of an active loop. -/
def TaskRun.atLe (r : TaskRun) : Bool := (List.range r.ldepth).any fun m => (r.le.getD m 0).toNat = r.pc

/-- R331, REP. A false guard skips the prefix and its instruction; the instruction follows otherwise, `rep` set. -/
def execKRep (x : CArgs) (count : RepCount) (s : State) : Res :=
  .next <| match (s.core x.core.key).run with
    | none => s
    | some r =>
      if r.rep ∨ r.holds x.g then
        s.kStep (encRep x count) x.core x.g false false true fun s r =>
          let n := count.value r
          if r.atLe ∨ 65535 < n then .exc Exc.ILLEGAL_PREFIX r
          else .goto s { r with repcnt := BitVec.ofNat 32 n, rep := true, pc := r.pc + 4 }
      else s.kStep (encRep x count) x.core ⟨false, 0⟩ false false true fun s r => .goto s { r with pc := r.pc + 4 }.advance

/-- R339, END. -/
def execKEnd (x : CArgs) (s : State) : Res :=
  .next (s.kStep (encG x.g 0x28 0) x.core x.g false false true fun s r =>
    if (List.range r.node.outputs).any fun k => (KV.get? r.sends k).isNone then .exc Exc.BOUNDS r
    else .fin (s.kEndTask x.core.key r))
/-- R337, NOP. -/
def execKNop (x : CArgs) (s : State) : Res := .next (s.kStep (encG x.g 0x29 0) x.core x.g false false false fun s r => .next s r)

/-! ## Special registers (R323) -/

/-- µs left before the watchdog expires. -/
def TaskRun.budgetLeft (r : TaskRun) (now : Nat) : Nat :=
  (r.started + r.stalled + usec r.node.budgetUs - now) / 1000
/-- The value of a special register. CYCLE is a free value. -/
def State.readSr (s : State) (core : CoreId) (r : TaskRun) (sr : Nat) : Word × State :=
  match sr with
  | 0 => (r.flags.word, s)
  | 1 => (BitVec.ofNat 32 r.dze.toNat, s)
  | 2 => (r.repcnt, s)
  | 12 => (BitVec.ofNat 32 r.ldepth, s)
  | 13 => (BitVec.ofNat 32 r.rstack.length, s)
  | 14 => let (n, s) := s.draw
    (BitVec.ofNat 32 n, s)
  | 15 => (BitVec.ofNat 32 core.key, s)
  | 16 => (BitVec.ofNat 32 (r.budgetLeft s.now), s)
  | n =>
    if n < 6 then (r.ls.getD (n - 3) 0, s) else if n < 9 then (r.le.getD (n - 6) 0, s) else (r.lc.getD (n - 9) 0, s)
def TaskRun.writeSr (r : TaskRun) (sr : Nat) (v : Word) : TaskRun :=
  match sr with
  | 0 => { r with flags := .ofWord v }
  | 1 => { r with dze := v.getLsbD 0 }
  | 2 => { r with repcnt := v }
  | n =>
    if n < 6 then { r with ls := r.ls.set (n - 3) v } else if n < 9 then { r with le := r.le.set (n - 6) v }
    else { r with lc := r.lc.set (n - 9) v }

/-- R337, MFSR. -/
def execKMfsr (x : CArgs) (d : Fin 32) (sr : BitVec 12) (s : State) : Res :=
  .next (s.kStep (encG x.g 0x2A (d.val * 2 ^ 17 + sr.toNat)) x.core x.g false (16 < sr.toNat) false fun s r =>
    let (v, s) := s.readSr x.core r sr.toNat
    .next s (r.setG d v))
/-- R337, MTSR: registers 12 to 16 are read-only. -/
def execKMtsr (x : CArgs) (a : Fin 32) (sr : BitVec 12) (s : State) : Res :=
  .next (s.kStep (encG x.g 0x2B (a.val * 2 ^ 12 + sr.toNat)) x.core x.g false (11 < sr.toNat) (2 ≤ sr.toNat ∧ sr.toNat ≤ 11) fun s r => .next s (r.writeSr sr.toNat (r.rg a)))

/-- R333. A word that breaks the encoding rules raises ILLEGAL_OP, unless its guard fails. -/
def execKUnassigned (core : CoreId) (word : Word) (s : State) : Res :=
  .next <| if (kwCanon word).isSome then s else s.kStep word core ⟨word.msb, Fin.ofNat 8 (bitsOf word.toNat 30 28)⟩ false true false fun s r => .next s r

end Sys2Proof.Machine
end

