-- ==== Sys2Proof/Machine/KwMem.lean ====
section
/-! DEFINITION. The Kwalia memory instructions (R325, R336). -/

namespace Sys2Proof.Machine

/-- R336, LDW. -/
def execKLdw (x : MArgs) (s : State) : Res := .next (s.kLoad (encM x 0x10) x 4 zeroW)
/-- R336, LDH. -/
def execKLdh (x : MArgs) (s : State) : Res := .next (s.kLoad (encM x 0x11) x 2 (signW 2))
/-- R336, LDHU. -/
def execKLdhu (x : MArgs) (s : State) : Res := .next (s.kLoad (encM x 0x12) x 2 zeroW)
/-- R336, LDB. -/
def execKLdb (x : MArgs) (s : State) : Res := .next (s.kLoad (encM x 0x13) x 1 (signW 1))
/-- R336, LDBU. -/
def execKLdbu (x : MArgs) (s : State) : Res := .next (s.kLoad (encM x 0x14) x 1 zeroW)
/-- R336, STW. -/
def execKStw (x : MArgs) (s : State) : Res := .next (s.kStore (encM x 0x15) x 4)
/-- R336, STH. -/
def execKSth (x : MArgs) (s : State) : Res := .next (s.kStore (encM x 0x16) x 2)
/-- R336, STB. -/
def execKStb (x : MArgs) (s : State) : Res := .next (s.kStore (encM x 0x17) x 1)

end Sys2Proof.Machine

namespace Sys2Proof
open Machine

/-- The vector register that a field D names; one with bit 4 set is illegal (R333). -/
def MArgs.vd (x : MArgs) : Fin 16 := Fin.ofNat 16 x.d.val

end Sys2Proof

namespace Sys2Proof.Machine

/-- R336, VLD: all 64 bytes are checked. -/
def execKVld (x : MArgs) (s : State) : Res :=
  .next (s.kStep (encM x 0x18) x.core x.g true false false fun s r =>
    let a := x.addr r
    if a % 64 ≠ 0 then .exc Exc.ALIGN r
    else match kwRead s r a 64 with
      | none => .exc Exc.MEM_FAULT r
      | some l =>
        let m := r.mask x.g
        .next (s.l2Data x.core.key r a 64 false) ((x.bump r).setLanes x.vd m fun k => zeroW (sliceB l (4 * k) 4)))

/-- R336, VST: the active lanes are stored. -/
def execKVst (x : MArgs) (s : State) : Res :=
  .next (s.kStep (encM x 0x19) x.core x.g true false false fun s r =>
    let a := x.addr r
    if a % 64 ≠ 0 then .exc Exc.ALIGN r
    else match kwRead s r a 64 with
      | none => .exc Exc.MEM_FAULT r
      | some l =>
        let m := r.mask x.g
        let new := (List.range 16).flatMap fun k => if m.getLsbD k then leBytes 4 (r.lane x.vd k).toNat else sliceB l (4 * k) 4
        match kwWrite (s.l2Data x.core.key r a 64 true) r a new with
        | none => .exc Exc.MEM_FAULT r
        | some (s, r) => .next s (x.bump r))

end Sys2Proof.Machine
end

