-- ==== Sys2Proof/Machine/KwTask.lean ====
section
/-! DEFINITION. The Kwalia task instructions (R281, R314, R339 to R341), and dispatch and watchdog of tasks (R293, R298,
R299). -/

namespace Sys2Proof.Machine

/-- R339, SENDV. -/
def execKSendv (x : CArgs) (arc : Fin 4) (a : Fin 32) (s : State) : Res :=
  .next (s.kStep (encF x.g 0x3F arc.val a.val 0 0) x.core x.g false false false fun s r =>
    let ad := (r.rg a).toNat
    if ad % 16 ≠ 0 then .exc Exc.ALIGN r
    else match r.scratchAt ad 16 with
      | none => .exc Exc.MEM_FAULT r
      | some l =>
        if r.arcBad arc then .exc Exc.BOUNDS r
        else .next s (r.hold arc 2 false (BitVec.ofNat 64 (leNat (sliceB l 0 8))) (BitVec.ofNat 64 (leNat (sliceB l 8 8)))))
/-- R339, SENDB: the first send of an output slot passes its reference; further sends and sends of inputs add one. -/
def execKSendb (x : CArgs) (arc : Fin 4) (a b : Fin 32) (s : State) : Res :=
  .next (s.kStep (encF x.g 0x3F arc.val a.val b.val 1) x.core x.g false false false fun s r =>
    let k := (r.rg a).toNat
    match r.slotBuf k with
    | none => .exc Exc.BOUNDS r
    | some (h, ext) =>
      if r.arcBad arc ∨ ext < (r.rg b).toNat then .exc Exc.BOUNDS r
      else
        let first := k < 8 ∧ (KV.get? r.slots k).any fun s => s.sends = 0
        let r := r.hold arc 2 true (BitVec.ofNat 64 h) ((r.rg b).zeroExtend 64)
        let r := if k < 8 then { r with slots := KV.adjust r.slots k fun s => { s with sends := s.sends + 1 } } else r
        .next s (if first then r else { r with incs := r.incs ++ [h] }))
/-- R339, SENDN. -/
def execKSendn (x : CArgs) (arc : Fin 4) (s : State) : Res :=
  .next (s.kStep (encF x.g 0x3F arc.val 0 0 2) x.core x.g false false false fun s r =>
    if r.arcBad arc then .exc Exc.BOUNDS r else .next s (r.hold arc 3 false 0 0))
/-- R339, SENDH. -/
def execKSendh (x : CArgs) (a : Fin 32) (s : State) : Res :=
  .next (s.kStep (encF x.g 0x3F 0 a.val 0 3) x.core x.g false false false fun s r =>
    let ad := (r.rg a).toNat
    if ad % 8 ≠ 0 then .exc Exc.ALIGN r
    else match r.scratchAt ad 8 with
      | none => .exc Exc.MEM_FAULT r
      | some l => if 16 ≤ r.hints.length then .exc Exc.BOUNDS r else .next s { r with hints := leNat l :: r.hints })

/-- The lowest free output slot. -/
def TaskRun.freeSlot (r : TaskRun) : Option Nat := (List.range 8).find? fun j => (KV.get? r.slots j).isNone
/-- R339, BALLOC: at once, or the task stalls. -/
def execKBalloc (x : CArgs) (d a : Fin 32) (s : State) : Res :=
  .next (s.kStep (encF x.g 0x3F d.val a.val 0 4) x.core x.g false false false fun s r =>
    let size := (r.rg a).toNat
    match r.freeSlot with
    | none => .exc Exc.BOUNDS r
    | some j =>
      if size = 0 ∨ 2 ^ 20 < size then .exc Exc.BOUNDS r
      else match s.bufAlloc x.core.quad.ix r.task.inst 4 size with
        | some (h, s) => .next s (r.gotBuf d.val j h size)
        | none =>
          .wait (s.bufWait x.core.quad.ix ⟨r.task.inst, 4, size, .task x.core.key j⟩)
            { r with stallAt := some s.now, ballocD := d.val })
/-- R339, BREL. -/
def execKBrel (x : CArgs) (a : Fin 32) (s : State) : Res :=
  .next (s.kStep (encF x.g 0x3F 0 a.val 0 5) x.core x.g false false false fun s r =>
    let k := (r.rg a).toNat
    match r.slotBuf k with
    | none => .exc Exc.MEM_FAULT r
    | some (h, _) =>
      if k < 8 then
        if (KV.get? r.slots k).any fun s => s.sends = 0 then .next s { r with slots := KV.del r.slots k, decs := r.decs ++ [h] }
        else .exc Exc.MEM_FAULT r
      else .next s { r with inLive := r.inLive.set (k - 8) false })

/-- The L2 lines that a hint covers; `none` where it is dropped (R341). -/
def TaskRun.hintLines (r : TaskRun) (a n : Nat) : Option (List Nat) :=
  let base := a / 64 * 64
  if n = 0 ∨ 64 < n then none
  else
    match r.window base (64 * n) with
    | none => none
    | some _ => ((List.range n).map fun i => (r.window (base + 64 * i) 64).bind r.l2Line).foldr
        (fun o l => match o, l with | some x, some l => some (x :: l) | _, _ => none) (some [])
/-- An L2 hint: it is carried out line by line, or dropped and counted. -/
def State.kHint (s : State) (i : Word) (x : CArgs) (a b : Fin 32) (f : State → Nat → Nat → Nat → State) : State :=
  s.kStep i x.core x.g false false false fun s r =>
    match r.hintLines (r.rg a).toNat (r.rg b).toNat with
    | none => .next (s.bump (cluPage x.core.key) Fd.CLU_CNT_COUNT 7) r
    | some l => .next (l.foldl (fun s line => f s x.core.quad.ix x.core.cluster line) s) r
/-- R339, L2PF: absent lines are filled, as the next victims. -/
def execKL2pf (x : CArgs) (a b : Fin 32) (s : State) : Res :=
  .next (s.kHint (encF x.g 0x3F 0 a.val b.val 6) x a b fun s q cl line =>
    if ((KV.getD .empty (s.cluster q cl).sets ((s.cluster q cl).setOf line)).find 0 line).isSome then s else s.l2Touch q cl line false true)
/-- R339, L2REL: written back where dirty, and made the next victims. -/
def execKL2rel (x : CArgs) (a b : Fin 32) (s : State) : Res :=
  .next (s.kHint (encF x.g 0x3F 0 a.val b.val 7) x a b fun s q cl line => s.l2Line q cl line fun t w =>
    { (t.modWay w fun y => { y with dirty := false }) with tree := treeTouch t.tree w true })
/-- R339, L2WB: written back and kept. -/
def execKL2wb (x : CArgs) (a b : Fin 32) (s : State) : Res :=
  .next (s.kHint (encF x.g 0x3F 0 a.val b.val 8) x a b fun s q cl line => s.l2Line q cl line fun t w => t.modWay w fun y => { y with dirty := false })

/-! ## Dispatch and watchdog (R293, R298, R299) -/

/-- R293. -/
def execTaskDispatch (quad : Quad) (s : State) : Res :=
  .next <|
    let q := quad.ix
    let d := s.disp q
    match (List.range 4).find? fun p => ! (d.readyAt p).isEmpty with
    | none => s
    | some p =>
      let backlog := ((d.readyAt p).map (·.inst)).foldr insNat []
      match Drr.pick s.share backlog (d.cores.fuel backlog) (d.cores.trim backlog) with
      | none => s
      | some (i, drr) =>
        match (d.readyAt p).find? fun t => t.inst = i with
        | none => s
        | some t =>
          match s.pickCore q t, s.flow? t.flow with
          | some k, some f =>
            match s.progOf f, s.nodeOf f t.node with
            | some pr, some n =>
              let c := 64 * q + k
              let toks := (s.inputsOf q t.flow t.seq t.node n.inputs).map fun e => e.map (·.tok)
              let s := s.modDisp q fun d => { d with ready := d.ready.erase t, cores := drr }
              let r := TaskRun.start t f n pr.image toks (s.cfgB (cluPage c) Fd.CLU_CORECFG_RSWRAP) s.now
              ((s.putRun c r).bump (cluPage c) Fd.CLU_CNT_COUNT 0).retryFire q
            | _, _ => s
          | _, none => s.modDisp q fun d => { d with ready := d.ready.erase t }
          | none, _ => s

/-- R299. The first expiry holds the core for its test and re-executes the task; the second is the program's fault. -/
def execTaskWatchdogExpiry (core : CoreId) (s : State) : Res :=
  .next <|
    let c := core.key
    match (s.core c).run with
    | none => s
    | some r =>
      if r.stallAt.isSome then s
      else
        let s := s.reach (r.started + r.stalled + usec r.node.budgetUs)
        let s := s.bump (cluPage c) Fd.CLU_CNT_COUNT 5
        if r.task.expiries = 0 then
          let s := (s.dropTask c).modCore c fun x => { x with testing := true }
          s.reexec core.quad.ix { r.task with expiries := 1 } 0
        else s.takeExc c r Exc.WATCHDOG

end Sys2Proof.Machine
end

