-- ==== Sys2Proof/Machine/KwVector.lean ====
section
/-! DEFINITION. The Kwalia predicate and vector instructions (R338). -/

namespace Sys2Proof.Machine

def boolMask (b : Bool) : BitVec 16 := if b then 0xFFFF else 0

/-- R338, PCMP. -/
def execKPcmp (x : CArgs) (d : Fin 8) (a b : Fin 32) (cond : BitVec 7) (s : State) : Res :=
  .next (s.kStep (encF x.g 0x30 d.val a.val b.val cond.toNat) x.core x.g false false false fun s r =>
    .next s (r.setP d (boolMask ((condWords cond.toNat (r.rg a) (r.rg b)).getD false))))
/-- R338, PFLAG. -/
def execKPflag (x : CArgs) (d : Fin 8) (cond : BitVec 7) (s : State) : Res :=
  .next (s.kStep (encF x.g 0x31 d.val 0 0 cond.toNat) x.core x.g false false false fun s r =>
    .next s (r.setP d (boolMask ((condFlags cond.toNat r.flags).getD false))))

/-- A predicate logic instruction. -/
def State.kPlog (s : State) (i : Word) (x : PArgs) (f : BitVec 16 → BitVec 16 → BitVec 16) : State :=
  s.kStep i x.core x.g false false false fun s r => .next s (r.setP x.d (f (r.pg x.a) (r.pg x.b)))
/-- R338, PLOG AND. -/
def execKPlogAnd (x : PArgs) (s : State) : Res := .next (s.kPlog (encP x 0) x fun a b => a &&& b)
/-- R338, PLOG OR. -/
def execKPlogOr (x : PArgs) (s : State) : Res := .next (s.kPlog (encP x 1) x fun a b => a ||| b)
/-- R338, PLOG XOR. -/
def execKPlogXor (x : PArgs) (s : State) : Res := .next (s.kPlog (encP x 2) x fun a b => a ^^^ b)
/-- R338, PLOG ANDN. -/
def execKPlogAndn (x : PArgs) (s : State) : Res := .next (s.kPlog (encP x 3) x fun a b => a &&& ~~~b)
/-- R338, PLOG NOT. -/
def execKPlogNot (x : PArgs) (s : State) : Res := .next (s.kPlog (encF x.g 0x32 x.d.val x.a.val 0 4) x fun a _ => ~~~a)
/-- R338, PSET. -/
def execKPset (x : CArgs) (d : Fin 8) (imm : BitVec 16) (s : State) : Res :=
  .next (s.kStep (encG x.g 0x33 (d.val * 2 ^ 17 + imm.toNat)) x.core x.g false false false fun s r => .next s (r.setP d imm))
/-- R338, PMOV. -/
def execKPmov (x : CArgs) (d : Fin 8) (a : Fin 32) (s : State) : Res :=
  .next (s.kStep (encF x.g 0x34 d.val a.val 0 0) x.core x.g false false false fun s r => .next s (r.setP d ((r.rg a).truncate 16)))
/-- R338, PGET. -/
def execKPget (x : CArgs) (d : Fin 32) (a : Fin 8) (s : State) : Res :=
  .next (s.kStep (encF x.g 0x35 d.val a.val 0 0) x.core x.g false false false fun s r => .next s (r.setG d ((r.pg a).zeroExtend 32)))
/-- R338, PCNT. -/
def execKPcnt (x : CArgs) (d : Fin 32) (a : Fin 8) (s : State) : Res :=
  .next (s.kStep (encF x.g 0x36 d.val a.val 0 0) x.core x.g false false false fun s r => .next s (r.setG d (BitVec.ofNat 32 (popNat 16 (r.pg a).toNat))))

/-- A vector instruction: each active lane gets its result. -/
def State.kVec (s : State) (i : Word) (x : VArgs) (f : Word → Word → Word) : State :=
  s.kStep i x.core x.g true false false fun s r =>
    .next s (r.setLanes x.d (r.mask x.g) fun l => f (r.lane x.a l) (r.lane x.b l))
/-- R338, VADD. -/
def execKVadd (x : VArgs) (s : State) : Res := .next (s.kVec (encV x 0) x (fun a b => a + b))
/-- R338, VSUB. -/
def execKVsub (x : VArgs) (s : State) : Res := .next (s.kVec (encV x 1) x (fun a b => a - b))
/-- R338, VMUL. -/
def execKVmul (x : VArgs) (s : State) : Res := .next (s.kVec (encV x 2) x (fun a b => a * b))
/-- R338, VAND. -/
def execKVand (x : VArgs) (s : State) : Res := .next (s.kVec (encV x 3) x (fun a b => a &&& b))
/-- R338, VOR. -/
def execKVor (x : VArgs) (s : State) : Res := .next (s.kVec (encV x 4) x (fun a b => a ||| b))
/-- R338, VXOR. -/
def execKVxor (x : VArgs) (s : State) : Res := .next (s.kVec (encV x 5) x (fun a b => a ^^^ b))
/-- R338, VSHL. -/
def execKVshl (x : VArgs) (s : State) : Res := .next (s.kVec (encV x 6) x Alu.shlW)
/-- R338, VSHR. -/
def execKVshr (x : VArgs) (s : State) : Res := .next (s.kVec (encV x 7) x Alu.shrW)
/-- R338, VSAR. -/
def execKVsar (x : VArgs) (s : State) : Res := .next (s.kVec (encV x 8) x Alu.sarW)
/-- R338, VMIN. -/
def execKVmin (x : VArgs) (s : State) : Res := .next (s.kVec (encV x 9) x Alu.minW)
/-- R338, VMAX. -/
def execKVmax (x : VArgs) (s : State) : Res := .next (s.kVec (encV x 10) x Alu.maxW)
/-- R338, VMINU. -/
def execKVminu (x : VArgs) (s : State) : Res := .next (s.kVec (encV x 11) x Alu.minuW)
/-- R338, VMAXU. -/
def execKVmaxu (x : VArgs) (s : State) : Res := .next (s.kVec (encV x 12) x Alu.maxuW)
/-- R338, VMOV. -/
def execKVmov (x : VArgs) (s : State) : Res := .next (s.kVec (encF x.g 0x38 x.d.val x.a.val 0 13) x (fun a _ => a))

/-- R338, VCMP: bits of inactive lanes are 0. -/
def execKVcmp (x : CArgs) (d : Fin 8) (a b : Fin 16) (cond : BitVec 7) (s : State) : Res :=
  .next (s.kStep (encF x.g 0x39 d.val a.val b.val cond.toNat) x.core x.g true false false fun s r =>
    let m := r.mask x.g
    let bits := (List.range 16).foldl (fun n l =>
      n + if m.getLsbD l ∧ (condWords cond.toNat (r.lane a l) (r.lane b l)).getD false then 2 ^ l else 0) 0
    .next s (r.setP d (BitVec.ofNat 16 bits)))
/-- R338, VBCAST. -/
def execKVbcast (x : CArgs) (d : Fin 16) (a : Fin 32) (s : State) : Res :=
  .next (s.kStep (encF x.g 0x3A d.val a.val 0 0) x.core x.g true false false fun s r => .next s (r.setLanes d (r.mask x.g) fun _ => r.rg a))
/-- R338, VEXT. -/
def execKVext (x : CArgs) (d : Fin 32) (a : Fin 16) (lane : Fin 16) (s : State) : Res :=
  .next (s.kStep (encF x.g 0x3B d.val a.val 0 lane.val) x.core x.g false false false fun s r => .next s (r.setG d (r.lane a lane.val)))
/-- R338, VINS. -/
def execKVins (x : CArgs) (d : Fin 16) (a : Fin 32) (lane : Fin 16) (s : State) : Res :=
  .next (s.kStep (encF x.g 0x3C d.val a.val 0 lane.val) x.core x.g false false false fun s r => .next s (r.setLane d lane.val (r.rg a)))
/-- R338, VSUM: the sum of the active lanes; it sets N and Z. -/
def execKVsum (x : CArgs) (d : Fin 32) (a : Fin 16) (s : State) : Res :=
  .next (s.kStep (encF x.g 0x3D d.val a.val 0 0) x.core x.g true false false fun s r =>
    let m := r.mask x.g
    let t := (List.range 16).foldl (fun (n : Word) l => if m.getLsbD l then n + r.lane a l else n) 0
    .next s ({ r with flags := r.flags.after (.plain t) }.setG d t))

end Sys2Proof.Machine
end

