-- ==== Sys2Proof/Machine/LateEvents.lean ====
section
/-! DEFINITION. What runs once a hold is over: commands that waited for admission, and Connects held by an instance reset or a
firmware activation (R117, R136, R138, R156, R157). -/

namespace Sys2Proof.Machine

/-- The state that an outcome goes on in. -/
def nextOr (s : State) (r : Res) : State := match r with | .next t => t | _ => s

/-- Carry out an admin command that waited. -/
def State.runAdmin (s : State) (op : Instr) : State :=
  match op with
  | .getLogPage a b c d e => nextOr s (execGetLogPage a b c d e s)
  | .identify a b c => nextOr s (execIdentify a b c s)
  | .keepAlive a => nextOr s (execKeepAlive a s)
  | .abort a b c => nextOr s (execAbort a b c s)
  | .setFeatures a b c d e => nextOr s (execSetFeatures a b c d e s)
  | .getFeatures a b c d => nextOr s (execGetFeatures a b c d s)
  | .asynchronousEventRequest a => nextOr s (execAsynchronousEventRequest a s)
  | .namespaceManagement a b c d e f g h i j => nextOr s (execNamespaceManagement a b c d e f g h i j s)
  | .namespaceAttachment a b c d => nextOr s (execNamespaceAttachment a b c d s)
  | .formatNvm a b c d e f => nextOr s (execFormatNvm a b c d e f s)
  | .sanitize a b c => nextOr s (execSanitize a b c s)
  | .securitySend a b c d => nextOr s (execSecuritySend a b c d s)
  | .securityReceive a b c d => nextOr s (execSecurityReceive a b c d s)
  | .firmwareImageDownload a b c d => nextOr s (execFirmwareImageDownload a b c d s)
  | .firmwareCommit a b c => nextOr s (execFirmwareCommit a b c s)
  | .unsupportedOpcode a b => nextOr s (execUnsupportedOpcode a b s)
  | .controlRead a b c => nextOr s (execControlRead a b c s)
  | .controlWrite a b c d e => nextOr s (execControlWrite a b c d e s)
  | .propertyGet a b => nextOr s (execPropertyGet a b s)
  | .propertySet a b c => nextOr s (execPropertySet a b c s)
  | .authenticationSend a b c d e f => nextOr s (execAuthenticationSend a b c d e f s)
  | .authenticationReceive a => nextOr s (execAuthenticationReceive a s)
  | .disconnect a => nextOr s (execDisconnect a s)
  | _ => s
/-- The oldest admin command that waits runs; the rest wait behind it. -/
def State.admitAdmin (s : State) (c : Nat) : State :=
  match s.ctrl? c with
  | none => s
  | some k =>
    match k.adminWait with
    | [] => s
    | op :: rest =>
      if s.cmd.act ≠ .idle then s
      else ((s.modCtrl c fun k => { k with adminWait := [] }).runAdmin op).modCtrl c fun k => { k with adminWait := k.adminWait ++ rest }
/-- The oldest command that waits on an I/O queue: one that needs no context is carried out, another is admitted where there is
room. -/
def State.admitIo (s : State) (c qid : Nat) : State :=
  let front := ((s.ctrl? c).bind fun k => KV.get? k.queues qid).bind fun q => q.waiting.head?
  let pop := fun (s : State) => s.modCtrl c fun k => { k with queues := KV.adjust k.queues qid fun q => { q with waiting := q.waiting.drop 1 } }
  match front with
  | none => s
  | some op => match op with
    | .disconnect cap => if s.cmd.act ≠ .idle then s else ((pop s).postCap cap St.ok).dropQueue c qid
    | .unsupportedOpcode cap _ => if s.cmd.act ≠ .idle then s else (pop s).postCap cap St.invalidOpcode
    | _ => s.admitOldest c qid
/-- R117, R136, R138. -/
def execCommandAdmit (ctrl qid : Nat) (bad : Option Bool) (s : State) : Res :=
  .next <|
    let inst := ((s.ctrl? ctrl).map (·.inst)).getD 0
    let go := fun (s : State) => if qid = 0 then s.admitAdmin ctrl else s.admitIo ctrl qid
    match bad with
    | none => go s
    | some false => go (s.logEv Pg.CMD 0x0505 .absorbed inst)
    | some true => (s.logEv Pg.CMD 0x0505 .degraded inst).endAssoc ctrl

/-! ## Held Connects -/

/-- A held Connect arrives again. -/
def State.connectAgain (s : State) (op : Instr) : State :=
  match op with
  | .connect conn subnqn qid entries katoMs hostnqn ctrl => nextOr s (execConnect conn subnqn qid entries katoMs hostnqn ctrl s)
  | _ => s
/-- The connection of a held Connect. -/
def connectConn (op : Instr) : Nat := match op with | .connect conn .. => conn | _ => 0
/-- Held Connects whose connection satisfies `p` arrive again, in their order. -/
def State.connectsAgain (s : State) (p : Conn → Bool) : State :=
  let sel := fun (op : Instr) => match s.conn? (connectConn op) with | some c => p c | none => true
  let l := s.cmd.heldConnects.filter sel
  l.foldl (fun s op => s.connectAgain op) (s.modCmd fun m => { m with heldConnects := m.heldConnects.filter fun op => ! sel op })

/-- R136. Step 3: the new image runs, or the previous one resumes; step 4. -/
def execImageSwapDone (ok : Bool) (s : State) : Res :=
  .next <|
    if s.cmd.act = .idle ∨ (s.cmd.act = .draining ∧ s.inFlight) then s
    else
      let slot := (s.cmd.actCmd.map Prod.snd).getD 0
      let s :=
        if ok then (s.swapTo slot).endActivation St.ok
        else (s.logEv Pg.CMD 0x0503 .notice).endActivation St.badFirmware
      s.connectsAgain fun _ => true

/-- R156, R157. Step 4 of an instance reset. -/
def execInstanceResetDone (inst : Fin 256) (s : State) : Res :=
  .next <|
    let i := inst.val
    let t := s.instOf i
    let mine := s.cmd.ctxs.filter fun e => e.2.inst = i
    if ! t.resetting ∨ mine.any (fun e => e.2.state = .admitted ∨ e.2.state = .issued) then s
    else
      let s := mine.foldl (fun s e => s.finish e.1 St.ok) s
      let s := s.modCmd fun m => { m with ctrls := m.ctrls.filter fun k => ! (k.2.inst = i && k.2.closing && ! k.2.disc) }
      let s := (s.modInstOf i fun t => { t with resetting := false, resetHeld := none, disableHeld := false }).setEv (Pg.INST i) 10
      let joined : Bool := t.resetHeld.isSome && s.inst.result = 3
      let s := if s.inst.acting.contains i ∧ ! joined then s.actionDone i (if s.inst.result = 3 then 3 else 0) else s
      let s := if t.disableHeld then s.disableClean i else s
      let s := s.connectsAgain fun c => c.inst = i && ! c.disc
      match t.resetHeld with
      | some who => s.resetBegins i who
      | none => s

end Sys2Proof.Machine
end

