-- ==== Sys2Proof/Machine/MctpEvents.lean ====
section
/-! DEFINITION. The management bus: MCTP control messages, NVMe-MI and the vendor operations, sent by the manager (R428,
R429). -/

namespace Sys2Proof.Machine

/-- A message reaches the MP, or has no response. -/
def State.onBus (s : State) (f : State → State) : State := if s.busUp then f s else s
/-- A response to an MCTP control or NVMe-MI message. -/
def State.reply (s : State) (code : Nat) (data : List Byte) : State := s.emit (.mctpCtl code data)
/-- A response to a vendor operation. -/
def State.answer (s : State) (tag : Byte) (code : Nat) (data : List Byte) : State := s.emit (.mctp tag code data)

/-! ## MCTP control (R428); codes and layouts of DSP0236, PRESUMED -/

/-- R428. EIDs 0 and 255 are no endpoint's. -/
def execMctpSetEndpointId (eid : BitVec 8) (s : State) : Res :=
  .next <| s.onBus fun s =>
    if eid = 0 ∨ eid = 0xFF then s.reply 2 []
    else (s.modMctp fun m => { m with eid := eid.toNat }).reply 0 [0, eid, 0]
/-- R428. -/
def execMctpGetEndpointId (s : State) : Res :=
  .next <| s.onBus fun s => s.reply 0 [BitVec.ofNat 8 s.mctp.eid, 0, 0]
/-- R428. The version numbers are free values. -/
def execMctpGetVersionSupport (msgType : BitVec 8) (s : State) : Res :=
  .next <| s.onBus fun s =>
    if msgType = 0xFF ∨ msgType = 0 ∨ msgType = 4 ∨ msgType = 0x7F then
      let (n, s) := s.draw
      s.reply 0 (1 :: sliceB (Config.miData n msgType.toNat) 0 4)
    else s.reply 0x80 []
/-- R428. -/
def execMctpGetMessageTypeSupport (s : State) : Res := .next <| s.onBus fun s => s.reply 0 [2, 0x04, 0x7F]
/-- R428: the enterprise number 57,931; the command set's version is a free value. -/
def execMctpGetVendorMessageSupport (s : State) : Res :=
  .next <| s.onBus fun s =>
    let (n, s) := s.draw
    s.reply 0 (0xFF :: 1 :: (leBytes 4 57931).reverse ++ sliceB (Config.miData n 0x17F) 0 2)

/-! ## NVMe-MI (R428); layouts of the NVMe-MI standard, PRESUMED, with free bytes where the spec gives no value -/

/-- R428. Type 2 is the list of controllers. -/
def execMiReadDataStructure (dtyp : BitVec 8) (s : State) : Res :=
  .next <| s.onBus fun s =>
    let l := s.cmd.ctrls.map Prod.fst
    let (n, s) := s.draw
    if dtyp = 2 then s.reply 0 (leBytes 2 l.length ++ l.flatMap fun c => leBytes 2 c)
    else if dtyp.toNat < 5 then s.reply 0 (Config.miData n (256 + dtyp.toNat))
    else s.reply 4 []
/-- The composite temperature in °C. -/
def State.compositeC (s : State) : Nat := s.compositeK - 273
/-- R428. -/
def execMiSubsystemHealthPoll (clear : Bool) (s : State) : Res :=
  .next <| s.onBus fun s =>
    let (n, s) := s.draw
    s.reply 0 (overlay 8 (Config.miData n (512 + clear.toNat))
      [(1, leBytes 1 (255 - s.criticalWarning % 256)), (2, leBytes 1 s.compositeC), (3, leBytes 1 s.pctUsed), (6, zeros 2)])
/-- R428. -/
def execMiControllerHealthPoll (first : Nat) (s : State) : Res :=
  .next <| s.onBus fun s =>
    let (n, s) := s.draw
    let l := s.cmd.ctrls.filter fun c => decide (first ≤ c.1)
    s.reply 0 (l.flatMap fun c =>
      overlay 16 (Config.miData n (1024 + c.1))
        [(0, leBytes 2 c.1), (2, leBytes 2 (c.2.rdy.toNat + 4 * c.2.shst)), (4, leBytes 2 s.compositeK), (6, leBytes 1 s.pctUsed),
         (7, leBytes 1 s.availPct), (8, leBytes 1 s.criticalWarning)])
/-- R428: identifier 1 is the SMBus frequency (1: 100 kHz, 2: 400 kHz), 3 the transmission unit. -/
def execMiConfigurationGet (id : BitVec 8) (s : State) : Res :=
  .next <| s.onBus fun s =>
    if id = 1 then s.reply 0 (leBytes 3 (if s.mctp.smbusKhz = 400 then 2 else 1))
    else if id = 3 then s.reply 0 (leBytes 3 s.mctp.mtu) else s.reply 4 []
/-- R428. The transmission unit is 64 bytes. -/
def execMiConfigurationSet (id : BitVec 8) (value : Nat) (s : State) : Res :=
  .next <| s.onBus fun s =>
    if id = 1 ∧ (value = 1 ∨ value = 2) then (s.modMctp fun m => { m with smbusKhz := if value = 2 then 400 else 100 }).reply 0 []
    else if id = 3 ∧ value = 64 then (s.modMctp fun m => { m with mtu := value }).reply 0 []
    else s.reply 4 []

/-! ## Vendor operations (R429) -/

/-- R429. -/
def execMctpControlRead (tag : Byte) (addr : BitVec 26) (nwords : BitVec 11) (s : State) : Res :=
  .next <| s.onBus fun s =>
    let pg := pageOf addr
    let off := offOf addr
    let n := nwords.toNat
    if ! accessOk .manager addr pg off n ∨ 12 < n then s.answer tag 1 []
    else
      let (l, s) := (s.tickPage pg).readWords .manager pg off n
      s.answer tag 0 (l.flatMap fun v => leBytes 4 v)
/-- R429. A write whose COMMIT was taken is answered when it ends. -/
def execMctpControlWrite (tag : Byte) (addr : BitVec 26) (nwords : BitVec 11) (words : List Word) (commitAfter : Bool) (s : State) : Res :=
  .next <| s.onBus fun s =>
    let pg := pageOf addr
    let off := offOf addr
    let n := nwords.toNat
    if ! accessOk .manager addr pg off n ∨ 12 < n then s.answer tag 1 []
    else
      let (e, s) := s.writeMany .manager pg off ((List.range n).map fun i => (words.getD i 0).toNat) commitAfter (.mctp tag)
      let data := leBytes 4 (if wantsStatus off n commitAfter then s.commitStatus pg else 0)
      match e with
      | .waits => s
      | .denied => s.answer tag 4 data
      | .locked => s.answer tag 2 data
      | .busy => s.answer tag 4 data
      | .done => s.answer tag 0 data
/-- R429. -/
def execMctpAttestNonce (tag : Byte) (nonce : List Byte) (s : State) : Res :=
  .next <| s.onBus fun s =>
    if nonce.length ≠ 32 then s.answer tag 1 [] else (s.modMctp fun m => { m with nonce := some nonce }).answer tag 0 []
/-- R415, R429: offset 0 consumes the nonce and makes the report that the later offsets read. -/
def execMctpAttestReport (tag : Byte) (offset : Nat) (s : State) : Res :=
  .next <| s.onBus fun s =>
    if offset % 32 ≠ 0 ∨ 608 ≤ offset then s.answer tag 1 []
    else if offset = 0 then
      match s.mctp.nonce with
      | none => s.answer tag 1 []
      | some n =>
        let r := s.attestReport 0 n
        (s.modMctp fun m => { m with nonce := none, report := r }).answer tag 0 (sliceB r 0 32)
    else if s.mctp.report = [] then s.answer tag 1 []
    else s.answer tag 0 (sliceB s.mctp.report offset 32)
/-- R424, R425, R429. -/
def execMctpLogRead (tag : Byte) (first : BitVec 32) (count : Nat) (s : State) : Res :=
  .next <| s.onBus fun s =>
    if count = 0 ∨ 48 < count then s.answer tag 1 []
    else s.answer tag 0 ((List.range count).flatMap fun k => s.logEntry (first.toNat + k))
/-- R427, R429. -/
def execMctpTimeSet (tag : Byte) (ns : Dword) (s : State) : Res :=
  .next <| s.onBus fun s => (s.setTime ns.toNat).answer tag 0 []
/-- R429: SENS.VALUE of each sensor. -/
def State.sensorWord (s : State) (i : Nat) : Nat := ((s.sensor i).reading % 2 ^ 24).toNat + 2 ^ 24 * (s.sensor i).state.num
def execMctpSensorRead (tag : Byte) (first : Nat) (count : Nat) (s : State) : Res :=
  .next <| s.onBus fun s =>
    if count = 0 ∨ 12 < count ∨ 128 < first + count then s.answer tag 1 []
    else s.answer tag 0 ((List.range count).flatMap fun k => leBytes 4 (s.sensorWord (first + k)))

end Sys2Proof.Machine
end

