-- ==== Sys2Proof/Machine/NetEvents.lean ====
section
/-! DEFINITION. Frames, pauses, link state, transports and pulled data at the network edge (R79 to R94, R104, R133). -/

namespace Sys2Proof.Machine

/-! ## Local addresses (R79, R81) -/

def entryFlag (e : List Byte) (bit : Nat) : Bool := (e.getD 0x10 0).getLsbD bit
def entryPort (e : List Byte) (p k : Nat) : Bool := (e.getD 0x11 0).getLsbD (4 * p + k)
def entryVlan (e : List Byte) : Nat := beNat (sliceB e 0x12 2) % 4096
/-- The valid entries of an address and VLAN on a sub-link. -/
def State.localEntries (s : State) (p k : Nat) (vlan : Nat) (ipv6 : Bool) (addr : List Byte) : KV (List Byte) :=
  s.net.addrs.filter fun e =>
    entryFlag e.2 0 && entryFlag e.2 1 = ipv6 && entryPort e.2 p k && decide (entryVlan e.2 = vlan) && decide (sliceB e.2 0 16 = sliceB addr 0 16)

/-! ## Receiving (R79, R82, R85, R86, R88, R89, R92) -/

/-- What MACsec makes of a frame: dropped, or passed on, counted where it came unprotected in CHECK. -/
def State.macsecRx (s : State) (p k : Nat) (f : Frame) : Option State :=
  let pg := Pg.NET p
  let sa := [2, 3].any fun j => s.cfgAt pg Fd.NET_MACSEC_SA_VALID (4 * k + j) = 1
  match s.cfg pg Fd.NET_NET_CTRL_MACSEC_MODE with
  | 0 => if f.macsec then none else some s
  | 1 => if f.macsec then (if f.macsecOk && sa then some s else none) else some (s.bumpSub p k 7)
  | _ => if f.macsec then (if f.macsecOk && sa then some s else none) else if f.macControl then some s else none
/-- Step 2 of R86: a packet is treated as marked, by the occupancy and the packet's draw. -/
def State.occupancyMarks (s : State) (i draw : Nat) : Bool :=
  let o := s.rxO
  let kmin := mibB (s.cfg Pg.NETX Fd.NETX_ECN_KMIN)
  let kmax := mibB (s.cfg Pg.NETX Fd.NETX_ECN_KMAX)
  ! s.rxWithin i && decide (kmin ≤ o) && (decide (kmax < o) || decide (draw * (kmax - kmin) < s.cfg Pg.NETX Fd.NETX_ECN_PMAX * (o - kmin)))
/-- A frame of a connection goes to the receive SRAM, to PFC headroom or to the spill area, or is dropped. -/
def State.rxPlace (s : State) (p k : Nat) (f : Frame) (i : Nat) : State :=
  let lossless := (s.cfg (Pg.NET p) Fd.NET_PFC_CTRL_LOSSLESS).testBit f.prio.val
  let put := fun (s : State) (head : Bool) => (s.modNet fun m => { m with sram := m.sram ++ [⟨f.conn, f.len, head⟩] }).spillTrack
  if s.net.spilling then
    if s.spillUsed + f.len ≤ s.spillCap then (s.modNet fun m => { m with spill := m.spill ++ [⟨f.conn, f.len, false⟩] }).pfcTrack
    else
      let s := if s.net.full then s else (s.modNet fun m => { m with full := true }).logEv Pg.NETX 0x0406 .notice
      if lossless then put s true
      else if s.rxWithin i then put s false
      else s.bump Pg.NETX Fd.NETX_CNT_COUNT 7
  else if s.rxM < s.rxO + f.len then s.bumpSub p k 3
  else put s false
/-- R79, R82, R86, R88, R89, R92. -/
def execFrameReceive (port : Fin 2) (sub : Fin 4) (f : Frame) (s : State) : Res :=
  .next <|
    let p := port.val
    let k := sub.val
    if ! s.subReady p k ∨ ! (s.subOf p k).up then s
    else
      let s := s.bumpSub p k 2
      if ! f.fecOk then
        let (n, s) := s.draw
        (s.modSub p k fun x => { x with cnt := KV.put x.cnt 1 ((KV.getD 0 x.cnt 1 + 1 + n) % 2 ^ 32) }).bumpSub p k 3
      else if ! f.fcsOk then s.bumpSub p k 3
      else match s.macsecRx p k f with
        | none => s.bumpSub p k 6
        | some s =>
          if f.macControl then s
          else if f.len < 64 ∨ s.cfg (Pg.NET p) Fd.NET_NET_CTRL_MAX_FRAME < f.len ∨ f.fragment
              ∨ (s.localEntries p k f.vlan.toNat f.ipv6 f.dst).isEmpty then s.bumpSub p k 3
          else match s.conn? f.conn with
            | none => s
            | some c =>
              let s := s.modConn f.conn fun c => { c with prio := some (c.prio.getD f.prio.val) }
              let mark := f.ce || ((c.roce || c.ecn) && s.occupancyMarks c.inst f.draw.val)
              (if mark then s.markedOn f.conn else s).rxPlace p k f c.inst
/-- R85, R86. Spilled frames return to processing, the oldest first. -/
def takeMib : Nat → List RxFrame → List RxFrame × List RxFrame
  | _, [] => ([], [])
  | n, f :: l => if f.bytes ≤ n then let (a, b) := takeMib (n - f.bytes) l; (f :: a, b) else ([], f :: l)
def execSpillReturn (mib : Nat) (s : State) : Res :=
  .next <|
    let (a, b) := takeMib (mibB mib) s.net.spill
    ((s.modNet fun m => { m with spill := b, sram := m.sram ++ a }).spillTrack).pfcTrack
/-- R86, R152. A pause holds back an instance within its minimum for 10 ms. -/
def execReceivePauseBreach (inst : Fin 256) (ms : BitVec 32) (s : State) : Res :=
  .next <|
    let i := inst.val
    if ! s.net.xoff ∨ ms.toNat < 10 ∨ ! s.enabled i ∨ ! s.rxWithin i then s
    else match s.inst.breaches.find? fun b => b.cause = 4 with
      | none => s.breachBegin 4 4 ms.toNat [i]
      | some b =>
        if b.insts.contains i then s
        else
          let s := s.modInst fun m => { m with breaches := m.breaches.map fun x => if x.notice = b.notice then { x with insts := insNat i x.insts } else x }
          s.noticeTo i b.notice 1 (noticeBytes b.notice b.rung 1 4 b.start 0 1 0 ms.toNat)

/-! ## Pause from the far side (R89) -/

/-- The far side pauses priorities of the mask and resumes the others, as far as they are lossless. -/
def execPfcPauseReceive (port : Fin 2) (sub : Fin 4) (prios : BitVec 8) (s : State) : Res :=
  .next <|
    let p := port.val
    let k := sub.val
    if ! s.subReady p k ∨ ! (s.subOf p k).up then s
    else
      let s := s.bumpSub p k 5
      let ll := s.cfg (Pg.NET p) Fd.NET_PFC_CTRL_LOSSLESS
      s.modSub p k fun x =>
        { x with
          paused := ((List.range 8).filter fun n => ll.testBit n && prios.getLsbD n).map fun n => (n, KV.getD s.now x.paused n) }
/-- The watchdog ignores the pause for 1 s. -/
def execPfcWatchdogFire (port : Fin 2) (sub : Fin 4) (prio : Fin 8) (s : State) : Res :=
  .next <|
    let p := port.val
    let k := sub.val
    let x := s.subOf p k
    match KV.get? x.paused prio.val with
    | none => s
    | some t =>
      if (KV.get? x.ignored prio.val).isSome then s
      else
        let s := s.reach (t + msec (s.cfg (Pg.NET p) Fd.NET_PFC_CTRL_WD_MS))
        let s := s.modSub p k fun x => { x with ignored := KV.put x.ignored prio.val (s.now + secs 1) }
        (s.setEv (Pg.NET p) 11).logEv (Pg.NET p) 0x0404 .notice 0 [BitVec.ofNat 8 k, BitVec.ofNat 8 prio.val]
/-- It watches again after the 1 s. -/
def execPfcWatchdogRearm (port : Fin 2) (sub : Fin 4) (prio : Fin 8) (s : State) : Res :=
  .next <|
    match KV.get? (s.subOf port.val sub.val).ignored prio.val with
    | none => s
    | some t =>
      let s := s.reach t
      s.modSub port.val sub.val fun x =>
        { x with ignored := KV.del x.ignored prio.val, paused := KV.adjust x.paused prio.val fun _ => s.now }

/-! ## Answers (R79) -/

def execArpNdRequest (port : Fin 2) (sub : Fin 4) (vlan : BitVec 12) (ipv6 : Bool) (addr : List Byte) (s : State) : Res :=
  .next <|
    let p := port.val
    let k := sub.val
    if ! s.subReady p k ∨ ! (s.subOf p k).up ∨ (s.localEntries p k vlan.toNat ipv6 addr).isEmpty then s
    else s.emit (.arpReply p k (sliceB addr 0 16))
def execIcmpEchoRequest (port : Fin 2) (sub : Fin 4) (vlan : BitVec 12) (ipv6 : Bool) (addr : List Byte) (s : State) : Res :=
  .next <|
    let p := port.val
    let k := sub.val
    if ! s.subReady p k ∨ ! (s.subOf p k).up then s
    else if (s.localEntries p k vlan.toNat ipv6 addr).any fun e => entryFlag e.2 2 then s.emit (.icmpReply p k (sliceB addr 0 16))
    else s

/-! ## Link state (R25, R83, R104) -/

def execSublinkDegradedSet (port : Fin 2) (sub : Fin 4) (s : State) : Res :=
  .next <|
    let p := port.val
    let k := sub.val
    if ! s.subReady p k ∨ ! (s.subOf p k).up ∨ (s.subOf p k).degraded then s
    else (s.withAna p fun s => s.modSub p k fun x => { x with degraded := true }).logEv (Pg.NET p) 0x0402 .notice 0 [BitVec.ofNat 8 k, 1]
def execSublinkDegradedClear (port : Fin 2) (sub : Fin 4) (s : State) : Res :=
  .next <|
    let p := port.val
    let k := sub.val
    if ! (s.subOf p k).degraded then s
    else (s.withAna p fun s => s.modSub p k fun x => { x with degraded := false }).logEv (Pg.NET p) 0x0402 .notice 0 [BitVec.ofNat 8 k, 0]
/-- A fault threshold: the sub-link is taken down and its self-test runs. -/
def State.faultDown (s : State) (p k : Nat) : State :=
  if ! s.subReady p k ∨ ! (s.subOf p k).up then s
  else s.withAna p fun s => (s.linkDown p k).modSub p k fun x => { x with selftest := true }
def execUncorrectableThreshold (port : Fin 2) (sub : Fin 4) (s : State) : Res := .next (s.faultDown port.val sub.val)
def execLaneLockTimeout (port : Fin 2) (sub : Fin 4) (lane : Fin 8) (s : State) : Res :=
  .next <| if lane.val / s.subLanes port.val = sub.val then s.faultDown port.val sub.val else s
/-- R83. A passed test makes the cause external; a failed one the port failed. -/
def execPortSelftestEnd (port : Fin 2) (sub : Fin 4) (pass : Bool) (s : State) : Res :=
  .next <|
    let p := port.val
    let k := sub.val
    if ! (s.subOf p k).selftest then s
    else
      let s := s.setEv (Pg.NET p) 13
      if pass then
        let s := s.withAna p fun s => s.modSub p k fun x => { x with selftest := false, retrainAt := some (s.now + secs 1), backoff := 2 }
        s.logEv (Pg.NET p) 0x0403 .notice 0 [BitVec.ofNat 8 k]
      else s.portFails p
/-- The outside lets a port's link come up: it has been brought up, and no cause at its cage holds it down. -/
def State.mayLink (s : State) (p k : Nat) : Bool :=
  s.subReady p k && ! s.net.external.contains p && ! (s.subOf p k).selftest
    && (s.net.portUp.contains p || s.mode.stage.any fun r => r.slot = 11 + p)
def State.logLink (s : State) (p k : Nat) (up : Bool) : State := s.logEv (Pg.NET p) 0x0401 .notice 0 [BitVec.ofNat 8 k, BitVec.ofNat 8 up.toNat]
/-- R83. A retrain after an external cause; what the lanes learn is not known. -/
def execSublinkRetrain (port : Fin 2) (sub : Fin 4) (up : Bool) (s : State) : Res :=
  .next <|
    let p := port.val
    let k := sub.val
    match (s.subOf p k).retrainAt with
    | none => s
    | some t =>
      if ! s.mayLink p k then s
      else
        let s := s.reach t
        if up then
          let (l, s) := (List.range (s.subLanes p)).foldl (fun (a : List Nat × State) _ => let (n, s) := a.2.draw; (a.1 ++ [n % 2 ^ 32], s)) ([], s)
          (s.linkUp p k l).logLink p k true
        else s.modSub p k fun x => { x with retrainAt := some (s.now + secs x.backoff), backoff := min 60 (2 * x.backoff) }
def execSublinkLinkUp (port : Fin 2) (sub : Fin 4) (eq : List Word) (s : State) : Res :=
  .next <|
    let p := port.val
    let k := sub.val
    if ! s.mayLink p k ∨ (s.subOf p k).up then s
    else (s.linkUp p k (eq.map BitVec.toNat)).logLink p k true
/-- R25. The link is lost from an external cause. -/
def execSublinkLinkDown (port : Fin 2) (sub : Fin 4) (s : State) : Res :=
  .next <| if (s.subOf port.val sub.val).up then (s.linkDown port.val sub.val).logLink port.val sub.val false else s

/-! ## Transmission (R90, R91, R94) -/

/-- The transmit SA of a sub-link. -/
def State.txSa (s : State) (p k : Nat) : Option Nat :=
  ([0, 1].map (4 * k + ·)).find? fun n => s.cfgAt (Pg.NET p) Fd.NET_MACSEC_SA_VALID n = 1 && s.cfgAt (Pg.NET p) Fd.NET_MACSEC_SA_ACTIVE n = 1
def State.connPaused (s : State) (c : Conn) : Bool :=
  let x := s.subOf c.port c.sub
  c.prio.any fun n => (KV.get? x.paused n).isSome && (KV.get? x.ignored n).isNone
/-- The strict classes come first, in descending priority. -/
def State.classRank (s : State) (c : Conn) : Nat :=
  let n := c.prio.getD 0
  if (s.cfg (Pg.NET c.port) Fd.NET_ETS_STRICT_STRICT).testBit n then n + 1 else 0
/-- The connection has data to send and may send it. -/
def State.canSend (s : State) (c : Conn) : Bool := decide (0 < c.waiting) && decide (c.phase = .established) && ! s.connPaused c
/-- Account for a packet of a transmit SA. -/
def State.countPn (s : State) (p n : Nat) : State :=
  let pn := KV.getD 0 s.net.pn (16 * p + n)
  let s := s.modNet fun m => { m with pn := KV.put m.pn (16 * p + n) (pn + 1) }
  if pn + 1 = 0xC000000000000001 then (s.setEv (Pg.NET p) 12).logEv (Pg.NET p) 0x0405 .notice 0 [BitVec.ofNat 8 n] else s
/-- R90, R91, R94. A frame waits for its tokens; nothing goes out under pause, ahead of a higher strict class, or on a transmit SA that
is absent or exhausted. -/
def execFrameTransmit (conn : Nat) (bytes : Nat) (s : State) : Res :=
  .next <|
    match s.conn? conn with
    | none => s
    | some c =>
      let p := c.port
      let first := s.net.conns.any fun e => e.2.port = p && e.2.sub = c.sub && s.canSend e.2 && decide (s.classRank c < s.classRank e.2)
      let sa := s.txSa p c.sub
      let plain := s.cfg (Pg.NET p) Fd.NET_NET_CTRL_MACSEC_MODE = 0
      let saOk := sa.any fun n => decide (KV.getD 0 s.net.pn (16 * p + n) < 2 ^ 64 - 1)
      if ! s.subReady p c.sub ∨ ! (s.subOf p c.sub).up ∨ ! s.canSend c ∨ first ∨ bytes = 0 ∨ c.waiting < bytes ∨ 65536 < bytes ∨ ! (plain ∨ saOk) then s
      else
        let s := s.reach (c.tokensBy bytes)
        let s := s.modConn conn fun c =>
          { c with waiting := c.waiting - bytes, sent := c.sent + bytes, tokens := c.tokensNow s.now - bytes, tokensAt := s.now }
        let s := if plain then s else match sa with | some n => s.countPn p n | none => s
        let s := s.emit (.frame conn bytes)
        if 2 ^ 26 ≤ c.sent + bytes then s.rateIncrease conn else s

/-! ## Transports (R84, R88, R91, R95) -/

/-- The connection is given up: TCP reset, or the queue pair's error state. -/
def State.giveUp (s : State) (n : Nat) : State := (s.emit (.reset n)).loseConn n
/-- R84, R88, R91, R95. -/
def execTcpSegmentReceive (conn : Nat) (seg : PktFlags) (bytes : Nat) (s : State) : Res :=
  .next <|
    match s.conn? conn with
    | none => s
    | some c =>
      if c.roce ∨ ! s.isUp Dom.NETCORE then s
      else if c.reqTls ∧ c.tls = .none ∧ 0 < bytes then s.loseConn conn
      else
        let s := (s.establish conn).modConn conn fun c => { c with timeouts := 0 }
        let s := if seg.ce then s.markedOn conn else s
        let s := s.rxDone conn
        let s := if seg.ece ∧ c.ecn then (s.bump Pg.NETX Fd.NETX_CNT_COUNT 6).rateSignal conn else s
        let s := if seg.rttHigh ∧ s.cfgB Pg.NETX Fd.NETX_RC4_RTT_ENABLE then s.rateSignal conn else s
        let s := if seg.dupAck then
            let s := s.modConn conn fun c => { c with dupAcks := c.dupAcks + 1 }
            if c.dupAcks + 1 = 3 then (s.emit (.retransmit conn)).bump Pg.NETX Fd.NETX_CNT_COUNT 0 else s
          else s.modConn conn fun c => { c with dupAcks := 0 }
        if bytes = 0 then s
        else
          let ece := ((s.conn? conn).map (·.eceOwed)).getD false
          (s.modConn conn fun c => { c with eceOwed := false }).emit (.ack conn ece)
/-- R84, R91. -/
def execTcpRetransmitTimeout (conn : Nat) (s : State) : Res :=
  .next <|
    match s.conn? conn with
    | none => s
    | some c =>
      if c.roce then s
      else
        let s := s.bump Pg.NETX Fd.NETX_CNT_COUNT 1
        if s.cfg Pg.NETX Fd.NETX_TCP_TIMER_RETRIES ≤ c.timeouts + 1 then s.giveUp conn
        else
          let s := s.modConn conn fun c => { c with timeouts := c.timeouts + 1, dupAcks := 0 }
          ((s.emit (.retransmit conn)).bump Pg.NETX Fd.NETX_CNT_COUNT 0).rateSignal conn
/-- R84, R88, R91. -/
def execRocePacketReceive (conn : Nat) (pkt : RocePkt) (s : State) : Res :=
  .next <|
    match s.conn? conn with
    | none => s
    | some c =>
      if ! c.roce ∨ ! s.isUp Dom.NETCORE then s
      else match pkt with
        | .data ce => ((if ce then s.markedOn conn else s).rxDone conn).emit (.ack conn false)
        | .ack => s.modConn conn fun c => { c with retries := 0, rnr := 0 }
        | .nakSequence => (s.bump Pg.NETX Fd.NETX_CNT_COUNT 2).emit (.retransmit conn)
        | .rnrNak =>
          if s.cfg Pg.NETX Fd.NETX_ROCE_TIMER_RNR_RETRY ≤ c.rnr then s.giveUp conn
          else (s.modConn conn fun c => { c with rnr := c.rnr + 1 }).emit (.retransmit conn)
        | .cnp => (s.bump Pg.NETX Fd.NETX_CNT_COUNT 5).rateSignal conn
/-- R84. -/
def execRoceAckTimeout (conn : Nat) (s : State) : Res :=
  .next <|
    match s.conn? conn with
    | none => s
    | some c =>
      if ! c.roce then s
      else if s.cfg Pg.NETX Fd.NETX_ROCE_TIMER_RETRY ≤ c.retries then s.giveUp conn
      else ((s.modConn conn fun c => { c with retries := c.retries + 1 }).emit (.retransmit conn)).bump Pg.NETX Fd.NETX_CNT_COUNT 3
/-- R91. -/
def execAlphaTimerExpiry (conn : Nat) (s : State) : Res :=
  .next <|
    match s.conn? conn with
    | none => s
    | some c =>
      let s := s.reach c.alphaDue
      let g := s.rcG
      s.modConn conn fun c => { c with alpha := (1 - g) * c.alpha, alphaDue := s.now + s.tAlpha }
/-- R91. -/
def execIncTimerExpiry (conn : Nat) (s : State) : Res :=
  .next <|
    match s.conn? conn with
    | none => s
    | some c => (s.reach c.incDue).rateIncrease conn

/-! ## Pulled data (R87, R113, R133) -/

def State.ctxConn (s : State) (x : Ctx) : Option (Nat × Conn) :=
  match s.ctrl? x.ctrl with
  | none => none
  | some k =>
    let n := if x.qid = 0 then k.conn else ((KV.get? k.queues x.qid).map (·.conn)).getD 0
    (s.conn? n).map fun c => (n, c)
/-- Ask for the next piece of a command's data, where the instance's credit covers it. -/
def State.pull (s : State) (n : Nat) (roce : Bool) : State :=
  match s.ctx? n with
  | none => s
  | some x =>
    match s.ctxConn x with
    | none => s
    | some (cn, c) =>
      let len := min 131072 (x.expected - x.asked)
      let open_ := x.open_.length
      if c.roce ≠ roce ∨ len = 0 ∨ x.state ≠ .admitted ∨ (! roce ∧ max 1 c.maxr2t ≤ open_) ∨ s.rxCredit x.inst < len then s
      else
        let due := s.now + msec (s.cfg Pg.CMD Fd.CMD_XFER_TIMEOUT_MS)
        let s := s.modCtx n fun x => { x with asked := x.asked + len, open_ := x.open_ ++ [(x.asked, len)], xferDue := some due }
        s.emit (if roce then .rdmaRead cn n x.asked len else .r2t cn n x.asked len)
def execReadyToTransferSend (ctx : Nat) (s : State) : Res := .next (s.pull ctx false)
def execRdmaReadIssue (ctx : Nat) (s : State) : Res := .next (s.pull ctx true)
/-- A range leaves the list of open ranges; `none` where it lies in none of them. -/
def takeRange (off len : Nat) : List (Nat × Nat) → Option (List (Nat × Nat))
  | [] => none
  | (o, n) :: l =>
    if o ≤ off ∧ off + len ≤ o + n then
      some ((if o < off then [(o, off - o)] else []) ++ (if off + len < o + n then [(off + len, o + n - (off + len))] else []) ++ l)
    else (takeRange off len l).map fun r => (o, n) :: r
/-- R133. -/
def execWriteDataReceive (ctx : Nat) (offset : Nat) (data : List Byte) (wellFormed : Bool) (s : State) : Res :=
  .next <|
    match s.ctx? ctx with
    | none => if s.cmd.retired.contains ctx then s.bumpBy Pg.CMD Fd.CMD_CNT_COUNT 5 data.length else s
    | some x =>
      match s.ctxConn x with
      | none => s
      | some (cn, _) =>
        if ! wellFormed then
          let (n, s) := s.draw
          s.terminate cn x.inst (n % 2 ^ 16)
        else if data = [] then s
        else match takeRange offset data.length x.open_ with
          | none => s.terminate cn x.inst 4
          | some l =>
            let s := s.modCtx ctx fun x => { x with got := putB x.got offset data, open_ := l }
            if l = [] ∧ x.asked = x.expected then s.dataWhole ctx else s
/-- R113. -/
def execIcreqReceive (conn : Nat) (pfv hpda : Nat) (hdgst ddgst : Bool) (maxr2t : Nat) (s : State) : Res :=
  .next <|
    match s.conn? conn with
    | none => s
    | some c =>
      if c.roce ∨ c.icDone then s
      else if c.reqTls ∧ c.tls ≠ .done then s.loseConn conn
      else if pfv ≠ 0 ∨ hpda ≠ 0 then s.terminate conn c.inst 6
      else
        ((s.establish conn).modConn conn fun c => { c with icDone := true, hdgst := hdgst, ddgst := ddgst, maxr2t := maxr2t + 1 }).emit
          (.icResp conn hdgst ddgst)

end Sys2Proof.Machine
end

