-- ==== Sys2Proof/Machine/Dispatch.lean ====
section
/-! DEFINITION. One arm for each command: its meaning. -/

namespace Sys2Proof.Machine

open Sys2Proof

def exec (i : Instr) (s : State) : Host.Outcome State Fault Refusal :=
  match i with
  | .registerWrite path addr value => Sys2Proof.Machine.execRegisterWrite path addr value s
  | .stagedWrite path addr value => Sys2Proof.Machine.execStagedWrite path addr value s
  | .controlRead cap addr nwords => Sys2Proof.Machine.execControlRead cap addr nwords s
  | .controlWrite cap addr nwords words commitAfter => Sys2Proof.Machine.execControlWrite cap addr nwords words commitAfter s
  | .commit path page => Sys2Proof.Machine.execCommit path page s
  | .commitDone page ecc => Sys2Proof.Machine.execCommitDone page ecc s
  | .pageCtrlAbort path page => Sys2Proof.Machine.execPageCtrlAbort path page s
  | .pageCtrlFactory path page => Sys2Proof.Machine.execPageCtrlFactory path page s
  | .expertKeyWrite path page value => Sys2Proof.Machine.execExpertKeyWrite path page value s
  | .expertRegionExpiry path page => Sys2Proof.Machine.execExpertRegionExpiry path page s
  | .keyLockoutEnd page => Sys2Proof.Machine.execKeyLockoutEnd page s
  | .stagingOwnerTimeout page => Sys2Proof.Machine.execStagingOwnerTimeout page s
  | .evSetWrite path page value => Sys2Proof.Machine.execEvSetWrite path page value s
  | .evClrWrite path page value => Sys2Proof.Machine.execEvClrWrite path page value s
  | .timeLoRead path => Sys2Proof.Machine.execTimeLoRead path s
  | .registerScrub corrected uncorrectable => Sys2Proof.Machine.execRegisterScrub corrected uncorrectable s
  | .registerWordRestored addr ok => Sys2Proof.Machine.execRegisterWordRestored addr ok s
  | .settingSaveDone page => Sys2Proof.Machine.execSettingSaveDone page s
  | .storeCompactionDone copy => Sys2Proof.Machine.execStoreCompactionDone copy s
  | .storeCopyReformat copy => Sys2Proof.Machine.execStoreCopyReformat copy s
  | .mgmtDomainRise imageOk aOk bOk lostA lostB => Sys2Proof.Machine.execMgmtDomainRise imageOk aOk bOk lostA lostB s
  | .startRequest path => Sys2Proof.Machine.execStartRequest path s
  | .shutdownRequest path => Sys2Proof.Machine.execShutdownRequest path s
  | .diagnosticRequest path => Sys2Proof.Machine.execDiagnosticRequest path s
  | .leaveDiagnosticRequest path => Sys2Proof.Machine.execLeaveDiagnosticRequest path s
  | .preserveEnterRequest path => Sys2Proof.Machine.execPreserveEnterRequest path s
  | .preserveReleaseRequest path => Sys2Proof.Machine.execPreserveReleaseRequest path s
  | .autoStart => Sys2Proof.Machine.execAutoStart s
  | .autoReturnStart => Sys2Proof.Machine.execAutoReturnStart s
  | .stageMethodEnd r => Sys2Proof.Machine.execStageMethodEnd r s
  | .stageMethodTimeout => Sys2Proof.Machine.execStageMethodTimeout s
  | .skipLatchClear path value => Sys2Proof.Machine.execSkipLatchClear path value s
  | .orderlyShutdownStepEnd => Sys2Proof.Machine.execOrderlyShutdownStepEnd s
  | .drainLimitExpiry => Sys2Proof.Machine.execDrainLimitExpiry s
  | .shutdownStepOverrun => Sys2Proof.Machine.execShutdownStepOverrun s
  | .vmainInRange mv => Sys2Proof.Machine.execVmainInRange mv s
  | .vauxInRange mv => Sys2Proof.Machine.execVauxInRange mv s
  | .vauxLost mv => Sys2Proof.Machine.execVauxLost mv s
  | .inputsRemoved => Sys2Proof.Machine.execInputsRemoved s
  | .powerFailWarning => Sys2Proof.Machine.execPowerFailWarning s
  | .pwrdisAssert => Sys2Proof.Machine.execPwrdisAssert s
  | .pwrdisRelease => Sys2Proof.Machine.execPwrdisRelease s
  | .resetAssert => Sys2Proof.Machine.execResetAssert s
  | .resetLow10ms => Sys2Proof.Machine.execResetLow10ms s
  | .resetRelease => Sys2Proof.Machine.execResetRelease s
  | .ppsEdge falling => Sys2Proof.Machine.execPpsEdge falling s
  | .transceiverInsert port deciWatt => Sys2Proof.Machine.execTransceiverInsert port deciWatt s
  | .transceiverRemove port => Sys2Proof.Machine.execTransceiverRemove port s
  | .pllLockLoss dom => Sys2Proof.Machine.execPllLockLoss dom s
  | .pllRelockDone dom ok => Sys2Proof.Machine.execPllRelockDone dom ok s
  | .jtagInstruction op => Sys2Proof.Machine.execJtagInstruction op s
  | .debugChallenge slot response => Sys2Proof.Machine.execDebugChallenge slot response s
  | .flitReceive link crcOk badWire => Sys2Proof.Machine.execFlitReceive link crcOk badWire s
  | .wireSpareRepair link wire => Sys2Proof.Machine.execWireSpareRepair link wire s
  | .wireRepairDone link => Sys2Proof.Machine.execWireRepairDone link s
  | .dieFailure lane die => Sys2Proof.Machine.execDieFailure lane die s
  | .laneFailure lane => Sys2Proof.Machine.execLaneFailure lane s
  | .dramChannelLoss quad channel => Sys2Proof.Machine.execDramChannelLoss quad channel s
  | .clusterFailure quad cluster => Sys2Proof.Machine.execClusterFailure quad cluster s
  | .mediaCoreFailure quad core => Sys2Proof.Machine.execMediaCoreFailure quad core s
  | .engineUnitFault quad kind unit => Sys2Proof.Machine.execEngineUnitFault quad kind unit s
  | .tenantCoreFault core cause => Sys2Proof.Machine.execTenantCoreFault core cause s
  | .mpLockstepMismatch => Sys2Proof.Machine.execMpLockstepMismatch s
  | .mpRestartDone => Sys2Proof.Machine.execMpRestartDone s
  | .quadrantChipletLoss quad => Sys2Proof.Machine.execQuadrantChipletLoss quad s
  | .hcFault => Sys2Proof.Machine.execHcFault s
  | .trngHealthFailure => Sys2Proof.Machine.execTrngHealthFailure s
  | .frameReceive port sub f => Sys2Proof.Machine.execFrameReceive port sub f s
  | .frameTransmit conn bytes => Sys2Proof.Machine.execFrameTransmit conn bytes s
  | .pfcPauseReceive port sub prios => Sys2Proof.Machine.execPfcPauseReceive port sub prios s
  | .pfcWatchdogFire port sub prio => Sys2Proof.Machine.execPfcWatchdogFire port sub prio s
  | .pfcWatchdogRearm port sub prio => Sys2Proof.Machine.execPfcWatchdogRearm port sub prio s
  | .arpNdRequest port sub vlan ipv6 addr => Sys2Proof.Machine.execArpNdRequest port sub vlan ipv6 addr s
  | .icmpEchoRequest port sub vlan ipv6 addr => Sys2Proof.Machine.execIcmpEchoRequest port sub vlan ipv6 addr s
  | .sublinkDegradedSet port sub => Sys2Proof.Machine.execSublinkDegradedSet port sub s
  | .sublinkDegradedClear port sub => Sys2Proof.Machine.execSublinkDegradedClear port sub s
  | .uncorrectableThreshold port sub => Sys2Proof.Machine.execUncorrectableThreshold port sub s
  | .laneLockTimeout port sub lane => Sys2Proof.Machine.execLaneLockTimeout port sub lane s
  | .portSelftestEnd port sub pass => Sys2Proof.Machine.execPortSelftestEnd port sub pass s
  | .sublinkRetrain port sub up => Sys2Proof.Machine.execSublinkRetrain port sub up s
  | .sublinkLinkUp port sub eq => Sys2Proof.Machine.execSublinkLinkUp port sub eq s
  | .sublinkLinkDown port sub => Sys2Proof.Machine.execSublinkLinkDown port sub s
  | .tcpSegmentReceive conn seg bytes => Sys2Proof.Machine.execTcpSegmentReceive conn seg bytes s
  | .tcpRetransmitTimeout conn => Sys2Proof.Machine.execTcpRetransmitTimeout conn s
  | .rocePacketReceive conn pkt => Sys2Proof.Machine.execRocePacketReceive conn pkt s
  | .roceAckTimeout conn => Sys2Proof.Machine.execRoceAckTimeout conn s
  | .alphaTimerExpiry conn => Sys2Proof.Machine.execAlphaTimerExpiry conn s
  | .incTimerExpiry conn => Sys2Proof.Machine.execIncTimerExpiry conn s
  | .receivePauseBreach inst ms => Sys2Proof.Machine.execReceivePauseBreach inst ms s
  | .readyToTransferSend ctx => Sys2Proof.Machine.execReadyToTransferSend ctx s
  | .rdmaReadIssue ctx => Sys2Proof.Machine.execRdmaReadIssue ctx s
  | .writeDataReceive ctx offset data wellFormed => Sys2Proof.Machine.execWriteDataReceive ctx offset data wellFormed s
  | .icreqReceive conn pfv hpda hdgst ddgst maxr2t => Sys2Proof.Machine.execIcreqReceive conn pfv hpda hdgst ddgst maxr2t s
  | .tcpSynReceive a => Sys2Proof.Machine.execTcpSynReceive a s
  | .roceConnectRequest a => Sys2Proof.Machine.execRoceConnectRequest a s
  | .synCookieAck a cookie => Sys2Proof.Machine.execSynCookieAck a cookie s
  | .cookieKeyRotate => Sys2Proof.Machine.execCookieKeyRotate s
  | .ruleRevoke path index => Sys2Proof.Machine.execRuleRevoke path index s
  | .tlsClientHello conn aes256 aes128 x25519 secp384 pskDhe ends => Sys2Proof.Machine.execTlsClientHello conn aes256 aes128 x25519 secp384 pskDhe ends s
  | .tlsHandshakeTimeout conn => Sys2Proof.Machine.execTlsHandshakeTimeout conn s
  | .tlsKeyUpdate conn => Sys2Proof.Machine.execTlsKeyUpdate conn s
  | .holdoffExpiry src => Sys2Proof.Machine.execHoldoffExpiry src s
  | .eqClear path port => Sys2Proof.Machine.execEqClear path port s
  | .connect conn subnqn qid entries katoMs hostnqn ctrl => Sys2Proof.Machine.execConnect conn subnqn qid entries katoMs hostnqn ctrl s
  | .propertyGet cap offset => Sys2Proof.Machine.execPropertyGet cap offset s
  | .propertySet cap offset value => Sys2Proof.Machine.execPropertySet cap offset value s
  | .authenticationSend cap kind hash group response challenge => Sys2Proof.Machine.execAuthenticationSend cap kind hash group response challenge s
  | .authenticationReceive cap => Sys2Proof.Machine.execAuthenticationReceive cap s
  | .disconnect cap => Sys2Proof.Machine.execDisconnect cap s
  | .getLogPage cap lid offset length rae => Sys2Proof.Machine.execGetLogPage cap lid offset length rae s
  | .identify cap cns nsid => Sys2Proof.Machine.execIdentify cap cns nsid s
  | .abort cap sqid cid => Sys2Proof.Machine.execAbort cap sqid cid s
  | .setFeatures cap fid cdw11 cdw12 sv => Sys2Proof.Machine.execSetFeatures cap fid cdw11 cdw12 sv s
  | .getFeatures cap fid cdw11 sel => Sys2Proof.Machine.execGetFeatures cap fid cdw11 sel s
  | .asynchronousEventRequest cap => Sys2Proof.Machine.execAsynchronousEventRequest cap s
  | .namespaceManagement cap create nsid nsze lbaf grain piType piFirst kv ruh => Sys2Proof.Machine.execNamespaceManagement cap create nsid nsze lbaf grain piType piFirst kv ruh s
  | .namespaceAttachment cap nsid attach ctrls => Sys2Proof.Machine.execNamespaceAttachment cap nsid attach ctrls s
  | .keepAlive cap => Sys2Proof.Machine.execKeepAlive cap s
  | .formatNvm cap nsid lbaf ses piType piFirst => Sys2Proof.Machine.execFormatNvm cap nsid lbaf ses piType piFirst s
  | .securitySend cap secp spsp data => Sys2Proof.Machine.execSecuritySend cap secp spsp data s
  | .securityReceive cap secp spsp alloc => Sys2Proof.Machine.execSecurityReceive cap secp spsp alloc s
  | .sanitize cap action noDealloc => Sys2Proof.Machine.execSanitize cap action noDealloc s
  | .cryptoEraseStepDone inst => Sys2Proof.Machine.execCryptoEraseStepDone inst s
  | .firmwareImageDownload cap offset declared data => Sys2Proof.Machine.execFirmwareImageDownload cap offset declared data s
  | .firmwareCommit cap action slot => Sys2Proof.Machine.execFirmwareCommit cap action slot s
  | .unsupportedOpcode cap opcode => Sys2Proof.Machine.execUnsupportedOpcode cap opcode s
  | .read cap r seqReq oneTime prp sglBytes => Sys2Proof.Machine.execRead cap r seqReq oneTime prp sglBytes s
  | .write cap r fua seqReq fdp prp data => Sys2Proof.Machine.execWrite cap r fua seqReq fdp prp data s
  | .flush cap nsid => Sys2Proof.Machine.execFlush cap nsid s
  | .writeUncorrectable cap r => Sys2Proof.Machine.execWriteUncorrectable cap r s
  | .compare cap r seqReq prp data => Sys2Proof.Machine.execCompare cap r seqReq prp data s
  | .writeZeroes cap r deallocate => Sys2Proof.Machine.execWriteZeroes cap r deallocate s
  | .datasetManagement cap nsid deallocate ranges => Sys2Proof.Machine.execDatasetManagement cap nsid deallocate ranges s
  | .verify cap r seqReq => Sys2Proof.Machine.execVerify cap r seqReq s
  | .copy cap nsid format src dst => Sys2Proof.Machine.execCopy cap nsid format src dst s
  | .ioManagementReceive cap nsid => Sys2Proof.Machine.execIoManagementReceive cap nsid s
  | .ioManagementSend cap nsid handles => Sys2Proof.Machine.execIoManagementSend cap nsid handles s
  | .store cap nsid key noOverwrite mustExist declared value => Sys2Proof.Machine.execStore cap nsid key noOverwrite mustExist declared value s
  | .retrieve cap nsid key bufLen => Sys2Proof.Machine.execRetrieve cap nsid key bufLen s
  | .delete cap nsid key => Sys2Proof.Machine.execDelete cap nsid key s
  | .exist cap nsid key => Sys2Proof.Machine.execExist cap nsid key s
  | .list cap nsid key maxKeys => Sys2Proof.Machine.execList cap nsid key maxKeys s
  | .loadProgram cap index declared image => Sys2Proof.Machine.execLoadProgram cap index declared image s
  | .programActivation cap index activate => Sys2Proof.Machine.execProgramActivation cap index activate s
  | .executeProgram cap index d bufferBytes => Sys2Proof.Machine.execExecuteProgram cap index d bufferBytes s
  | .memoryRangeSetManagement cap rsid length => Sys2Proof.Machine.execMemoryRangeSetManagement cap rsid length s
  | .memoryRead cap rsid offset length => Sys2Proof.Machine.execMemoryRead cap rsid offset length s
  | .memoryWrite cap rsid offset declared data => Sys2Proof.Machine.execMemoryWrite cap rsid offset declared data s
  | .memoryCopy cap rsid offset r toNamespace => Sys2Proof.Machine.execMemoryCopy cap rsid offset r toNamespace s
  | .memoryFill cap rsid offset length value => Sys2Proof.Machine.execMemoryFill cap rsid offset length value s
  | .commandAdmit ctrl qid bad => Sys2Proof.Machine.execCommandAdmit ctrl qid bad s
  | .arbRound => Sys2Proof.Machine.execArbRound s
  | .keepAliveExpiry ctrl => Sys2Proof.Machine.execKeepAliveExpiry ctrl s
  | .connectionLoss conn => Sys2Proof.Machine.execConnectionLoss conn s
  | .transferTimeout ctx => Sys2Proof.Machine.execTransferTimeout ctx s
  | .resetCutTimeout ctx => Sys2Proof.Machine.execResetCutTimeout ctx s
  | .controllerResetDone ctrl => Sys2Proof.Machine.execControllerResetDone ctrl s
  | .activationDrainLimit => Sys2Proof.Machine.execActivationDrainLimit s
  | .imageSwapDone ok => Sys2Proof.Machine.execImageSwapDone ok s
  | .instanceReset path inst => Sys2Proof.Machine.execInstanceReset path inst s
  | .instanceResetDone inst => Sys2Proof.Machine.execInstanceResetDone inst s
  | .instancePurge path inst => Sys2Proof.Machine.execInstancePurge path inst s
  | .t2mRing path inst => Sys2Proof.Machine.execT2mRing path inst s
  | .mbiAck path inst => Sys2Proof.Machine.execMbiAck path inst s
  | .mboSend path => Sys2Proof.Machine.execMboSend path s
  | .m2tAck path inst => Sys2Proof.Machine.execM2tAck path inst s
  | .m2tClearLost path inst => Sys2Proof.Machine.execM2tClearLost path inst s
  | .windowBreachEnd inst => Sys2Proof.Machine.execWindowBreachEnd inst s
  | .grainMerge ctx grain ok => Sys2Proof.Machine.execGrainMerge ctx grain ok s
  | .mapCommit ctx => Sys2Proof.Machine.execMapCommit ctx s
  | .compressionDone version verifyMismatch xtsMismatch => Sys2Proof.Machine.execCompressionDone version verifyMismatch xtsMismatch s
  | .bandOpen stream slc => Sys2Proof.Machine.execBandOpen stream slc s
  | .rowCloseWaitExpiry band => Sys2Proof.Machine.execRowCloseWaitExpiry band s
  | .rowCloseIdleExpiry band => Sys2Proof.Machine.execRowCloseIdleExpiry band s
  | .rowProgramDone band failed => Sys2Proof.Machine.execRowProgramDone band failed s
  | .pageReadDone readId r => Sys2Proof.Machine.execPageReadDone readId r s
  | .escalationStepDone readId ok => Sys2Proof.Machine.execEscalationStepDone readId ok s
  | .inlineInflateDone readId ok => Sys2Proof.Machine.execInlineInflateDone readId ok s
  | .memberRebuildCommit band member => Sys2Proof.Machine.execMemberRebuildCommit band member s
  | .foldStart band => Sys2Proof.Machine.execFoldStart band s
  | .checkGo path => Sys2Proof.Machine.execCheckGo path s
  | .parityCheckDone mismatchRow => Sys2Proof.Machine.execParityCheckDone mismatchRow s
  | .mapFillDone quad nsx seg readable => Sys2Proof.Machine.execMapFillDone quad nsx seg readable s
  | .hintGo path => Sys2Proof.Machine.execHintGo path s
  | .dirtyLineAgeExpiry quad nsx seg => Sys2Proof.Machine.execDirtyLineAgeExpiry quad nsx seg s
  | .checkpointIntervalExpiry => Sys2Proof.Machine.execCheckpointIntervalExpiry s
  | .checkpointDone ok => Sys2Proof.Machine.execCheckpointDone ok s
  | .mapCacheDrainDone quad => Sys2Proof.Machine.execMapCacheDrainDone quad s
  | .mapCacheResize quad => Sys2Proof.Machine.execMapCacheResize quad s
  | .reclaimLevelChange => Sys2Proof.Machine.execReclaimLevelChange s
  | .gcVictimSelect => Sys2Proof.Machine.execGcVictimSelect s
  | .blockEraseDone band member ok => Sys2Proof.Machine.execBlockEraseDone band member ok s
  | .patrolDue lane die plane block => Sys2Proof.Machine.execPatrolDue lane die plane block s
  | .catchupPatrolEnd => Sys2Proof.Machine.execCatchupPatrolEnd s
  | .retentionClockSave => Sys2Proof.Machine.execRetentionClockSave s
  | .windowUpdate mv => Sys2Proof.Machine.execWindowUpdate mv s
  | .holdupMeasurementDue => Sys2Proof.Machine.execHoldupMeasurementDue s
  | .measGo path => Sys2Proof.Machine.execMeasGo path s
  | .measurementRunDone us => Sys2Proof.Machine.execMeasurementRunDone us s
  | .measurementRunTimeout => Sys2Proof.Machine.execMeasurementRunTimeout s
  | .chargerTimeout mv => Sys2Proof.Machine.execChargerTimeout mv s
  | .holdupFlushStepDone us mj => Sys2Proof.Machine.execHoldupFlushStepDone us mj s
  | .flushPass2Limit => Sys2Proof.Machine.execFlushPass2Limit s
  | .flowOpen ctx => Sys2Proof.Machine.execFlowOpen ctx s
  | .walkerGrain flow quad => Sys2Proof.Machine.execWalkerGrain flow quad s
  | .baseBroadcast flow => Sys2Proof.Machine.execBaseBroadcast flow s
  | .readTokenReceive quad flow seq => Sys2Proof.Machine.execReadTokenReceive quad flow seq s
  | .tokenArrive quad t => Sys2Proof.Machine.execTokenArrive quad t s
  | .heldTokenGrant quad => Sys2Proof.Machine.execHeldTokenGrant quad s
  | .partialMatchTimeout quad flow seq node => Sys2Proof.Machine.execPartialMatchTimeout quad flow seq node s
  | .taskDispatch quad => Sys2Proof.Machine.execTaskDispatch quad s
  | .taskWatchdogExpiry core => Sys2Proof.Machine.execTaskWatchdogExpiry core s
  | .resultArrive t => Sys2Proof.Machine.execResultArrive t s
  | .retireMessage quad flow seq => Sys2Proof.Machine.execRetireMessage quad flow seq s
  | .outputSegmentTimer flow => Sys2Proof.Machine.execOutputSegmentTimer flow s
  | .errorTokenArrive t => Sys2Proof.Machine.execErrorTokenArrive t s
  | .bufferZeroed handle => Sys2Proof.Machine.execBufferZeroed handle s
  | .referenceIncrement handle => Sys2Proof.Machine.execReferenceIncrement handle s
  | .referenceDecrement handle => Sys2Proof.Machine.execReferenceDecrement handle s
  | .writePoolFullTimeout quad => Sys2Proof.Machine.execWritePoolFullTimeout quad s
  | .kAdd x => Sys2Proof.Machine.execKAdd x s
  | .kAdc x => Sys2Proof.Machine.execKAdc x s
  | .kSub x => Sys2Proof.Machine.execKSub x s
  | .kSbc x => Sys2Proof.Machine.execKSbc x s
  | .kAnd x => Sys2Proof.Machine.execKAnd x s
  | .kOr x => Sys2Proof.Machine.execKOr x s
  | .kXor x => Sys2Proof.Machine.execKXor x s
  | .kAndn x => Sys2Proof.Machine.execKAndn x s
  | .kShl x => Sys2Proof.Machine.execKShl x s
  | .kShr x => Sys2Proof.Machine.execKShr x s
  | .kSar x => Sys2Proof.Machine.execKSar x s
  | .kRor x => Sys2Proof.Machine.execKRor x s
  | .kRol x => Sys2Proof.Machine.execKRol x s
  | .kMin x => Sys2Proof.Machine.execKMin x s
  | .kMax x => Sys2Proof.Machine.execKMax x s
  | .kMinu x => Sys2Proof.Machine.execKMinu x s
  | .kMaxu x => Sys2Proof.Machine.execKMaxu x s
  | .kMul x => Sys2Proof.Machine.execKMul x s
  | .kMulhs x => Sys2Proof.Machine.execKMulhs x s
  | .kMulhu x => Sys2Proof.Machine.execKMulhu x s
  | .kDivs x => Sys2Proof.Machine.execKDivs x s
  | .kDivu x => Sys2Proof.Machine.execKDivu x s
  | .kRems x => Sys2Proof.Machine.execKRems x s
  | .kRemu x => Sys2Proof.Machine.execKRemu x s
  | .kNeg x => Sys2Proof.Machine.execKNeg x s
  | .kNot x => Sys2Proof.Machine.execKNot x s
  | .kClz x => Sys2Proof.Machine.execKClz x s
  | .kPopc x => Sys2Proof.Machine.execKPopc x s
  | .kBswap x => Sys2Proof.Machine.execKBswap x s
  | .kCmp x => Sys2Proof.Machine.execKCmp x s
  | .kAddi x => Sys2Proof.Machine.execKAddi x s
  | .kAndi x => Sys2Proof.Machine.execKAndi x s
  | .kOri x => Sys2Proof.Machine.execKOri x s
  | .kXori x => Sys2Proof.Machine.execKXori x s
  | .kShli x => Sys2Proof.Machine.execKShli x s
  | .kShri x => Sys2Proof.Machine.execKShri x s
  | .kSari x => Sys2Proof.Machine.execKSari x s
  | .kRori x => Sys2Proof.Machine.execKRori x s
  | .kCmpi x => Sys2Proof.Machine.execKCmpi x s
  | .kMovi x => Sys2Proof.Machine.execKMovi x s
  | .kMovh x => Sys2Proof.Machine.execKMovh x s
  | .kLdw x => Sys2Proof.Machine.execKLdw x s
  | .kLdh x => Sys2Proof.Machine.execKLdh x s
  | .kLdhu x => Sys2Proof.Machine.execKLdhu x s
  | .kLdb x => Sys2Proof.Machine.execKLdb x s
  | .kLdbu x => Sys2Proof.Machine.execKLdbu x s
  | .kStw x => Sys2Proof.Machine.execKStw x s
  | .kSth x => Sys2Proof.Machine.execKSth x s
  | .kStb x => Sys2Proof.Machine.execKStb x s
  | .kVld x => Sys2Proof.Machine.execKVld x s
  | .kVst x => Sys2Proof.Machine.execKVst x s
  | .kBr x => Sys2Proof.Machine.execKBr x s
  | .kCall x => Sys2Proof.Machine.execKCall x s
  | .kJr x a => Sys2Proof.Machine.execKJr x a s
  | .kCallr x a => Sys2Proof.Machine.execKCallr x a s
  | .kRet x => Sys2Proof.Machine.execKRet x s
  | .kLoop x a off => Sys2Proof.Machine.execKLoop x a off s
  | .kLoopi x count off => Sys2Proof.Machine.execKLoopi x count off s
  | .kRep x count => Sys2Proof.Machine.execKRep x count s
  | .kEnd x => Sys2Proof.Machine.execKEnd x s
  | .kNop x => Sys2Proof.Machine.execKNop x s
  | .kMfsr x d sr => Sys2Proof.Machine.execKMfsr x d sr s
  | .kMtsr x a sr => Sys2Proof.Machine.execKMtsr x a sr s
  | .kPcmp x d a b cond => Sys2Proof.Machine.execKPcmp x d a b cond s
  | .kPflag x d cond => Sys2Proof.Machine.execKPflag x d cond s
  | .kPlogAnd x => Sys2Proof.Machine.execKPlogAnd x s
  | .kPlogOr x => Sys2Proof.Machine.execKPlogOr x s
  | .kPlogXor x => Sys2Proof.Machine.execKPlogXor x s
  | .kPlogAndn x => Sys2Proof.Machine.execKPlogAndn x s
  | .kPlogNot x => Sys2Proof.Machine.execKPlogNot x s
  | .kPset x d imm => Sys2Proof.Machine.execKPset x d imm s
  | .kPmov x d a => Sys2Proof.Machine.execKPmov x d a s
  | .kPget x d a => Sys2Proof.Machine.execKPget x d a s
  | .kPcnt x d a => Sys2Proof.Machine.execKPcnt x d a s
  | .kVadd x => Sys2Proof.Machine.execKVadd x s
  | .kVsub x => Sys2Proof.Machine.execKVsub x s
  | .kVmul x => Sys2Proof.Machine.execKVmul x s
  | .kVand x => Sys2Proof.Machine.execKVand x s
  | .kVor x => Sys2Proof.Machine.execKVor x s
  | .kVxor x => Sys2Proof.Machine.execKVxor x s
  | .kVshl x => Sys2Proof.Machine.execKVshl x s
  | .kVshr x => Sys2Proof.Machine.execKVshr x s
  | .kVsar x => Sys2Proof.Machine.execKVsar x s
  | .kVmin x => Sys2Proof.Machine.execKVmin x s
  | .kVmax x => Sys2Proof.Machine.execKVmax x s
  | .kVminu x => Sys2Proof.Machine.execKVminu x s
  | .kVmaxu x => Sys2Proof.Machine.execKVmaxu x s
  | .kVmov x => Sys2Proof.Machine.execKVmov x s
  | .kVcmp x d a b cond => Sys2Proof.Machine.execKVcmp x d a b cond s
  | .kVbcast x d a => Sys2Proof.Machine.execKVbcast x d a s
  | .kVext x d a lane => Sys2Proof.Machine.execKVext x d a lane s
  | .kVins x d a lane => Sys2Proof.Machine.execKVins x d a lane s
  | .kVsum x d a => Sys2Proof.Machine.execKVsum x d a s
  | .kSendv x arc a => Sys2Proof.Machine.execKSendv x arc a s
  | .kSendb x arc a b => Sys2Proof.Machine.execKSendb x arc a b s
  | .kSendn x arc => Sys2Proof.Machine.execKSendn x arc s
  | .kSendh x a => Sys2Proof.Machine.execKSendh x a s
  | .kBalloc x d a => Sys2Proof.Machine.execKBalloc x d a s
  | .kBrel x a => Sys2Proof.Machine.execKBrel x a s
  | .kL2pf x a b => Sys2Proof.Machine.execKL2pf x a b s
  | .kL2rel x a b => Sys2Proof.Machine.execKL2rel x a b s
  | .kL2wb x a b => Sys2Proof.Machine.execKL2wb x a b s
  | .l2DrainDone quad cluster => Sys2Proof.Machine.execL2DrainDone quad cluster s
  | .coreTestGo path quad cluster core => Sys2Proof.Machine.execCoreTestGo path quad cluster core s
  | .coreTestDone core pass => Sys2Proof.Machine.execCoreTestDone core pass s
  | .matchTaskDone t => Sys2Proof.Machine.execMatchTaskDone t s
  | .probeGo path quad => Sys2Proof.Machine.execProbeGo path quad s
  | .probeStep path quad => Sys2Proof.Machine.execProbeStep path quad s
  | .probeDone quad => Sys2Proof.Machine.execProbeDone quad s
  | .indexSearchSlot ctx => Sys2Proof.Machine.execIndexSearchSlot ctx s
  | .indexUpdateSlot ctx => Sys2Proof.Machine.execIndexUpdateSlot ctx s
  | .sectionReloadDone quad inst prog sect ok => Sys2Proof.Machine.execSectionReloadDone quad inst prog sect ok s
  | .deflateTaskDone t verifyMismatch => Sys2Proof.Machine.execDeflateTaskDone t verifyMismatch s
  | .inflateTaskDone t => Sys2Proof.Machine.execInflateTaskDone t s
  | .taskItemYield quad dir unit => Sys2Proof.Machine.execTaskItemYield quad dir unit s
  | .digestTaskDone t eqFault neqFault => Sys2Proof.Machine.execDigestTaskDone t eqFault neqFault s
  | .digestUnitSwitch quad unit => Sys2Proof.Machine.execDigestUnitSwitch quad unit s
  | .digOpen path quad cmd => Sys2Proof.Machine.execDigOpen path quad cmd s
  | .digUpdate path quad cmd => Sys2Proof.Machine.execDigUpdate path quad cmd s
  | .digFinal path quad cmd => Sys2Proof.Machine.execDigFinal path quad cmd s
  | .digOneshot path quad cmd => Sys2Proof.Machine.execDigOneshot path quad cmd s
  | .digHkdf path quad cmd => Sys2Proof.Machine.execDigHkdf path quad cmd s
  | .digClose path quad cmd => Sys2Proof.Machine.execDigClose path quad cmd s
  | .digestContextGrant quad => Sys2Proof.Machine.execDigestContextGrant quad s
  | .engineBusyTimeout quad => Sys2Proof.Machine.execEngineBusyTimeout quad s
  | .digestRequestDone quad eqFault neqFault => Sys2Proof.Machine.execDigestRequestDone quad eqFault neqFault s
  | .sessionIdleTimeout quad => Sys2Proof.Machine.execSessionIdleTimeout quad s
  | .keyLoad path => Sys2Proof.Machine.execKeyLoad path s
  | .keyLoadWrapped path wrapSlot => Sys2Proof.Machine.execKeyLoadWrapped path wrapSlot s
  | .keyGenerate path trngOk => Sys2Proof.Machine.execKeyGenerate path trngOk s
  | .keyDestroy path => Sys2Proof.Machine.execKeyDestroy path s
  | .sensorSample readings => Sys2Proof.Machine.execSensorSample readings s
  | .sensorStaleTimeout sensor => Sys2Proof.Machine.execSensorStaleTimeout sensor s
  | .cageOvercurrent port => Sys2Proof.Machine.execCageOvercurrent port s
  | .throttleStep => Sys2Proof.Machine.execThrottleStep s
  | .throttleRecover => Sys2Proof.Machine.execThrottleRecover s
  | .logMirrorCopy ok => Sys2Proof.Machine.execLogMirrorCopy ok s
  | .ptpMessageReceive entry domain offsetNs => Sys2Proof.Machine.execPtpMessageReceive entry domain offsetNs s
  | .ptpLock => Sys2Proof.Machine.execPtpLock s
  | .timeSetGo path => Sys2Proof.Machine.execTimeSetGo path s
  | .mctpSetEndpointId eid => Sys2Proof.Machine.execMctpSetEndpointId eid s
  | .mctpGetEndpointId => Sys2Proof.Machine.execMctpGetEndpointId s
  | .mctpGetVersionSupport msgType => Sys2Proof.Machine.execMctpGetVersionSupport msgType s
  | .mctpGetMessageTypeSupport => Sys2Proof.Machine.execMctpGetMessageTypeSupport s
  | .mctpGetVendorMessageSupport => Sys2Proof.Machine.execMctpGetVendorMessageSupport s
  | .miReadDataStructure dtyp => Sys2Proof.Machine.execMiReadDataStructure dtyp s
  | .miSubsystemHealthPoll clear => Sys2Proof.Machine.execMiSubsystemHealthPoll clear s
  | .miControllerHealthPoll first => Sys2Proof.Machine.execMiControllerHealthPoll first s
  | .miConfigurationGet id => Sys2Proof.Machine.execMiConfigurationGet id s
  | .miConfigurationSet id value => Sys2Proof.Machine.execMiConfigurationSet id value s
  | .mctpControlRead tag addr nwords => Sys2Proof.Machine.execMctpControlRead tag addr nwords s
  | .mctpControlWrite tag addr nwords words commitAfter => Sys2Proof.Machine.execMctpControlWrite tag addr nwords words commitAfter s
  | .mctpAttestNonce tag nonce => Sys2Proof.Machine.execMctpAttestNonce tag nonce s
  | .mctpAttestReport tag offset => Sys2Proof.Machine.execMctpAttestReport tag offset s
  | .mctpLogRead tag first count => Sys2Proof.Machine.execMctpLogRead tag first count s
  | .mctpTimeSet tag ns => Sys2Proof.Machine.execMctpTimeSet tag ns s
  | .mctpSensorRead tag first count => Sys2Proof.Machine.execMctpSensorRead tag first count s
  | .testGo path domainsRise => Sys2Proof.Machine.execTestGo path domainsRise s
  | .testStop path => Sys2Proof.Machine.execTestStop path s
  | .testInject path => Sys2Proof.Machine.execTestInject path s
  | .testEnd errors criterion bits wires firstErr => Sys2Proof.Machine.execTestEnd errors criterion bits wires firstErr s
  | .ppsLoss => Sys2Proof.Machine.execPpsLoss s
  | .laneRetrain lane ok => Sys2Proof.Machine.execLaneRetrain lane ok s
  | .engineUnitTestDone quad kind unit pass => Sys2Proof.Machine.execEngineUnitTestDone quad kind unit pass s
  | .memoryRebuildDone quad => Sys2Proof.Machine.execMemoryRebuildDone quad s
  | .spillReturn mib => Sys2Proof.Machine.execSpillReturn mib s
  | .kUnassigned core word => Sys2Proof.Machine.execKUnassigned core word s

end Sys2Proof.Machine
end

