-- ==== Sys2Proof/Machine/Step.lean ====
section
/-! DEFINITION. One step: the command at the front of the queue takes effect; with no command waiting the
module's clock advances by one microsecond. Beside it, how the host places a command. -/

namespace Sys2Proof.Machine

/-- With an empty queue time passes: 1,000 ns. -/
def idle (s : State) : State := { s with now := s.now + 1000 }

/-- Take the front of the queue and run it with the rest. -/
def step (s : State) : Host.Outcome State Fault Refusal :=
  match s.pending with
  | [] => .next (idle s)
  | c :: rest => exec c { s with pending := rest }

/-- The table gives its rows no bits, so no word spells a command and the state is as it was. -/
def State.withFetchWord (s : State) (nbits w : Nat) : State :=
  match Sys2Proof.decodeTableWord nbits w with
  | none => s
  | some c => { s with pending := c :: s.pending }

end Sys2Proof.Machine
end

