-- ==== Sys2Proof/WellFormed.lean ====
section
/-! DEFINITION. Well-formed commands: every operand fits the field that the rules give it. `exec` gives a meaning to
other commands too; an operand outside its field is one that no sender can send. -/

namespace Sys2Proof

/-- A number of a field of `w` bits. -/
def fits (n w : Nat) : Bool := decide (n < 2 ^ w)

/-- Registers are words at addresses that are multiples of four (R31). -/
def wordAligned (a : BitVec 26) : Bool := decide (a.toNat % 4 = 0)

/-- Control Write carries as many words as it names (R120). -/
def sameLength (ws : List Word) (n : BitVec 11) : Bool := decide (ws.length = n.toNat)

/-- An address as ADDR of R81 holds it. -/
def address (a : List Byte) : Bool := decide (a.length = 16)

/-- Get Log Page and Firmware Image Download name whole dwords, at least one (R121's command sets). -/
def logLength (n : Nat) : Bool := decide (n % 4 = 0 ∧ 4 ≤ n ∧ n ≤ 2 ^ 34)

/-- Submission queue identifiers are 16 bits. -/
def Cap.wf (c : Cap) : Bool := fits c.qid 16

def PiArgs.wf (p : PiArgs) : Bool := fits p.ilbrt 32 && fits p.lbat 16 && fits p.lbatm 16

/-- An NSID, a first LBA and a count given 0's based in 16 bits (R121). -/
def NvmRange.wf (r : NvmRange) : Bool :=
  fits r.nsid 32 && fits r.slba 64 && decide (1 ≤ r.nlb ∧ r.nlb ≤ 65536) && r.pi.wf

/-- A range of Dataset Management or Copy: first LBA and sectors. -/
def spanWf (r : Nat × Nat) : Bool := fits r.1 64 && fits r.2 32

/-- The length of a key is a byte of the command (R121 gives which lengths a command takes). -/
def keyWf (k : List Byte) : Bool := fits k.length 8

/-- R81, R79: the destination address; a frame has a header and an FCS. -/
def Frame.wf (f : Frame) : Bool := address f.dst && decide (18 ≤ f.len)

def Attempt.wf (a : Attempt) : Bool := address a.src

/-- R282. -/
def ExecDesc.wf (d : ExecDesc) : Bool :=
  fits d.inNsid 32 && fits d.inSlba 64 && fits d.inNlb 64 && fits d.startSeq 64 && fits d.outNsid 32 && fits d.waitUs 32
    && fits d.outStart 64 && fits d.outLen 64 && fits d.errLen 32 && decide (d.params.length = 64)

/-- R289. -/
def Token.wf (t : Token) : Bool :=
  fits t.flow 14 && fits t.seq 40 && fits t.port 10 && fits t.kind 8 && fits t.attempt 3 && fits t.inst 8 && fits t.node 8
    && fits t.gen 16 && fits t.err 16

/-- R289, R293. -/
def TaskRef.wf (t : TaskRef) : Bool := fits t.flow 14 && fits t.seq 40 && fits t.node 8

/-- R337: OFF12 of LOOP and LOOPI is at least 1. -/
def offOk (off : BitVec 12) : Bool := decide (off ≠ 0)

/-- R331: an immediate COUNT is 1 to 65,535. -/
def RepCount.wf : RepCount → Bool
  | .imm n => decide (n ≠ 0)
  | .reg _ => true

/-- R338: a condition code up to the last one of its table. -/
def condLe (c : BitVec 7) (n : Nat) : Bool := decide (c.toNat ≤ n)

/-- Each named once. -/
def distinct : List Nat → Bool
  | [] => true
  | x :: r => decide (x ∉ r) && distinct r

/-- Whether every operand of a command fits the field the rules give it. -/
def Instr.wf (i : Instr) : Bool :=
  match i with
  | .registerWrite _ addr _ => wordAligned addr
  | .stagedWrite _ addr _ => wordAligned addr
  | .controlRead cap _ _ => cap.wf
  | .controlWrite cap _ nwords words _ => cap.wf && sameLength words nwords
  | .commit _ _ => true
  | .commitDone _ _ => true
  | .pageCtrlAbort _ _ => true
  | .pageCtrlFactory _ _ => true
  | .expertKeyWrite _ _ _ => true
  | .expertRegionExpiry _ _ => true
  | .keyLockoutEnd _ => true
  | .stagingOwnerTimeout _ => true
  | .evSetWrite _ _ _ => true
  | .evClrWrite _ _ _ => true
  | .timeLoRead _ => true
  | .registerScrub corrected uncorrectable => corrected.all wordAligned && uncorrectable.all wordAligned
  | .registerWordRestored addr _ => wordAligned addr
  | .settingSaveDone _ => true
  | .storeCompactionDone _ => true
  | .storeCopyReformat _ => true
  | .mgmtDomainRise _ _ _ _ _ => true
  | .startRequest _ => true
  | .shutdownRequest _ => true
  | .diagnosticRequest _ => true
  | .leaveDiagnosticRequest _ => true
  | .preserveEnterRequest _ => true
  | .preserveReleaseRequest _ => true
  | .autoStart => true
  | .autoReturnStart => true
  | .stageMethodEnd r => distinct (r.refusedPages.map Fin.val)
  | .stageMethodTimeout => true
  | .skipLatchClear _ _ => true
  | .orderlyShutdownStepEnd => true
  | .drainLimitExpiry => true
  | .shutdownStepOverrun => true
  | .vmainInRange _ => true
  | .vauxInRange _ => true
  | .vauxLost _ => true
  | .inputsRemoved => true
  | .powerFailWarning => true
  | .pwrdisAssert => true
  | .pwrdisRelease => true
  | .resetAssert => true
  | .resetLow10ms => true
  | .resetRelease => true
  | .ppsEdge _ => true
  | .transceiverInsert _ _ => true
  | .transceiverRemove _ => true
  | .pllLockLoss _ => true
  | .pllRelockDone _ _ => true
  | .jtagInstruction _ => true
  | .debugChallenge _ _ => true
  | .flitReceive _ _ _ => true
  | .wireSpareRepair _ _ => true
  | .wireRepairDone _ => true
  | .dieFailure _ _ => true
  | .laneFailure _ => true
  | .dramChannelLoss _ _ => true
  | .clusterFailure _ _ => true
  | .mediaCoreFailure _ _ => true
  | .engineUnitFault _ _ _ => true
  | .tenantCoreFault _ _ => true
  | .mpLockstepMismatch => true
  | .mpRestartDone => true
  | .quadrantChipletLoss _ => true
  | .hcFault => true
  | .trngHealthFailure => true
  | .frameReceive _ _ f => f.wf
  | .frameTransmit _ bytes => decide (0 < bytes)
  | .pfcPauseReceive _ _ _ => true
  | .pfcWatchdogFire _ _ _ => true
  | .pfcWatchdogRearm _ _ _ => true
  | .arpNdRequest _ _ _ _ addr => address addr
  | .icmpEchoRequest _ _ _ _ addr => address addr
  | .sublinkDegradedSet _ _ => true
  | .sublinkDegradedClear _ _ => true
  | .uncorrectableThreshold _ _ => true
  | .laneLockTimeout _ _ _ => true
  | .portSelftestEnd _ _ _ => true
  | .sublinkRetrain _ _ _ => true
  | .sublinkLinkUp _ _ _ => true
  | .sublinkLinkDown _ _ => true
  | .tcpSegmentReceive _ _ _ => true
  | .tcpRetransmitTimeout _ => true
  | .rocePacketReceive _ _ => true
  | .roceAckTimeout _ => true
  | .alphaTimerExpiry _ => true
  | .incTimerExpiry _ => true
  | .receivePauseBreach _ _ => true
  | .readyToTransferSend _ => true
  | .rdmaReadIssue _ => true
  | .writeDataReceive _ offset _ _ => fits offset 32
  | .icreqReceive _ pfv hpda _ _ maxr2t => fits pfv 16 && fits hpda 8 && fits maxr2t 32
  | .tcpSynReceive a => a.wf
  | .roceConnectRequest a => a.wf
  | .synCookieAck a _ => a.wf
  | .cookieKeyRotate => true
  | .ruleRevoke _ _ => true
  | .tlsClientHello _ _ _ _ _ _ _ => true
  | .tlsHandshakeTimeout _ => true
  | .tlsKeyUpdate _ => true
  | .holdoffExpiry src => address src
  | .eqClear _ _ => true
  | .connect _ _ qid entries katoMs _ ctrl => fits qid 16 && decide (1 ≤ entries && entries ≤ 65536) && fits katoMs 32 && fits ctrl 16
  | .propertyGet cap offset => cap.wf && fits offset 32
  | .propertySet cap offset _ => cap.wf && fits offset 32
  | .authenticationSend cap kind hash group _ _ => cap.wf && decide (kind ≤ 2) && decide (1 ≤ hash && hash ≤ 3) && decide (group ≤ 3)
  | .authenticationReceive cap => cap.wf
  | .disconnect cap => cap.wf
  | .getLogPage cap _ offset length _ => cap.wf && fits offset 64 && logLength length
  | .identify cap _ nsid => cap.wf && fits nsid 32
  | .abort cap sqid _ => cap.wf && fits sqid 16
  | .setFeatures cap _ _ _ _ => cap.wf
  | .getFeatures cap _ _ _ => cap.wf
  | .asynchronousEventRequest cap => cap.wf
  | .namespaceManagement cap _ nsid nsze _ _ piType _ _ ruh => cap.wf && fits nsid 32 && fits nsze 64 && fits piType 3 && ruh.all (fits · 16)
  | .namespaceAttachment cap nsid _ ctrls => cap.wf && fits nsid 32 && ctrls.all (fits · 16)
  | .keepAlive cap => cap.wf
  | .formatNvm cap nsid _ _ piType _ => cap.wf && fits nsid 32 && fits piType 3
  | .securitySend cap _ _ _ => cap.wf
  | .securityReceive cap _ _ alloc => cap.wf && fits alloc 32
  | .sanitize cap _ _ => cap.wf
  | .cryptoEraseStepDone _ => true
  | .firmwareImageDownload cap offset declared _ => cap.wf && logLength declared && fits offset 34
  | .firmwareCommit cap _ _ => cap.wf
  | .unsupportedOpcode cap _ => cap.wf
  | .read cap r _ _ _ sglBytes => cap.wf && r.wf && fits sglBytes 32
  | .write cap r _ _ fdp _ _ => cap.wf && r.wf && fdp.all (fits · 16)
  | .flush cap nsid => cap.wf && fits nsid 32
  | .writeUncorrectable cap r => cap.wf && r.wf
  | .compare cap r _ _ _ => cap.wf && r.wf
  | .writeZeroes cap r _ => cap.wf && r.wf
  | .datasetManagement cap nsid _ ranges => cap.wf && fits nsid 32 && ranges.all spanWf && decide (1 ≤ ranges.length && ranges.length ≤ 256)
  | .verify cap r _ => cap.wf && r.wf
  | .copy cap nsid format src dst => cap.wf && fits nsid 32 && fits format 4 && src.all spanWf && decide (1 ≤ src.length && src.length ≤ 256) && fits dst 64
  | .ioManagementReceive cap nsid => cap.wf && fits nsid 32
  | .ioManagementSend cap nsid handles => cap.wf && fits nsid 32 && handles.all (fits · 16)
  | .store cap nsid key _ _ declared _ => cap.wf && fits nsid 32 && keyWf key && fits declared 32
  | .retrieve cap nsid key bufLen => cap.wf && fits nsid 32 && keyWf key && fits bufLen 32
  | .delete cap nsid key => cap.wf && fits nsid 32 && keyWf key
  | .exist cap nsid key => cap.wf && fits nsid 32 && keyWf key
  | .list cap nsid key maxKeys => cap.wf && fits nsid 32 && keyWf key && fits maxKeys 32
  | .loadProgram cap _ declared _ => cap.wf && fits declared 32
  | .programActivation cap _ _ => cap.wf
  | .executeProgram cap _ d bufferBytes => cap.wf && d.wf && fits bufferBytes 32
  | .memoryRangeSetManagement cap _ length => cap.wf && length.all (fits · 64)
  | .memoryRead cap _ offset length => cap.wf && fits offset 64 && fits length 32
  | .memoryWrite cap _ offset declared _ => cap.wf && fits offset 64 && fits declared 32
  | .memoryCopy cap _ offset r _ => cap.wf && fits offset 64 && r.wf
  | .memoryFill cap _ offset length _ => cap.wf && fits offset 64 && fits length 64
  | .commandAdmit _ qid _ => fits qid 16
  | .arbRound => true
  | .keepAliveExpiry _ => true
  | .connectionLoss _ => true
  | .transferTimeout _ => true
  | .resetCutTimeout _ => true
  | .controllerResetDone _ => true
  | .activationDrainLimit => true
  | .imageSwapDone _ => true
  | .instanceReset _ _ => true
  | .instanceResetDone _ => true
  | .instancePurge _ _ => true
  | .t2mRing _ _ => true
  | .mbiAck _ _ => true
  | .mboSend _ => true
  | .m2tAck _ _ => true
  | .m2tClearLost _ _ => true
  | .windowBreachEnd _ => true
  | .grainMerge _ _ _ => true
  | .mapCommit _ => true
  | .compressionDone _ _ _ => true
  | .bandOpen _ _ => true
  | .rowCloseWaitExpiry _ => true
  | .rowCloseIdleExpiry _ => true
  | .rowProgramDone _ _ => true
  | .pageReadDone _ _ => true
  | .escalationStepDone _ _ => true
  | .inlineInflateDone _ _ => true
  | .memberRebuildCommit _ _ => true
  | .foldStart _ => true
  | .checkGo _ => true
  | .parityCheckDone _ => true
  | .mapFillDone _ nsx seg _ => fits nsx 10 && fits seg 27
  | .hintGo _ => true
  | .dirtyLineAgeExpiry _ nsx seg => fits nsx 10 && fits seg 27
  | .checkpointIntervalExpiry => true
  | .checkpointDone _ => true
  | .mapCacheDrainDone _ => true
  | .mapCacheResize _ => true
  | .reclaimLevelChange => true
  | .gcVictimSelect => true
  | .blockEraseDone _ _ _ => true
  | .patrolDue _ _ _ _ => true
  | .catchupPatrolEnd => true
  | .retentionClockSave => true
  | .windowUpdate _ => true
  | .holdupMeasurementDue => true
  | .measGo _ => true
  | .measurementRunDone _ => true
  | .measurementRunTimeout => true
  | .chargerTimeout _ => true
  | .holdupFlushStepDone _ _ => true
  | .flushPass2Limit => true
  | .flowOpen _ => true
  | .walkerGrain _ _ => true
  | .baseBroadcast _ => true
  | .readTokenReceive _ _ seq => fits seq 40
  | .tokenArrive _ t => t.wf
  | .heldTokenGrant _ => true
  | .partialMatchTimeout _ _ seq node => fits seq 40 && fits node 8
  | .taskDispatch _ => true
  | .taskWatchdogExpiry _ => true
  | .resultArrive t => t.wf
  | .retireMessage _ _ seq => fits seq 40
  | .outputSegmentTimer _ => true
  | .errorTokenArrive t => t.wf
  | .bufferZeroed _ => true
  | .referenceIncrement _ => true
  | .referenceDecrement _ => true
  | .writePoolFullTimeout _ => true
  | .kAdd _ => true
  | .kAdc _ => true
  | .kSub _ => true
  | .kSbc _ => true
  | .kAnd _ => true
  | .kOr _ => true
  | .kXor _ => true
  | .kAndn _ => true
  | .kShl _ => true
  | .kShr _ => true
  | .kSar _ => true
  | .kRor _ => true
  | .kRol _ => true
  | .kMin _ => true
  | .kMax _ => true
  | .kMinu _ => true
  | .kMaxu _ => true
  | .kMul _ => true
  | .kMulhs _ => true
  | .kMulhu _ => true
  | .kDivs _ => true
  | .kDivu _ => true
  | .kRems _ => true
  | .kRemu _ => true
  | .kNeg x => decide (x.b.val = 0)
  | .kNot x => decide (x.b.val = 0)
  | .kClz x => decide (x.b.val = 0)
  | .kPopc x => decide (x.b.val = 0)
  | .kBswap x => decide (x.b.val = 0)
  | .kCmp x => decide (x.d.val = 0)
  | .kAddi _ => true
  | .kAndi _ => true
  | .kOri _ => true
  | .kXori _ => true
  | .kShli x => decide (x.imm.toNat < 32)
  | .kShri x => decide (x.imm.toNat < 32)
  | .kSari x => decide (x.imm.toNat < 32)
  | .kRori x => decide (x.imm.toNat < 32)
  | .kCmpi x => decide (x.d.val = 0)
  | .kMovi _ => true
  | .kMovh x => decide (x.imm.toNat < 2 ^ 16)
  | .kLdw _ => true
  | .kLdh _ => true
  | .kLdhu _ => true
  | .kLdb _ => true
  | .kLdbu _ => true
  | .kStw _ => true
  | .kSth _ => true
  | .kStb _ => true
  | .kVld x => decide (x.d.val < 16)
  | .kVst x => decide (x.d.val < 16)
  | .kBr _ => true
  | .kCall _ => true
  | .kJr _ _ => true
  | .kCallr _ _ => true
  | .kRet _ => true
  | .kLoop _ _ off => offOk off
  | .kLoopi _ _ off => offOk off
  | .kRep _ count => count.wf
  | .kEnd _ => true
  | .kNop _ => true
  | .kMfsr _ _ _ => true
  | .kMtsr _ _ _ => true
  | .kPcmp _ _ _ _ cond => condLe cond 9
  | .kPflag _ _ cond => condLe cond 14
  | .kPlogAnd _ => true
  | .kPlogOr _ => true
  | .kPlogXor _ => true
  | .kPlogAndn _ => true
  | .kPlogNot x => decide (x.b.val = 0)
  | .kPset _ _ _ => true
  | .kPmov _ _ _ => true
  | .kPget _ _ _ => true
  | .kPcnt _ _ _ => true
  | .kVadd _ => true
  | .kVsub _ => true
  | .kVmul _ => true
  | .kVand _ => true
  | .kVor _ => true
  | .kVxor _ => true
  | .kVshl _ => true
  | .kVshr _ => true
  | .kVsar _ => true
  | .kVmin _ => true
  | .kVmax _ => true
  | .kVminu _ => true
  | .kVmaxu _ => true
  | .kVmov x => decide (x.b.val = 0)
  | .kVcmp _ _ _ _ cond => condLe cond 9
  | .kVbcast _ _ _ => true
  | .kVext _ _ _ _ => true
  | .kVins _ _ _ _ => true
  | .kVsum _ _ _ => true
  | .kSendv _ _ _ => true
  | .kSendb _ _ _ _ => true
  | .kSendn _ _ => true
  | .kSendh _ _ => true
  | .kBalloc _ _ _ => true
  | .kBrel _ _ => true
  | .kL2pf _ _ _ => true
  | .kL2rel _ _ _ => true
  | .kL2wb _ _ _ => true
  | .l2DrainDone _ _ => true
  | .coreTestGo _ _ _ _ => true
  | .coreTestDone _ _ => true
  | .matchTaskDone t => t.wf
  | .probeGo _ _ => true
  | .probeStep _ _ => true
  | .probeDone _ => true
  | .indexSearchSlot _ => true
  | .indexUpdateSlot _ => true
  | .sectionReloadDone _ _ _ _ _ => true
  | .deflateTaskDone t _ => t.wf
  | .inflateTaskDone t => t.wf
  | .taskItemYield _ _ _ => true
  | .digestTaskDone t _ _ => t.wf
  | .digestUnitSwitch _ _ => true
  | .digOpen _ _ _ => true
  | .digUpdate _ _ _ => true
  | .digFinal _ _ _ => true
  | .digOneshot _ _ _ => true
  | .digHkdf _ _ _ => true
  | .digClose _ _ _ => true
  | .digestContextGrant _ => true
  | .engineBusyTimeout _ => true
  | .digestRequestDone _ _ _ => true
  | .sessionIdleTimeout _ => true
  | .keyLoad _ => true
  | .keyLoadWrapped _ _ => true
  | .keyGenerate _ _ => true
  | .keyDestroy _ => true
  | .sensorSample readings => distinct (readings.map fun r => r.1.val)
  | .sensorStaleTimeout _ => true
  | .cageOvercurrent _ => true
  | .throttleStep => true
  | .throttleRecover => true
  | .logMirrorCopy _ => true
  | .ptpMessageReceive _ _ _ => true
  | .ptpLock => true
  | .timeSetGo _ => true
  | .mctpSetEndpointId _ => true
  | .mctpGetEndpointId => true
  | .mctpGetVersionSupport _ => true
  | .mctpGetMessageTypeSupport => true
  | .mctpGetVendorMessageSupport => true
  | .miReadDataStructure _ => true
  | .miSubsystemHealthPoll _ => true
  | .miControllerHealthPoll first => fits first 16
  | .miConfigurationGet _ => true
  | .miConfigurationSet _ value => fits value 32
  | .mctpControlRead _ _ _ => true
  | .mctpControlWrite _ _ nwords words _ => sameLength words nwords
  | .mctpAttestNonce _ _ => true
  | .mctpAttestReport _ _ => true
  | .mctpLogRead _ _ count => fits count 8
  | .mctpTimeSet _ _ => true
  | .mctpSensorRead _ first count => fits first 8 && fits count 8
  | .testGo _ _ => true
  | .testStop _ => true
  | .testInject _ => true
  | .testEnd _ _ _ wires _ => distinct (wires.map Fin.val)
  | .ppsLoss => true
  | .laneRetrain _ _ => true
  | .engineUnitTestDone _ _ _ _ => true
  | .memoryRebuildDone _ => true
  | .spillReturn _ => true
  | .kUnassigned _ _ => true

end Sys2Proof
end

