-- ==== Sys2Proof/Safety.lean ====
section
/-! DEFINITION. What the claims speak of: a task about to run an instruction, and what a change of the state leaves
alone. -/

namespace Sys2Proof.Machine

open Sys2Proof

/-! ## A task on a Kwalia core -/

/-- A core runs the task `r`, which waits for no buffer; the word at its PC is the instruction `i`; under REP an
iteration is left (R331). -/
def Ready (s : State) (core : CoreId) (i : Instr) (r : TaskRun) : Prop :=
  (s.core core.key).run = some r ∧ r.stallAt = none ∧ (∃ w, r.fetch = some w ∧ kwCanon w = kwEncode i)
    ∧ (r.rep = true → r.repcnt ≠ 0)

/-- Nothing but the task of one core differs, and that task is now `r'`. -/
def OnlyTask (s t : State) (core : CoreId) (r' : TaskRun) : Prop :=
  t.core core.key = { s.core core.key with run := some r' } ∧ (∀ k, k ≠ core.key → t.core k = s.core k)
    ∧ { t with kw := { t.kw with cores := s.kw.cores } } = s

/-- What the completion of an instruction does to the PC, to REP and to the open loops (R329, R331). -/
def Completes (r r' : TaskRun) : Prop :=
  r'.pc = r.iterate.pc ∧ r'.rep = r.iterate.rep ∧ r'.repcnt = r.iterate.repcnt ∧ r'.lc = r.iterate.lc ∧ r'.ldepth = r.iterate.ldepth

/-- Beside the general, predicate and vector registers, the flags, the scratch and what completion changes, a task is
as it was: its return stack, its loop bounds, its slots, its held sends, its inputs. -/
def KeepsRest (r r' : TaskRun) : Prop :=
  { r' with g := r.g, p := r.p, v := r.v, flags := r.flags, scratch := r.scratch, pc := r.pc, rep := r.rep, repcnt := r.repcnt, lc := r.lc, ldepth := r.ldepth } = r

/-- Every general register but the destination keeps its value, and G0 reads zero (R322). -/
def WritesG (r r' : TaskRun) (d : Fin 32) (v : Word) : Prop :=
  ∀ i, r'.rg i = if i.val = 0 then 0 else if i = d then v else r.rg i

/-- Likewise for the predicates: P0 reads 0xFFFF. -/
def WritesP (r r' : TaskRun) (d : Fin 8) (v : BitVec 16) : Prop :=
  ∀ i, r'.pg i = if i.val = 0 then 0xFFFF else if i = d then v else r.pg i

/-- The active lanes of a vector register take their values; every other lane keeps its own (R327). -/
def WritesV (r r' : TaskRun) (d : Fin 16) (mask : BitVec 16) (f : Nat → Word) : Prop :=
  ∀ (i : Fin 16) (l : Nat), l < 16 → r'.lane i l = if i = d ∧ mask.getLsbD l then f l else r.lane i l

/-- What a scalar instruction that writes no memory leaves: all of the task but its destination and completion. -/
def Scalar (r r' : TaskRun) : Prop :=
  Completes r r' ∧ KeepsRest r r' ∧ r'.scratch = r.scratch

/-! ## The rules of the ALU rows (R334, R335, R342), on the operands `a` and `b`, the flags before and the result `d` with the
flags after -/

/-- N and Z from the result, C and V as given, DZ as it was. -/
def FlagsAre (f f' : Flags) (d : Word) (c v : Bool) : Prop := f' = { n := d.msb, z := decide (d = 0), c := c, v := v, dz := f.dz }

def ruleAdd (f : Flags) (a b d : Word) (f' : Flags) : Prop :=
  d = a + b ∧ FlagsAre f f' d (decide (2 ^ 32 ≤ a.toNat + b.toNat)) (decide ((a + b).toInt ≠ a.toInt + b.toInt))
def ruleAdc (f : Flags) (a b d : Word) (f' : Flags) : Prop :=
  d.toNat = (a.toNat + b.toNat + f.c.toNat) % 2 ^ 32
    ∧ FlagsAre f f' d (decide (2 ^ 32 ≤ a.toNat + b.toNat + f.c.toNat)) (decide (d.toInt ≠ a.toInt + b.toInt + f.c.toNat))
def ruleSub (f : Flags) (a b d : Word) (f' : Flags) : Prop :=
  d = a - b ∧ FlagsAre f f' d (decide (b.toNat ≤ a.toNat)) (decide ((a - b).toInt ≠ a.toInt - b.toInt))
def ruleSbc (f : Flags) (a b d : Word) (f' : Flags) : Prop :=
  d = a - b - (if f.c then 0 else 1) ∧ FlagsAre f f' d (decide (b.toNat + (1 - f.c.toNat) ≤ a.toNat))
    (decide (d.toInt ≠ a.toInt - b.toInt - (1 - f.c.toNat)))
def ruleNeg (f : Flags) (a _b d : Word) (f' : Flags) : Prop :=
  d = 0 - a ∧ FlagsAre f f' d (decide (a = 0)) (decide (a = 0x80000000))
/-- Rows that set N and Z alone. -/
def ruleNZ (p : Word → Word → Word → Prop) (f : Flags) (a b d : Word) (f' : Flags) : Prop :=
  p a b d ∧ FlagsAre f f' d f.c f.v
def ruleAnd := ruleNZ fun a b d => ∀ i, d.getLsbD i = (a.getLsbD i && b.getLsbD i)
def ruleOr := ruleNZ fun a b d => ∀ i, d.getLsbD i = (a.getLsbD i || b.getLsbD i)
def ruleXor := ruleNZ fun a b d => ∀ i, d.getLsbD i = (a.getLsbD i != b.getLsbD i)
def ruleAndn := ruleNZ fun a b d => ∀ i, d.getLsbD i = (a.getLsbD i && ! b.getLsbD i)
def ruleNot := ruleNZ fun a _ d => ∀ i, i < 32 → d.getLsbD i = ! a.getLsbD i
/-- Zero from the right; 0 at 32 or more. -/
def ruleShl := ruleNZ fun a b d => d.toNat = a.toNat * 2 ^ b.toNat % 2 ^ 32
def ruleShr := ruleNZ fun a b d => d.toNat = a.toNat / 2 ^ b.toNat
/-- The sign fills: the quotient rounded down. -/
def ruleSar := ruleNZ fun a b d => d.toInt = a.toInt / 2 ^ b.toNat
def ruleRor := ruleNZ fun a b d => ∀ i, i < 32 → d.getLsbD i = a.getLsbD ((i + b.toNat) % 32)
def ruleRol := ruleNZ fun a b d => ∀ i, i < 32 → d.getLsbD ((i + b.toNat) % 32) = a.getLsbD i
def ruleMin := ruleNZ fun a b d => d.toInt = min a.toInt b.toInt
def ruleMax := ruleNZ fun a b d => d.toInt = max a.toInt b.toInt
def ruleMinu := ruleNZ fun a b d => d.toNat = min a.toNat b.toNat
def ruleMaxu := ruleNZ fun a b d => d.toNat = max a.toNat b.toNat
def ruleMul (f : Flags) (a b d : Word) (f' : Flags) : Prop :=
  d.toNat = a.toNat * b.toNat % 2 ^ 32
    ∧ FlagsAre f f' d f.c (decide (a.toInt * b.toInt < -2 ^ 31 ∨ 2 ^ 31 ≤ a.toInt * b.toInt))
def ruleMulhs := ruleNZ fun a b d => d.toInt = a.toInt * b.toInt / 2 ^ 32
def ruleMulhu := ruleNZ fun a b d => d.toNat = a.toNat * b.toNat / 2 ^ 32
def ruleClz := ruleNZ fun a _ d => d.toNat ≤ 32 ∧ a.toNat < 2 ^ (32 - d.toNat) ∧ (d.toNat < 32 → 2 ^ (31 - d.toNat) ≤ a.toNat)
def rulePopc := ruleNZ fun a _ d => d.toNat = (List.range 32).countP a.getLsbD
def ruleBswap := ruleNZ fun a _ d => ∀ k, k < 4 → d.extractLsb' (8 * k) 8 = a.extractLsb' (24 - 8 * k) 8
/-- Quotient or remainder, with DZ set and V clear at a zero divisor. -/
def ruleDiv (signed quotient : Bool) (f : Flags) (a b d : Word) (f' : Flags) : Prop :=
  if b = 0 then
    d = (if quotient then 0xFFFFFFFF else a) ∧ f' = { n := d.msb, z := decide (d = 0), c := f.c, v := false, dz := true }
  else if signed ∧ a = 0x80000000 ∧ b = 0xFFFFFFFF then
    d = (if quotient then 0x80000000 else 0) ∧ FlagsAre f f' d f.c true
  else
    (if signed then d.toInt = (if quotient then a.toInt.tdiv b.toInt else a.toInt.tmod b.toInt)
     else d.toNat = (if quotient then a.toNat / b.toNat else a.toNat % b.toNat)) ∧ FlagsAre f f' d f.c false

/-- A register ALU instruction that is ready and whose guard holds completes: the result and the flags are as the rule
says, and nothing else of the state changes. `writes`: it writes Gd. A division by zero is not meant here while CTL.DZE is 1. -/
def AluRow (mk : RArgs → Instr) (writes : Bool) (rule : Flags → Word → Word → Word → Flags → Prop) : Prop :=
  ∀ (x : RArgs) (s : State) (r : TaskRun), Ready s x.core (mk x) r → r.holds x.g = true →
    ∃ t r' d, exec (mk x) s = .next t ∧ OnlyTask s t x.core r' ∧ rule r.flags (r.rg x.a) (r.rg x.b) d r'.flags
      ∧ (if writes then WritesG r r' x.d d else ∀ i, r'.rg i = r.rg i) ∧ Scalar r r' ∧ r'.p = r.p ∧ r'.v = r.v

/-- The division rows: so while CTL.DZE is 0 or the divisor is not zero. -/
def DivRow (mk : RArgs → Instr) (signed quotient : Bool) : Prop :=
  ∀ (x : RArgs) (s : State) (r : TaskRun), Ready s x.core (mk x) r → r.holds x.g = true → r.dze = false ∨ r.rg x.b ≠ 0 →
    ∃ t r' d, exec (mk x) s = .next t ∧ OnlyTask s t x.core r' ∧ ruleDiv signed quotient r.flags (r.rg x.a) (r.rg x.b) d r'.flags
      ∧ WritesG r r' x.d d ∧ Scalar r r' ∧ r'.p = r.p ∧ r'.v = r.v

/-- The rows of R335 with IMM12 extended by `ext`. -/
def ImmRow (mk : IArgs → Instr) (writes : Bool) (ext : BitVec 12 → Word) (rule : Flags → Word → Word → Word → Flags → Prop) : Prop :=
  ∀ (x : IArgs) (s : State) (r : TaskRun), Ready s x.core (mk x) r → r.holds x.g = true →
    ∃ t r' d, exec (mk x) s = .next t ∧ OnlyTask s t x.core r' ∧ rule r.flags (r.rg x.a) (ext x.imm) d r'.flags
      ∧ (if writes then WritesG r r' x.d d else ∀ i, r'.rg i = r.rg i) ∧ Scalar r r' ∧ r'.p = r.p ∧ r'.v = r.v

/-! ## Memory rows (R336) -/

/-- The general registers after a memory instruction: the loaded value first, then the increment of the base. -/
def WritesLoad (x : MArgs) (r r' : TaskRun) (d : Option Word) : Prop :=
  ∀ i, r'.rg i =
    if i.val = 0 then 0
    else if i = x.d ∧ d.isSome then d.getD 0
    else if x.post ∧ i = x.a then r.rg x.a + x.imm.signExtend 32
    else r.rg i

/-- A load whose address is aligned and lies in a readable window completes with the value the row gives to the bytes read; no
byte of scratch changes, and beside the task only the L2 may. -/
def LoadRow (mk : MArgs → Instr) (n : Nat) (value : Word → List Byte → Prop) : Prop :=
  ∀ (x : MArgs) (s : State) (r : TaskRun) (l : List Byte), Ready s x.core (mk x) r → r.holds x.g = true → x.addr r % n = 0 →
    kwRead s r (x.addr r) n = some l →
    ∃ t r' d, exec (mk x) s = .next t ∧ OnlyTask (s.l2Data x.core.key r (x.addr r) n false) t x.core r' ∧ l.length = n ∧ value d l
      ∧ WritesLoad x r r' (some d) ∧ Scalar r r' ∧ r'.flags = r.flags ∧ r'.p = r.p ∧ r'.v = r.v

/-- A store to scratch: the low `n` bytes of D stand at the address, low byte first, every other byte reads as before, and nothing
else changes. -/
def StoreRow (mk : MArgs → Instr) (n : Nat) : Prop :=
  ∀ (x : MArgs) (s : State) (r : TaskRun), Ready s x.core (mk x) r → r.holds x.g = true → x.addr r % n = 0 →
    x.addr r + n ≤ r.node.scratchKib * 1024 →
    ∃ t r', exec (mk x) s = .next t ∧ OnlyTask s t x.core r'
      ∧ (∀ k, k < n → r'.scratch.read (x.addr r + k) = (r.rg x.d).extractLsb' (8 * k) 8)
      ∧ (∀ b, b < x.addr r ∨ x.addr r + n ≤ b → r'.scratch.read b = r.scratch.read b)
      ∧ WritesLoad x r r' none ∧ Completes r r' ∧ KeepsRest r r' ∧ r'.flags = r.flags ∧ r'.p = r.p ∧ r'.v = r.v

/-- A store to an output slot (R325): the bytes go into the slot's buffer at the offset, the task's scratch stays. -/
def StoreOutRow (mk : MArgs → Instr) (n : Nat) : Prop :=
  ∀ (x : MArgs) (s : State) (r : TaskRun) (j h off : Nat) (b : Buf), Ready s x.core (mk x) r → r.holds x.g = true → x.addr r % n = 0 →
    r.window (x.addr r) n = some (.output j h off) → KV.get? s.buf.bufs (h / 4096) = some b →
    ∃ t r', exec (mk x) s = .next t ∧ (t.core x.core.key).run = some r' ∧ r'.scratch = r.scratch
      ∧ KV.get? t.buf.bufs (h / 4096) = some { b with data := putB b.data off (leBytes n (r.rg x.d).toNat) }
      ∧ (∀ k, k ≠ h / 4096 → KV.get? t.buf.bufs k = KV.get? s.buf.bufs k)
      ∧ WritesLoad x r r' none ∧ Completes r r' ∧ KeepsRest r r' ∧ r'.flags = r.flags ∧ r'.p = r.p ∧ r'.v = r.v

/-! ## Control, predicates and vectors -/

/-- An instruction that REP forbids (R332). -/
def kwNoRep : Instr → Bool
  | .kRep _ _ | .kLoop _ _ _ | .kLoopi _ _ _ | .kBr _ | .kCall _ | .kJr _ _ | .kCallr _ _ | .kRet _ | .kEnd _ => true
  | .kMtsr _ _ sr => decide (2 ≤ sr.toNat ∧ sr.toNat ≤ 11)
  | _ => false

/-- The core, the guard and whether the guard is a lane mask, of a Kwalia instruction (R327). -/
def kwGuard : Instr → Option (CoreId × Guard × Bool)
  | .kAdd x => some (x.core, x.g, false)
  | .kAdc x => some (x.core, x.g, false)
  | .kSub x => some (x.core, x.g, false)
  | .kSbc x => some (x.core, x.g, false)
  | .kAnd x => some (x.core, x.g, false)
  | .kOr x => some (x.core, x.g, false)
  | .kXor x => some (x.core, x.g, false)
  | .kAndn x => some (x.core, x.g, false)
  | .kShl x => some (x.core, x.g, false)
  | .kShr x => some (x.core, x.g, false)
  | .kSar x => some (x.core, x.g, false)
  | .kRor x => some (x.core, x.g, false)
  | .kRol x => some (x.core, x.g, false)
  | .kMin x => some (x.core, x.g, false)
  | .kMax x => some (x.core, x.g, false)
  | .kMinu x => some (x.core, x.g, false)
  | .kMaxu x => some (x.core, x.g, false)
  | .kMul x => some (x.core, x.g, false)
  | .kMulhs x => some (x.core, x.g, false)
  | .kMulhu x => some (x.core, x.g, false)
  | .kDivs x => some (x.core, x.g, false)
  | .kDivu x => some (x.core, x.g, false)
  | .kRems x => some (x.core, x.g, false)
  | .kRemu x => some (x.core, x.g, false)
  | .kNeg x => some (x.core, x.g, false)
  | .kNot x => some (x.core, x.g, false)
  | .kClz x => some (x.core, x.g, false)
  | .kPopc x => some (x.core, x.g, false)
  | .kBswap x => some (x.core, x.g, false)
  | .kCmp x => some (x.core, x.g, false)
  | .kAddi x => some (x.core, x.g, false)
  | .kAndi x => some (x.core, x.g, false)
  | .kOri x => some (x.core, x.g, false)
  | .kXori x => some (x.core, x.g, false)
  | .kShli x => some (x.core, x.g, false)
  | .kShri x => some (x.core, x.g, false)
  | .kSari x => some (x.core, x.g, false)
  | .kRori x => some (x.core, x.g, false)
  | .kCmpi x => some (x.core, x.g, false)
  | .kMovi x => some (x.core, x.g, false)
  | .kMovh x => some (x.core, x.g, false)
  | .kLdw x => some (x.core, x.g, false)
  | .kLdh x => some (x.core, x.g, false)
  | .kLdhu x => some (x.core, x.g, false)
  | .kLdb x => some (x.core, x.g, false)
  | .kLdbu x => some (x.core, x.g, false)
  | .kStw x => some (x.core, x.g, false)
  | .kSth x => some (x.core, x.g, false)
  | .kStb x => some (x.core, x.g, false)
  | .kVld x => some (x.core, x.g, true)
  | .kVst x => some (x.core, x.g, true)
  | .kBr x => some (x.core, x.g, false)
  | .kCall x => some (x.core, x.g, false)
  | .kJr x _ => some (x.core, x.g, false)
  | .kCallr x _ => some (x.core, x.g, false)
  | .kRet x => some (x.core, x.g, false)
  | .kLoop x _ _ => some (x.core, x.g, false)
  | .kLoopi x _ _ => some (x.core, x.g, false)
  | .kRep x _ => some (x.core, x.g, false)
  | .kEnd x => some (x.core, x.g, false)
  | .kNop x => some (x.core, x.g, false)
  | .kMfsr x _ _ => some (x.core, x.g, false)
  | .kMtsr x _ _ => some (x.core, x.g, false)
  | .kPcmp x _ _ _ _ => some (x.core, x.g, false)
  | .kPflag x _ _ => some (x.core, x.g, false)
  | .kPlogAnd x => some (x.core, x.g, false)
  | .kPlogOr x => some (x.core, x.g, false)
  | .kPlogXor x => some (x.core, x.g, false)
  | .kPlogAndn x => some (x.core, x.g, false)
  | .kPlogNot x => some (x.core, x.g, false)
  | .kPset x _ _ => some (x.core, x.g, false)
  | .kPmov x _ _ => some (x.core, x.g, false)
  | .kPget x _ _ => some (x.core, x.g, false)
  | .kPcnt x _ _ => some (x.core, x.g, false)
  | .kVadd x => some (x.core, x.g, true)
  | .kVsub x => some (x.core, x.g, true)
  | .kVmul x => some (x.core, x.g, true)
  | .kVand x => some (x.core, x.g, true)
  | .kVor x => some (x.core, x.g, true)
  | .kVxor x => some (x.core, x.g, true)
  | .kVshl x => some (x.core, x.g, true)
  | .kVshr x => some (x.core, x.g, true)
  | .kVsar x => some (x.core, x.g, true)
  | .kVmin x => some (x.core, x.g, true)
  | .kVmax x => some (x.core, x.g, true)
  | .kVminu x => some (x.core, x.g, true)
  | .kVmaxu x => some (x.core, x.g, true)
  | .kVmov x => some (x.core, x.g, true)
  | .kVcmp x _ _ _ _ => some (x.core, x.g, true)
  | .kVbcast x _ _ => some (x.core, x.g, true)
  | .kVext x _ _ _ => some (x.core, x.g, false)
  | .kVins x _ _ _ => some (x.core, x.g, false)
  | .kVsum x _ _ => some (x.core, x.g, true)
  | .kSendv x _ _ => some (x.core, x.g, false)
  | .kSendb x _ _ _ => some (x.core, x.g, false)
  | .kSendn x _ => some (x.core, x.g, false)
  | .kSendh x _ => some (x.core, x.g, false)
  | .kBalloc x _ _ => some (x.core, x.g, false)
  | .kBrel x _ => some (x.core, x.g, false)
  | .kL2pf x _ _ => some (x.core, x.g, false)
  | .kL2rel x _ _ => some (x.core, x.g, false)
  | .kL2wb x _ _ => some (x.core, x.g, false)
  | _ => none

/-- A taken branch closes, from the innermost on, exactly the loops that its target leaves (R329). -/
def ClosesLoops (r r' : TaskRun) (target : Nat) : Prop :=
  r' = { r with pc := target, ldepth := r'.ldepth } ∧ r'.ldepth ≤ r.ldepth
    ∧ (∀ m, r'.ldepth ≤ m → m < r.ldepth → target < (r.ls.getD m 0).toNat ∨ (r.le.getD m 0).toNat < target)
    ∧ (0 < r'.ldepth → (r.ls.getD (r'.ldepth - 1) 0).toNat ≤ target ∧ target ≤ (r.le.getD (r'.ldepth - 1) 0).toNat)

/-- A scalar instruction that completes and writes a predicate alone. -/
def PredRow (i : Instr) (core : CoreId) (g : Guard) (d : Fin 8) (value : TaskRun → BitVec 16 → Prop) : Prop :=
  ∀ (s : State) (r : TaskRun), Ready s core i r → r.holds g = true →
    ∃ t r' p, exec i s = .next t ∧ OnlyTask s t core r' ∧ value r p ∧ WritesP r r' d p ∧ Scalar r r' ∧ r'.g = r.g ∧ r'.flags = r.flags ∧ r'.v = r.v

/-- A scalar instruction that completes and writes a general register alone. -/
def GenRow (i : Instr) (core : CoreId) (g : Guard) (d : Fin 32) (value : TaskRun → Word → Prop) : Prop :=
  ∀ (s : State) (r : TaskRun), Ready s core i r → r.holds g = true →
    ∃ t r' w, exec i s = .next t ∧ OnlyTask s t core r' ∧ value r w ∧ WritesG r r' d w ∧ Scalar r r' ∧ r'.p = r.p ∧ r'.flags = r.flags ∧ r'.v = r.v

/-- A vector instruction that completes: each active lane gets the lane result, the others keep theirs. -/
def VecRow (mk : VArgs → Instr) (value : Word → Word → Word → Prop) : Prop :=
  ∀ (x : VArgs) (s : State) (r : TaskRun), Ready s x.core (mk x) r → r.mask x.g ≠ 0 →
    ∃ t r' f, exec (mk x) s = .next t ∧ OnlyTask s t x.core r' ∧ (∀ l, l < 16 → value (r.lane x.a l) (r.lane x.b l) (f l))
      ∧ WritesV r r' x.d (r.mask x.g) f ∧ Scalar r r' ∧ r'.g = r.g ∧ r'.p = r.p ∧ r'.flags = r.flags

/-- The comparison conditions of R338 on two words. -/
def Holds (code : Nat) (a b : Word) : Prop :=
  match code with
  | 0 => a = b
  | 1 => a ≠ b
  | 2 => a.toInt < b.toInt
  | 3 => b.toInt ≤ a.toInt
  | 4 => a.toInt ≤ b.toInt
  | 5 => b.toInt < a.toInt
  | 6 => a.toNat < b.toNat
  | 7 => b.toNat ≤ a.toNat
  | 8 => a.toNat ≤ b.toNat
  | 9 => b.toNat < a.toNat
  | _ => False

/-- The conditions of R338 on the flags. -/
def FlagHolds (code : Nat) (f : Flags) : Prop :=
  match code with
  | 0 => f.z = true
  | 1 => f.z = false
  | 2 => f.n ≠ f.v
  | 3 => f.n = f.v
  | 4 => f.z = true ∨ f.n ≠ f.v
  | 5 => f.z = false ∧ f.n = f.v
  | 6 => f.c = false
  | 7 => f.c = true
  | 8 => f.c = false ∨ f.z = true
  | 9 => f.c = true ∧ f.z = false
  | 10 => f.n = true
  | 11 => f.n = false
  | 12 => f.v = true
  | 13 => f.v = false
  | 14 => f.dz = true
  | _ => False

/-- All bits set where the condition holds, none where it does not. -/
def MaskOf (c : Prop) (p : BitVec 16) : Prop := (c → p = 0xFFFF) ∧ (¬ c → p = 0)

/-! ## Paths and pages (R36, R37, R39, R44) -/

/-- The command completes, and the state it leaves is as `P` says. -/
def Yields (c : Instr) (s : State) (P : State → Prop) : Prop := ∃ t, exec c s = .next t ∧ P t

/-- After what has fallen due on the page, a path reaches a word of it: the path is up, the unit is up, and the expert region, where the word
lies there, is open to the path. -/
def Reached (s : State) (path : Path) (pg off : Nat) : Prop :=
  path.reaches pg off = true ∧ (s.tickPage pg).pathUp path = true ∧ (s.tickPage pg).unitState pg = 0
    ∧ (0x400 ≤ off → (s.tickPage pg).expertOpen path pg = true)

/-- A word whose write does nothing beside its RW and RWS fields. -/
def NoAction (pg off : Nat) : Prop := ∀ (s : State) (path : Path) (v : Nat), s.pageAction path pg off v = s

/-- Bit `i` of a word of a page type belongs to a field with the access code. -/
def bitOf (pt off : Nat) (acc : Access) (i : Nat) : Bool :=
  (RegMap.at pt off).any fun f => f.acc = acc && decide (f.lo ≤ i) && decide (i ≤ f.hi)

/-- Nothing but the control space differs. -/
def OnlyCtl (s t : State) : Prop := { t with ctl := s.ctl } = s

/-- Nothing but one page's own state differs: every register word, every latch and every other page is as before. -/
def OnlyPage (s t : State) (pg : Nat) : Prop :=
  OnlyCtl s t ∧ t.ctl.regs = s.ctl.regs ∧ t.ctl.latch = s.ctl.latch ∧ t.ctl.spareUsed = s.ctl.spareUsed ∧ ∀ q, q ≠ pg → t.page q = s.page q

/-- What is kept of the first error, with the count (R35). -/
def ErrorRecorded (s t : State) (pg code info : Nat) : Prop :=
  if (s.page pg).errCode = 0 then (t.page pg).errCode = code ∧ (t.page pg).errCount = 1 ∧ (t.page pg).errInfo = info
  else (t.page pg).errCode = (s.page pg).errCode ∧ (t.page pg).errCount = min ((s.page pg).errCount + 1) 0xFFFF
    ∧ (t.page pg).errInfo = (s.page pg).errInfo

/-! ## Admin commands (R111 to R119, R126) -/

/-- What each arriving admin command does first: the controller's keep-alive starts again and 16 sixteenths are charged to its instance. -/
def State.charged (s : State) (cap : Cap) (k : Ctrl) : State :=
  let u := s.keepAlive cap.ctrl
  u.setDef k.inst (u.defOf k.inst - 16)

/-- An admin command of a ready controller `k` is taken at once: its queue is the admin queue, nothing stops admission, its identifier is
free, and its connection is authenticated where the instance demands it. -/
def AdminOk (s : State) (cap : Cap) (k : Ctrl) : Prop :=
  s.ctrl? cap.ctrl = some k ∧ cap.qid = 0 ∧ k.disc = false ∧ k.rdy = true ∧ k.resetting = false ∧ k.closing = false ∧ k.adminWait = []
    ∧ s.cmd.drainStopped = false ∧ (s.instOf k.inst).resetting = false ∧ s.cmd.act = .idle
    ∧ k.aers.length + (s.cmd.ctxs.filter fun e => e.2.inst = k.inst && e.2.qid = 0).length < 32
    ∧ cap.cid ∉ k.aers ∧ (∀ e ∈ s.cmd.ctxs, e.2.ctrl = cap.ctrl → e.2.qid = 0 → e.2.cid ≠ cap.cid)
    ∧ (∀ n, KV.get? s.net.conns k.conn = some n → n.reqAuth = true → k.authed = true)

/-- A completion of the command leaves the module last. -/
def Completed (t : State) (cap : Cap) (st : Status) (dw0 : Nat) : Prop :=
  ∃ dw1 rest, t.out = .completion cap.ctrl cap.qid cap.cid st dw0 dw1 :: rest

/-- Of the whole state, a completion and its data change only what is sent, the bytes that wait on a connection, the completion counts, the
error log of the controller and the time of the last completion. -/
def OnlyCompletion (s t : State) : Prop :=
  { t with out := s.out, ctl := s.ctl, cmd := s.cmd, net := s.net, pwr := s.pwr } = s

/-! ## What logging and reporting may touch (R424 to R426, R160) -/

/-- The management processor runs and nothing is held: events go into the log at once (R425). -/
def Awake (s : State) : Prop := s.mode.mode ≠ .off ∧ s.mode.mode ≠ .holdup ∧ s.mode.mpRestarting = false

/-- The log has a new entry of this page, code and severity. -/
def Logged (s t : State) (pg code : Nat) (sev : Sev) : Prop :=
  ∃ e ∈ t.log.entries, s.log.head < e.seq ∧ e.pageId = pageId pg ∧ e.code = code ∧ e.sev = sev

/-- Nothing differs but what an event, its log entry and its reports write: the log, page events and counters, reports to hosts, what is
sent, and the bytes that wait on connections. -/
def Noted (s t : State) : Prop :=
  { t with log := s.log, out := s.out, ctl := s.ctl, cmd := s.cmd, net := s.net, pwr := s.pwr } = s
    ∧ { t.pwr with lastDone := s.pwr.lastDone } = s.pwr ∧ { t.net with conns := s.net.conns } = s.net

/-- Nothing but the network edge differs. -/
def OnlyNet (s t : State) : Prop := { t with net := s.net } = s

/-- A sub-link may be used and is up. -/
def LinkOk (s : State) (p : Fin 2) (k : Fin 4) : Prop := s.subReady p.val k.val = true ∧ (s.subOf p.val k.val).up = true

/-- No sub-link but one differs. -/
def OnlySub (s t : State) (p : Fin 2) (k : Fin 4) : Prop := ∀ (p' : Fin 2) (k' : Fin 4), p' ≠ p ∨ k' ≠ k → t.subOf p'.val k'.val = s.subOf p'.val k'.val

/-- A counter of a sub-link went up by one; it wraps. -/
def SubCounted (s t : State) (p : Fin 2) (k : Fin 4) (n : Nat) : Prop :=
  KV.getD 0 (t.subOf p.val k.val).cnt n = (KV.getD 0 (s.subOf p.val k.val).cnt n + 1) % 2 ^ 32

/-- An element of a register array of counters went up by one; it wraps. -/
def Counted (s t : State) (pg : Nat) (f : Field) (k : Nat) : Prop := t.cfgAt pg f k = (s.cfgAt pg f k + 1) % 2 ^ 32

/-- An attempt finds the module ready for it, and a rule `r` of index `n` that allows it: it is not held off, and the transport has room (R97, R99, R103). -/
def Admissible (s : State) (a : Attempt) (n : Nat) (r e : List Byte) : Prop :=
  s.serving = true ∧ LinkOk s a.port a.sub ∧ s.cmd.drainStopped = false ∧ s.heldOff a.src = false ∧ s.attemptEntry a = some e
    ∧ s.ruleFor a = some (n, r) ∧ ruleByte r 0x1C = 1 ∧ s.connCount a.roce < 16384

/-- A connection that an attempt opened, bound to its rule. -/
def Opened (c : Conn) (a : Attempt) (n : Nat) (r : List Byte) (phase : ConnPhase) : Prop :=
  c.phase = phase ∧ c.rule = n ∧ c.inst = ruleByte r 0x1E ∧ c.reqTls = ruleFlag r 2 ∧ c.reqAuth = ruleFlag r 3 ∧ c.roce = a.roce ∧ c.src = a.src
    ∧ c.port = a.port.val ∧ c.sub = a.sub.val ∧ c.ctrl = none ∧ c.tls = .none ∧ c.icDone = false

/-- What the admin queue asks of any command before it is taken: `AdminOk` without the controller's readiness and without authentication. -/
def AdminFree (s : State) (cap : Cap) (k : Ctrl) : Prop :=
  s.ctrl? cap.ctrl = some k ∧ cap.qid = 0 ∧ k.closing = false ∧ k.adminWait = [] ∧ s.cmd.drainStopped = false ∧ (s.instOf k.inst).resetting = false
    ∧ s.cmd.act = .idle ∧ k.aers.length + (s.cmd.ctxs.filter fun e => e.2.inst = k.inst && e.2.qid = 0).length < 32
    ∧ cap.cid ∉ k.aers ∧ ∀ e ∈ s.cmd.ctxs, e.2.ctrl = cap.ctrl → e.2.qid = 0 → e.2.cid ≠ cap.cid

/-- The connection of the controller asks for no authentication, or it has taken place. -/
def AuthMet (s : State) (k : Ctrl) : Prop := ∀ n, KV.get? s.net.conns k.conn = some n → n.reqAuth = true → k.authed = true

/-- A completion of the command is among what the module has sent. -/
def Answered (t : State) (cap : Cap) (st : Status) (dw0 : Nat) : Prop := ∃ dw1, .completion cap.ctrl cap.qid cap.cid st dw0 dw1 ∈ t.out

/-- A command still counts: its instance's generation and its controller's epoch are those that it was admitted under, and its queue stands (R114, R155). -/
def Current (s : State) (x : Ctx) : Prop :=
  x.gen = s.gen x.inst ∧ ∃ k, s.ctrl? x.ctrl = some k ∧ k.epoch = x.epoch ∧ (x.qid ≠ 0 → (KV.get? k.queues x.qid).isSome = true)

/-- A command ends: its context is free, and its completion is sent. -/
def CommandEnds (t : State) (c : Nat) (x : Ctx) (st : Status) : Prop :=
  t.ctx? c = none ∧ ∃ dw0 dw1, .completion x.ctrl x.qid x.cid st dw0 dw1 ∈ t.out

/-- A Connect that finds its connection `c` ready for it: TLS and the opening PDU are done where they are asked for, hosts are served, nothing holds it back, and it
names what the connection reaches. -/
def ConnectOk (s : State) (conn : Nat) (c : Conn) (sub : Option (Fin 256)) : Prop :=
  s.conn? conn = some c ∧ s.serving = true ∧ c.phase ≠ .closed ∧ (c.reqTls = true → c.tls = .done) ∧ (c.roce = true ∨ c.icDone = true)
    ∧ s.cmd.drainStopped = false ∧ s.cmd.act = .idle ∧ c.disc = false ∧ (s.instOf c.inst).resetting = false ∧ (∃ i, sub = some i ∧ i.val = c.inst)
    ∧ s.enabled c.inst = true ∧ c.ctrl = none

/-- An I/O command of a queue with room is taken at once, and no round starts with it. -/
def IoOk (s : State) (op : Instr) (cap : Cap) (k : Ctrl) (q : IoQueue) : Prop :=
  op.ioCap = some cap ∧ s.ctrl? cap.ctrl = some k ∧ cap.qid ≠ 0 ∧ KV.get? k.queues cap.qid = some q ∧ s.cmd.drainStopped = false ∧ k.resetting = false
    ∧ (s.instOf k.inst).resetting = false ∧ s.cmd.act = .idle ∧ q.waiting = [] ∧ s.hasRoom cap.ctrl cap.qid k q = true
    ∧ (∀ e ∈ s.cmd.ctxs, e.2.ctrl = cap.ctrl → e.2.qid = cap.qid → e.2.cid ≠ cap.cid)

/-- A context that a command has just taken (R116, R124). -/
def TakenAs (s : State) (x : Ctx) (op : Instr) (cap : Cap) (k : Ctrl) (expected : Nat) : Prop :=
  x.op = op ∧ x.inst = k.inst ∧ x.gen = s.gen k.inst ∧ x.ctrl = cap.ctrl ∧ x.epoch = k.epoch ∧ x.qid = cap.qid ∧ x.cid = cap.cid ∧ x.state = .admitted
    ∧ x.cost = s.cost k.inst op ∧ x.expected = expected ∧ x.got = [] ∧ x.failed = none ∧ x.at_ = s.now

/-! ## Media, map and invocations -/

/-- Nothing waits for a band, a buffer, the end of a read or an acknowledgement. -/
def Calm (s : State) : Prop :=
  (∀ q, (s.cache q).wbs = []) ∧ s.media.versions = [] ∧ (∀ e ∈ s.media.bands, e.2.state ≠ .folding) ∧ s.cmd.ctxs = [] ∧ s.mat.zap = []
    ∧ s.prog.flows = []

/-- The journal has a new record (R205). -/
def Journaled (s t : State) (type key value : Nat) : Prop :=
  ∃ r ∈ t.map.journal, s.map.seq < r.seq ∧ r.type = type ∧ r.key = key ∧ r.value = value

/-- A node still waits for an input other than this port's (R280). -/
def NodeWaits (s : State) (q : Nat) (f : Flow) (t : Token) : Prop :=
  ∃ n k, s.nodeOf f (t.port / 4) = some n ∧ k < n.inputs ∧ 4 * (t.port / 4) + k ≠ t.port
    ∧ KV.get? (s.disp q).entries (tokenKey t.flow t.seq (4 * (t.port / 4) + k)) = none

/-- A token of a flow `f` that has arrived at its port in quadrant `q` finds no entry of its own, no tomb, and a sequence not yet released (R290). -/
def Storable (s : State) (q : Nat) (f : Flow) (t : Token) : Prop :=
  s.flow? t.flow = some f ∧ t.gen = s.gen t.inst ∧ KV.get? (s.disp q).entries (tokenKey t.flow t.seq t.port) = none ∧ f.base ≤ t.seq
    ∧ KV.get? (s.disp q).tombs (tokenKey t.flow t.seq (t.port / 4 * 4)) = none

/-- An engine task's item `e` is done: it stands with its flow, node and input token, waits for no buffer, and its node has one output (R280). -/
def ItemDone (s : State) (t : TaskRef) (kind : Nat) (e : EngItem) (f : Flow) (n : Node) (k : Token) : Prop :=
  s.itemOn t kind = some (e, f, n, k) ∧ s.itemWaits t.quad.ix e.task = false ∧ n.outputs = 1

/-- The buffer of a result is another than the input's. -/
def OtherBuffer (k : Token) (h : Nat) : Prop := k.buf = true → k.value.toNat % 2 ^ 41 / 4096 ≠ h / 4096

/-- An engine task's result is a token that names a buffer with these bytes, and its item has left the queue. -/
def ResultIn (s t : State) (q : Nat) (e : EngItem) (n : Node) (h : Nat) (l : List Byte) : Prop :=
  (∃ a, t.prog.flight = s.prog.flight ++ [a] ∧ a.kind = 2 ∧ a.buf = true ∧ a.flow = e.task.flow ∧ a.seq = e.task.seq ∧ a.port = n.arcs.getD 0 0
      ∧ a.value = BitVec.ofNat 64 h ∧ a.aux = BitVec.ofNat 64 l.length)
    ∧ (∃ b, KV.get? t.buf.bufs (h / 4096) = some b ∧ b.data = l) ∧ ∀ x ∈ (t.disp q).engine, x.task ≠ e.task

/-- An engine task has failed: an ERROR token with this code, a VOID result, and its item has left the queue (R300). -/
def ItemFailed (s t : State) (q : Nat) (e : EngItem) (err : Nat) : Prop :=
  (∃ a b, t.prog.flight = s.prog.flight ++ [a, b] ∧ a.kind = 4 ∧ a.port = portError ∧ a.err = err ∧ a.flow = e.task.flow ∧ a.seq = e.task.seq ∧ a.node = e.task.node
      ∧ b.kind = 3 ∧ b.port = portRelease ∧ b.seq = e.task.seq) ∧ ∀ x ∈ (t.disp q).engine, x.task ≠ e.task

/-- A task is queued again at its engine with its attempt counted (R298). -/
def Requeued (s t : State) (q : Nat) (e : EngItem) : Prop :=
  e.task.attempt + 1 < s.cfg (Pg.TSK q) Fd.TSK_REEXEC_LIMIT → ∃ x ∈ (t.disp q).engine, x.kind = e.kind ∧ x.task = { e.task with attempt := e.task.attempt + 1 }

/-! ## Direct digest requests and keys -/

/-- The word of REQ_CMD with its operation and GO (R400). -/
def reqWord (op : Nat) (cmd : Word) : Nat := setBits (setBits cmd.toNat 3 0 op) 31 31 1

/-- A direct request can be taken: no request runs, and no idle session was closed unreported. -/
def DigestFree (s : State) (path : Path) (q : Nat) : Prop :=
  Reached s path (Pg.DIG q) Fd.DIG_REQ_CMD_OP.off ∧ (s.digQ q).req = none ∧ (s.digQ q).idleClosed = false

/-- No task item waits for a digest context of the quadrant. -/
def NoItemWaits (s : State) (q : Nat) : Prop := ∀ w ∈ (s.digQ q).waits, w = digDirect

/-- The RESULT word of a quadrant's digest page. -/
def State.digResult (s : State) (q : Nat) : Nat := s.live (Pg.DIG q * 4096 + Fd.DIG_RESULT_EQ.off)

/-- A request has ended: RESULT shows it, no request is left, and REQ_DONE is set. -/
def DigestEnded (t : State) (q result : Nat) : Prop :=
  t.digResult q = result ∧ (t.digQ q).req = none ∧ (t.page (Pg.DIG q)).evRaw.testBit 11 = true

/-- The checks 1 to 4 of R406 that LOAD, LOAD_WRAPPED and GENERATE share pass, on the register values of `u`. -/
def KeyAttrOk (u : State) : Prop :=
  16 ≤ u.cfg Pg.SEC Fd.SEC_KEY_SEL_SLOT ∧ (u.keySlot (u.cfg Pg.SEC Fd.SEC_KEY_SEL_SLOT)).type = 0 ∧ 1 ≤ u.secAttr Fd.SEC_KEY_ATTR_TYPE
    ∧ u.secAttr Fd.SEC_KEY_ATTR_TYPE ≤ 4 ∧ lenOk (u.secAttr Fd.SEC_KEY_ATTR_TYPE) (u.secAttr Fd.SEC_KEY_ATTR_LEN) = true
    ∧ permOk (u.secAttr Fd.SEC_KEY_ATTR_TYPE) (u.secAttr Fd.SEC_KEY_ATTR_PERM) = true

/-- A key operation has ended with RESULT: KEY_DATA reads zero and the event is set. -/
def KeyEnded (t : State) (result : Nat) : Prop :=
  t.cfg Pg.SEC Fd.SEC_KEY_STATUS_RESULT = result ∧ (∀ k, k < 34 → t.cfgAt Pg.SEC Fd.SEC_KEY_DATA_DATA k = 0) ∧ (t.page Pg.SEC).evRaw.testBit 8 = true

/-- One key slot has changed, and no other. -/
def OnlyKey (s t : State) (slot : Nat) (k : KeySlot) : Prop := t.keySlot slot = k ∧ ∀ j, j ≠ slot → t.keySlot j = s.keySlot j

/-- A task's own state is well formed. -/
def TaskRun.WellFormed (r : TaskRun) : Prop :=
  r.ldepth ≤ 3 ∧ r.ls.length = 3 ∧ r.le.length = 3 ∧ r.lc.length = 3 ∧ r.rstack.length ≤ 16 ∧ Mem.wf r.scratch = true ∧ KV.wf 0 r.g = true
    ∧ KV.wf 0 r.p = true ∧ KV.wf 0 r.v = true ∧ KV.get? r.g 0 = none ∧ KV.get? r.p 0 = none ∧ r.hints.length ≤ 16
    ∧ ∀ k, (KV.get? r.sends k).isSome = true → k < r.node.outputs

/-- So is every task that a core runs. -/
def KwTasksWellFormed (s : State) : Prop := ∀ (c : Nat) (r : TaskRun), (s.core c).run = some r → r.WellFormed

end Sys2Proof.Machine
end

