-- ==== Sys2Proof/Certificates/Slice0/Obligations.lean ====
section
/-! DEFINITION. The statements for the provers. -/

open Sys2Proof Sys2Proof.Machine

/-! ## The queue -/

/-- A step takes the command at the front of the queue and runs it with the queue's rest; with no command waiting the
clock alone moves on, by 1,000 ns (log entry 1). -/
def Obligations.StepRunsTheFrontOfTheQueue : Prop :=
  (∀ (c : Instr) (q : List Instr) (s : State), step { s with pending := c :: q } = exec c { s with pending := q })
    ∧ ∀ s : State, s.pending = [] → step s = .next { s with now := s.now + 1000 }

/-! ## The Kwalia cores -/

/-- The register ALU (R334): what each of its rows writes and which flags it sets, the division rows by R342, with DIV_ZERO; with CTL.DZE = 1 a zero divisor takes the exception with DZ
set.
Readings of the model: log entry 16. -/
def Obligations.KwRegisterAlu : Prop :=
  (AluRow .kAdd true ruleAdd ∧ AluRow .kAdc true ruleAdc ∧ AluRow .kSub true ruleSub ∧ AluRow .kSbc true ruleSbc
    ∧ AluRow .kNeg true ruleNeg ∧ AluRow .kCmp false ruleSub)
    ∧ (AluRow .kAnd true ruleAnd ∧ AluRow .kOr true ruleOr ∧ AluRow .kXor true ruleXor ∧ AluRow .kAndn true ruleAndn
    ∧ AluRow .kNot true ruleNot ∧ AluRow .kShl true ruleShl ∧ AluRow .kShr true ruleShr ∧ AluRow .kSar true ruleSar
    ∧ AluRow .kRor true ruleRor ∧ AluRow .kRol true ruleRol)
    ∧ (AluRow .kMin true ruleMin ∧ AluRow .kMax true ruleMax ∧ AluRow .kMinu true ruleMinu ∧ AluRow .kMaxu true ruleMaxu
    ∧ AluRow .kMul true ruleMul ∧ AluRow .kMulhs true ruleMulhs ∧ AluRow .kMulhu true ruleMulhu ∧ AluRow .kClz true ruleClz
    ∧ AluRow .kPopc true rulePopc ∧ AluRow .kBswap true ruleBswap)
    ∧ (DivRow .kDivs true true ∧ DivRow .kDivu false true ∧ DivRow .kRems true false ∧ DivRow .kRemu false false)
    ∧ ∀ (x : RArgs) (s : State) (r : TaskRun) (mk : RArgs → Instr), mk ∈ [Instr.kDivs, .kDivu, .kRems, .kRemu] →
        Ready s x.core (mk x) r → r.holds x.g = true → r.dze = true → r.rg x.b = 0 →
        exec (mk x) s = .next (s.takeExc x.core.key { r with flags := { r.flags with dz := true } } Exc.DIV_ZERO)

/-- The immediate instructions of R335; MOVI and MOVH set no flag. -/
def Obligations.KwImmediates : Prop :=
  ImmRow .kAddi true (·.signExtend 32) ruleAdd ∧ ImmRow .kAndi true (·.signExtend 32) ruleAnd
    ∧ ImmRow .kOri true (·.signExtend 32) ruleOr ∧ ImmRow .kXori true (·.signExtend 32) ruleXor
    ∧ ImmRow .kShli true (·.zeroExtend 32) ruleShl ∧ ImmRow .kShri true (·.zeroExtend 32) ruleShr
    ∧ ImmRow .kSari true (·.zeroExtend 32) ruleSar ∧ ImmRow .kRori true (·.zeroExtend 32) ruleRor
    ∧ ImmRow .kCmpi false (·.signExtend 32) ruleSub
    ∧ (∀ (x : UArgs) (s : State) (r : TaskRun), Ready s x.core (.kMovi x) r → r.holds x.g = true →
        ∃ t r', exec (.kMovi x) s = .next t ∧ OnlyTask s t x.core r' ∧ WritesG r r' x.d (x.imm.signExtend 32) ∧ Scalar r r'
          ∧ r'.flags = r.flags ∧ r'.p = r.p ∧ r'.v = r.v)
    ∧ (∀ (x : UArgs) (s : State) (r : TaskRun), Ready s x.core (.kMovh x) r → r.holds x.g = true →
        ∃ t r' d, exec (.kMovh x) s = .next t ∧ OnlyTask s t x.core r' ∧ WritesG r r' x.d d ∧ Scalar r r'
          ∧ d.extractLsb' 16 16 = x.imm.extractLsb' 0 16 ∧ d.extractLsb' 0 16 = (r.rg x.d).extractLsb' 0 16
          ∧ r'.flags = r.flags ∧ r'.p = r.p ∧ r'.v = r.v)

/-- The loads and the stores of R336, from and to the windows of R325.
Readings of the model: log entry 13. -/
def Obligations.KwLoadsAndStores : Prop :=
  (LoadRow .kLdw 4 (fun d l => d.toNat = leNat l)
    ∧ LoadRow .kLdh 2 (fun d l => d.toInt = if leNat l < 2 ^ 15 then (leNat l : Int) else leNat l - 2 ^ 16)
    ∧ LoadRow .kLdhu 2 (fun d l => d.toNat = leNat l)
    ∧ LoadRow .kLdb 1 (fun d l => d.toInt = if leNat l < 2 ^ 7 then (leNat l : Int) else leNat l - 2 ^ 8)
    ∧ LoadRow .kLdbu 1 (fun d l => d.toNat = leNat l)
    ∧ ∀ (x : MArgs) (s : State) (r : TaskRun) (l : List Byte), Ready s x.core (.kVld x) r → r.mask x.g ≠ 0 → x.addr r % 64 = 0 →
        kwRead s r (x.addr r) 64 = some l →
        ∃ t r' f, exec (.kVld x) s = .next t ∧ OnlyTask (s.l2Data x.core.key r (x.addr r) 64 false) t x.core r'
          ∧ (∀ k, k < 16 → (f k).toNat = leNat ((l.drop (4 * k)).take 4)) ∧ WritesV r r' x.vd (r.mask x.g) f
          ∧ WritesLoad x r r' none ∧ Scalar r r' ∧ r'.p = r.p ∧ r'.flags = r.flags)
    ∧ (StoreRow .kStw 4 ∧ StoreRow .kSth 2 ∧ StoreRow .kStb 1 ∧ StoreOutRow .kStw 4 ∧ StoreOutRow .kSth 2 ∧ StoreOutRow .kStb 1
    ∧ ∀ (x : MArgs) (s : State) (r : TaskRun), Ready s x.core (.kVst x) r → r.mask x.g ≠ 0 → x.addr r % 64 = 0 →
        x.addr r + 64 ≤ r.node.scratchKib * 1024 →
        ∃ t r', exec (.kVst x) s = .next t ∧ OnlyTask s t x.core r'
          ∧ (∀ l k, l < 16 → k < 4 → r'.scratch.read (x.addr r + 4 * l + k) =
              if (r.mask x.g).getLsbD l then (r.lane x.vd l).extractLsb' (8 * k) 8 else r.scratch.read (x.addr r + 4 * l + k))
          ∧ (∀ b, b < x.addr r ∨ x.addr r + 64 ≤ b → r'.scratch.read b = r.scratch.read b)
          ∧ WritesLoad x r r' none ∧ Completes r r' ∧ KeepsRest r r' ∧ r'.flags = r.flags ∧ r'.p = r.p ∧ r'.v = r.v)

/-- ALIGN and MEM_FAULT of R336: a misaligned access takes ALIGN, an aligned one outside the windows MEM_FAULT; the exception is taken with the task as it was before the instruction
(R343). Taking an exception (R314, R343, R344): the core falls idle with the code, the instance and the PC in its last-exception fields, event bit 8 of its cluster's page is set, no other
core changes its task, and the flow gets an ERROR token with PROGRAM_FAULT whose VALUE holds the code and the PC.
Readings of the model: log entry 22. -/
def Obligations.KwMemoryFaultsAndExceptions : Prop :=
  ((∀ (x : MArgs) (s : State) (r : TaskRun) (e : (MArgs → Instr) × Nat),
      e ∈ [(Instr.kLdw, 4), (.kLdh, 2), (.kLdhu, 2), (.kLdb, 1), (.kLdbu, 1), (.kStw, 4), (.kSth, 2), (.kStb, 1)] →
      Ready s x.core (e.1 x) r → r.holds x.g = true →
      (x.addr r % e.2 ≠ 0 → exec (e.1 x) s = .next (s.takeExc x.core.key r Exc.ALIGN))
        ∧ (x.addr r % e.2 = 0 → r.window (x.addr r) e.2 = none → exec (e.1 x) s = .next (s.takeExc x.core.key r Exc.MEM_FAULT)))
    ∧ ∀ (x : MArgs) (s : State) (r : TaskRun) (mk : MArgs → Instr), mk ∈ [Instr.kVld, .kVst] →
        Ready s x.core (mk x) r → r.mask x.g ≠ 0 →
        (x.addr r % 64 ≠ 0 → exec (mk x) s = .next (s.takeExc x.core.key r Exc.ALIGN))
          ∧ (x.addr r % 64 = 0 → r.window (x.addr r) 64 = none → exec (mk x) s = .next (s.takeExc x.core.key r Exc.MEM_FAULT)))
    ∧ (∀ (s : State) (c code : Nat) (r : TaskRun) (f : Flow), (s.core c).run = some r → s.flow? r.task.flow = some f →
    ((s.takeExc c r code).core c).run = none ∧ ((s.takeExc c r code).core c).excCode = code
      ∧ ((s.takeExc c r code).core c).excInst = r.task.inst ∧ ((s.takeExc c r code).core c).excPc = r.pc
      ∧ (∀ k, k ≠ c → ((s.takeExc c r code).core k).run = (s.core k).run)
      ∧ ((s.takeExc c r code).page (cluPage c)).evRaw.testBit 8 = true
      ∧ ∃ a b, (s.takeExc c r code).prog.flight = s.prog.flight ++ [a, b] ∧ a.kind = 4 ∧ a.err = 0x0784 ∧ a.flow = r.task.flow ∧ a.seq = r.task.seq
          ∧ a.value = BitVec.ofNat 64 (code + r.pc % 2 ^ 20 * 2 ^ 32) ∧ b.kind = 3 ∧ b.flow = r.task.flow ∧ b.seq = r.task.seq)

/-- Branches, calls and returns (R329, R337). A target below zero is left out: no fetch accepts it (log entry 61).
Readings of the model: log entry 19. -/
def Obligations.KwBranchesAndCalls : Prop :=
  (∀ (x : BArgs) (s : State) (r : TaskRun), Ready s x.core (.kBr x) r → r.holds x.g = true → r.rep = false → r.ldepth ≤ 3 →
      0 ≤ (r.pc : Int) + 4 * x.off.toInt → (r.pc : Int) + 4 * x.off.toInt < 2 ^ 32 →
      ∃ t r', exec (.kBr x) s = .next t ∧ OnlyTask s t x.core r' ∧ ClosesLoops r r' ((r.pc : Int) + 4 * x.off.toInt).toNat)
    ∧ (∀ (x : CArgs) (a : Fin 32) (s : State) (r : TaskRun), Ready s x.core (.kJr x a) r → r.holds x.g = true → r.rep = false → r.ldepth ≤ 3 →
        (r.rg a).toNat % 4 = 0 → ∃ t r', exec (.kJr x a) s = .next t ∧ OnlyTask s t x.core r' ∧ ClosesLoops r r' (r.rg a).toNat)
    ∧ (∀ (x : BArgs) (s : State) (r : TaskRun), Ready s x.core (.kCall x) r → r.holds x.g = true → r.rep = false →
        0 ≤ (r.pc : Int) + 4 * x.off.toInt → (r.pc : Int) + 4 * x.off.toInt < 2 ^ 32 → r.rstack.length < 16 ∨ r.rswrap = true →
        ∃ t, exec (.kCall x) s = .next t
          ∧ OnlyTask s t x.core { r with pc := ((r.pc : Int) + 4 * x.off.toInt).toNat, rstack := ((r.pc + 4) :: r.rstack).take 16 })
    ∧ (∀ (x : CArgs) (a : Fin 32) (s : State) (r : TaskRun), Ready s x.core (.kCallr x a) r → r.holds x.g = true → r.rep = false →
        (r.rg a).toNat % 4 = 0 → r.rstack.length < 16 ∨ r.rswrap = true →
        ∃ t, exec (.kCallr x a) s = .next t
          ∧ OnlyTask s t x.core { r with pc := (r.rg a).toNat, rstack := ((r.pc + 4) :: r.rstack).take 16 })
    ∧ ∀ (x : CArgs) (s : State) (r : TaskRun) (p : Nat) (q : List Nat), Ready s x.core (.kRet x) r → r.holds x.g = true → r.rep = false →
        r.rstack = p :: q → ∃ t, exec (.kRet x) s = .next t ∧ OnlyTask s t x.core { r with pc := p, rstack := q }

/-- The return stack (R330): CALL and CALLR push PC + 4 and RET pops; a push onto 16 entries takes STACK_OVERFLOW with RSWRAP = 0 and loses the oldest with RSWRAP = 1; a RET on
the empty stack takes STACK_UNDERFLOW. -/
def Obligations.KwReturnStack : Prop :=
  ((∀ (x : BArgs) (s : State) (r : TaskRun), Ready s x.core (.kCall x) r → r.holds x.g = true → r.rep = false →
      r.rstack.length < 16 ∨ r.rswrap = true →
      ∃ t dest, exec (.kCall x) s = .next t ∧ OnlyTask s t x.core { r with pc := dest, rstack := ((r.pc + 4) :: r.rstack).take 16 })
    ∧ (∀ (x : CArgs) (a : Fin 32) (s : State) (r : TaskRun), Ready s x.core (.kCallr x a) r → r.holds x.g = true → r.rep = false →
        r.rstack.length < 16 ∨ r.rswrap = true → (r.rg a).toNat % 4 = 0 →
        ∃ t dest, exec (.kCallr x a) s = .next t ∧ OnlyTask s t x.core { r with pc := dest, rstack := ((r.pc + 4) :: r.rstack).take 16 })
    ∧ (∀ (x : CArgs) (s : State) (r : TaskRun) (p : Nat) (q : List Nat), Ready s x.core (.kRet x) r → r.holds x.g = true → r.rep = false →
        r.rstack = p :: q → ∃ t, exec (.kRet x) s = .next t ∧ OnlyTask s t x.core { r with pc := p, rstack := q }))
    ∧ (∀ (x : BArgs) (s : State) (r : TaskRun), Ready s x.core (.kCall x) r → r.holds x.g = true → r.rep = false →
        r.rstack.length = 16 → r.rswrap = false → exec (.kCall x) s = .next (s.takeExc x.core.key r Exc.STACK_OVERFLOW))
    ∧ (∀ (x : CArgs) (a : Fin 32) (s : State) (r : TaskRun), Ready s x.core (.kCallr x a) r → r.holds x.g = true → r.rep = false →
        r.rstack.length = 16 → r.rswrap = false → exec (.kCallr x a) s = .next (s.takeExc x.core.key r Exc.STACK_OVERFLOW))
    ∧ ∀ (x : CArgs) (s : State) (r : TaskRun), Ready s x.core (.kRet x) r → r.holds x.g = true → r.rep = false →
        r.rstack = [] → exec (.kRet x) s = .next (s.takeExc x.core.key r Exc.STACK_UNDERFLOW)

/-- LOOP, LOOPI, REP, NOP and END (R328, R331, R337, R339), and how the run goes on after an instruction (R329, R331): under REP the same instruction again until the count is used up; at
the end of the innermost loop back to its start while its count is above 1; else the next word.
Readings of the model: log entries 17, 18, 22. -/
def Obligations.KwLoopsRepeatAndCompletion : Prop :=
  ((∀ (x : CArgs) (s : State) (r : TaskRun) (i : Instr) (count : Word) (off : BitVec 12),
      (∃ a, i = .kLoop x a off ∧ count = r.rg a) ∨ (∃ n, i = .kLoopi x n off ∧ count = n.zeroExtend 32) →
      Ready s x.core i r → r.holds x.g = true → r.rep = false → r.ldepth < 3 → 0 < off.toNat →
      r.pc + 4 * off.toNat < 2 ^ 32 → (r.ldepth = 0 ∨ r.pc + 4 * off.toNat ≤ (r.le.getD (r.ldepth - 1) 0).toNat) → r.ls.length = 3 → r.le.length = 3 → r.lc.length = 3 →
      ∃ t r', exec i s = .next t ∧ OnlyTask s t x.core r'
        ∧ if count = 0 then r' = { r with pc := r.pc + 4 * off.toNat + 4 }
          else r' = { r with pc := r.pc + 4, ldepth := r.ldepth + 1, ls := r'.ls, le := r'.le, lc := r'.lc }
            ∧ (r'.ls.getD r.ldepth 0).toNat = r.pc + 4 ∧ (r'.le.getD r.ldepth 0).toNat = r.pc + 4 * off.toNat ∧ r'.lc.getD r.ldepth 0 = count
            ∧ ∀ m, m ≠ r.ldepth → r'.ls.getD m 0 = r.ls.getD m 0 ∧ r'.le.getD m 0 = r.le.getD m 0 ∧ r'.lc.getD m 0 = r.lc.getD m 0)
    ∧ (∀ (x : CArgs) (n : RepCount) (s : State) (r : TaskRun), Ready s x.core (.kRep x n) r → r.holds x.g = true → r.rep = false →
        (∀ m, m < r.ldepth → (r.le.getD m 0).toNat ≠ r.pc) → n.value r ≤ 65535 →
        ∃ t, exec (.kRep x n) s = .next t
          ∧ OnlyTask s t x.core { r with repcnt := BitVec.ofNat 32 (n.value r), rep := true, pc := r.pc + 4 })
    ∧ (∀ (x : CArgs) (s : State) (r : TaskRun), Ready s x.core (.kNop x) r → r.holds x.g = true →
        ∃ t, exec (.kNop x) s = .next t ∧ OnlyTask s t x.core r.iterate)
    ∧ (∀ (x : CArgs) (s : State) (r : TaskRun), Ready s x.core (.kEnd x) r → r.holds x.g = true → r.rep = false →
        (∀ k, k < r.node.outputs → (KV.get? r.sends k).isSome = true) →
        ∃ t, exec (.kEnd x) s = .next t ∧ (t.core x.core.key).run = none)
    ∧ ∀ (x : CArgs) (s : State) (r : TaskRun) (k : Nat), Ready s x.core (.kEnd x) r → r.holds x.g = true → r.rep = false →
        k < r.node.outputs → KV.get? r.sends k = none → exec (.kEnd x) s = .next (s.takeExc x.core.key r Exc.BOUNDS))
    ∧ (∀ r : TaskRun,
    (r.rep = true → 1 < r.repcnt.toNat → r.iterate = { r with repcnt := r.repcnt - 1 })
    ∧ (r.rep = false → (r.ldepth = 0 ∨ (r.le.getD (r.ldepth - 1) 0).toNat ≠ r.pc) → r.iterate = { r with pc := r.pc + 4 })
    ∧ (r.rep = false → 0 < r.ldepth → (r.le.getD (r.ldepth - 1) 0).toNat = r.pc → 1 < (r.lc.getD (r.ldepth - 1) 0).toNat →
        r.iterate = { r with pc := (r.ls.getD (r.ldepth - 1) 0).toNat, lc := r.lc.set (r.ldepth - 1) (r.lc.getD (r.ldepth - 1) 0 - 1) })
    ∧ (r.rep = false → r.ldepth = 1 → (r.le.getD 0 0).toNat = r.pc → (r.lc.getD 0 0).toNat ≤ 1 →
        r.iterate = { r with pc := r.pc + 4, lc := r.lc.set 0 0, ldepth := 0 }))

/-- MFSR and MTSR (R323, R337). CYCLE is a free value.
Readings of the model: log entries 3, 20. -/
def Obligations.KwSpecialRegisters : Prop :=
  (∀ (x : CArgs) (d : Fin 32) (sr : BitVec 12) (s : State) (r : TaskRun), Ready s x.core (.kMfsr x d sr) r → r.holds x.g = true →
      sr.toNat ≤ 16 → sr.toNat ≠ 14 →
      ∃ t r' v, exec (.kMfsr x d sr) s = .next t ∧ OnlyTask s t x.core r' ∧ WritesG r r' d v ∧ Scalar r r' ∧ r'.flags = r.flags ∧ r'.p = r.p ∧ r'.v = r.v
        ∧ (sr = 0 → v.toNat = r.flags.n.toNat + 2 * r.flags.z.toNat + 4 * r.flags.c.toNat + 8 * r.flags.v.toNat + 16 * r.flags.dz.toNat)
        ∧ (sr = 1 → v.toNat = r.dze.toNat) ∧ (sr = 2 → v = r.repcnt)
        ∧ (∀ m, m < 3 → (sr.toNat = 3 + m → v = r.ls.getD m 0) ∧ (sr.toNat = 6 + m → v = r.le.getD m 0) ∧ (sr.toNat = 9 + m → v = r.lc.getD m 0))
        ∧ (sr = 12 → v = BitVec.ofNat 32 r.ldepth) ∧ (sr = 13 → v = BitVec.ofNat 32 r.rstack.length)
        ∧ (sr = 15 → v.toNat = x.core.core.val + 64 * x.core.quad.ix)
        ∧ (sr = 16 → v = BitVec.ofNat 32 ((r.started + r.stalled + r.node.budgetUs * 1000 - s.now) / 1000)))
    ∧ (∀ (x : CArgs) (d : Fin 32) (s : State) (r : TaskRun), Ready s x.core (.kMfsr x d 14) r → r.holds x.g = true →
        ∃ t r', exec (.kMfsr x d 14) s = .next t ∧ OnlyTask { s with free := s.free + 1 } t x.core r'
          ∧ WritesG r r' d (BitVec.ofNat 32 (Config.freeValue s.free)) ∧ Scalar r r')
    ∧ (∀ (x : CArgs) (a : Fin 32) (sr : BitVec 12) (s : State) (r : TaskRun), Ready s x.core (.kMtsr x a sr) r → r.holds x.g = true →
        sr.toNat ≤ 11 → (r.rep = true → sr.toNat < 2) →
        ∃ t, exec (.kMtsr x a sr) s = .next t ∧ OnlyTask s t x.core (TaskRun.iterate (
          if sr.toNat = 0 then
            { r with flags := ⟨(r.rg a).getLsbD 0, (r.rg a).getLsbD 1, (r.rg a).getLsbD 2, (r.rg a).getLsbD 3, (r.rg a).getLsbD 4⟩ }
          else if sr.toNat = 1 then { r with dze := (r.rg a).getLsbD 0 }
          else if sr.toNat = 2 then { r with repcnt := r.rg a }
          else if sr.toNat ≤ 5 then { r with ls := r.ls.set (sr.toNat - 3) (r.rg a) }
          else if sr.toNat ≤ 8 then { r with le := r.le.set (sr.toNat - 6) (r.rg a) }
          else { r with lc := r.lc.set (sr.toNat - 9) (r.rg a) })))
    ∧ (∀ (x : CArgs) (d : Fin 32) (sr : BitVec 12) (s : State) (r : TaskRun), Ready s x.core (.kMfsr x d sr) r → r.holds x.g = true →
        r.rep = false → 16 < sr.toNat → exec (.kMfsr x d sr) s = .next (s.takeExc x.core.key r Exc.ILLEGAL_OP))
    ∧ ∀ (x : CArgs) (a : Fin 32) (sr : BitVec 12) (s : State) (r : TaskRun), Ready s x.core (.kMtsr x a sr) r → r.holds x.g = true →
        r.rep = false → 11 < sr.toNat → exec (.kMtsr x a sr) s = .next (s.takeExc x.core.key r Exc.ILLEGAL_OP)

/-- The predicate and vector instructions of R338: the predicate, register or lanes that each writes, with everything else of the task as it was; VSUM alone sets flags. PCMP and VCMP
with a condition above 9 and PFLAG with one above 14 take ILLEGAL_OP. -/
def Obligations.KwPredicatesAndVectors : Prop :=
  ((∀ x d a b cond, PredRow (.kPcmp x d a b cond) x.core x.g d fun r p => MaskOf (Holds cond.toNat (r.rg a) (r.rg b)) p)
    ∧ (∀ x d cond, PredRow (.kPflag x d cond) x.core x.g d fun r p => MaskOf (FlagHolds cond.toNat r.flags) p)
    ∧ (∀ x, PredRow (.kPlogAnd x) x.core x.g x.d fun r p => ∀ i, p.getLsbD i = ((r.pg x.a).getLsbD i && (r.pg x.b).getLsbD i))
    ∧ (∀ x, PredRow (.kPlogOr x) x.core x.g x.d fun r p => ∀ i, p.getLsbD i = ((r.pg x.a).getLsbD i || (r.pg x.b).getLsbD i))
    ∧ (∀ x, PredRow (.kPlogXor x) x.core x.g x.d fun r p => ∀ i, p.getLsbD i = ((r.pg x.a).getLsbD i != (r.pg x.b).getLsbD i))
    ∧ (∀ x, PredRow (.kPlogAndn x) x.core x.g x.d fun r p => ∀ i, p.getLsbD i = ((r.pg x.a).getLsbD i && ! (r.pg x.b).getLsbD i))
    ∧ (∀ x, PredRow (.kPlogNot x) x.core x.g x.d fun r p => ∀ i, i < 16 → p.getLsbD i = ! (r.pg x.a).getLsbD i)
    ∧ (∀ x d imm, PredRow (.kPset x d imm) x.core x.g d fun _ p => p = imm)
    ∧ (∀ x d a, PredRow (.kPmov x d a) x.core x.g d fun r p => p = (r.rg a).extractLsb' 0 16)
    ∧ (∀ x d a, GenRow (.kPget x d a) x.core x.g d fun r w => w.toNat = (r.pg a).toNat)
    ∧ (∀ x d a, GenRow (.kPcnt x d a) x.core x.g d fun r w => w.toNat = (List.range 16).countP (r.pg a).getLsbD))
    ∧ ((VecRow .kVadd (fun a b d => d = a + b) ∧ VecRow .kVsub (fun a b d => d = a - b)
    ∧ VecRow .kVmul (fun a b d => d.toNat = a.toNat * b.toNat % 2 ^ 32)
    ∧ VecRow .kVand (fun a b d => d = a &&& b) ∧ VecRow .kVor (fun a b d => d = a ||| b) ∧ VecRow .kVxor (fun a b d => d = a ^^^ b)
    ∧ VecRow .kVshl (fun a b d => d.toNat = a.toNat * 2 ^ b.toNat % 2 ^ 32) ∧ VecRow .kVshr (fun a b d => d.toNat = a.toNat / 2 ^ b.toNat)
    ∧ VecRow .kVsar (fun a b d => d.toInt = a.toInt / 2 ^ b.toNat)
    ∧ VecRow .kVmin (fun a b d => d.toInt = min a.toInt b.toInt) ∧ VecRow .kVmax (fun a b d => d.toInt = max a.toInt b.toInt)
    ∧ VecRow .kVminu (fun a b d => d.toNat = min a.toNat b.toNat) ∧ VecRow .kVmaxu (fun a b d => d.toNat = max a.toNat b.toNat)
    ∧ VecRow .kVmov (fun a _ d => d = a))
    ∧ ((∀ (x : CArgs) (d : Fin 8) (a b : Fin 16) (cond : BitVec 7) (s : State) (r : TaskRun), Ready s x.core (.kVcmp x d a b cond) r → r.mask x.g ≠ 0 →
      ∃ t r' p, exec (.kVcmp x d a b cond) s = .next t ∧ OnlyTask s t x.core r'
        ∧ (∀ l, l < 16 → (p.getLsbD l = true ↔ (r.mask x.g).getLsbD l = true ∧ Holds cond.toNat (r.lane a l) (r.lane b l)))
        ∧ WritesP r r' d p ∧ Scalar r r' ∧ r'.g = r.g ∧ r'.flags = r.flags ∧ r'.v = r.v)
    ∧ (∀ (x : CArgs) (d : Fin 16) (a : Fin 32) (s : State) (r : TaskRun), Ready s x.core (.kVbcast x d a) r → r.mask x.g ≠ 0 →
        ∃ t r', exec (.kVbcast x d a) s = .next t ∧ OnlyTask s t x.core r' ∧ WritesV r r' d (r.mask x.g) (fun _ => r.rg a)
          ∧ Scalar r r' ∧ r'.g = r.g ∧ r'.p = r.p ∧ r'.flags = r.flags)
    ∧ (∀ x d a l, GenRow (.kVext x d a l) x.core x.g d fun r w => w = r.lane a l.val)
    ∧ (∀ (x : CArgs) (d : Fin 16) (a : Fin 32) (n : Fin 16) (s : State) (r : TaskRun), Ready s x.core (.kVins x d a n) r → r.holds x.g = true →
        ∃ t r', exec (.kVins x d a n) s = .next t ∧ OnlyTask s t x.core r' ∧ WritesV r r' d (BitVec.ofNat 16 (2 ^ n.val)) (fun _ => r.rg a)
          ∧ Scalar r r' ∧ r'.g = r.g ∧ r'.p = r.p ∧ r'.flags = r.flags)
    ∧ ∀ (x : CArgs) (d : Fin 32) (a : Fin 16) (s : State) (r : TaskRun), Ready s x.core (.kVsum x d a) r → r.mask x.g ≠ 0 →
        ∃ t r' w, exec (.kVsum x d a) s = .next t ∧ OnlyTask s t x.core r'
          ∧ w.toNat = ((List.range 16).map fun l => if (r.mask x.g).getLsbD l then (r.lane a l).toNat else 0).sum % 2 ^ 32
          ∧ WritesG r r' d w ∧ r'.flags = { r.flags with n := w.msb, z := decide (w = 0) } ∧ Scalar r r' ∧ r'.p = r.p ∧ r'.v = r.v))
    ∧ ∀ (core : CoreId) (w : Word) (s : State) (r : TaskRun), (s.core core.key).run = some r → r.stallAt = none → r.rep = false → r.fetch = some w →
        r.holds ⟨w.msb, Fin.ofNat 8 (w.toNat / 2 ^ 28)⟩ = true →
        (w.toNat / 2 ^ 22 % 64 = 0x30 ∨ w.toNat / 2 ^ 22 % 64 = 0x39) ∧ 9 < w.toNat % 128 ∨ w.toNat / 2 ^ 22 % 64 = 0x31 ∧ 14 < w.toNat % 128 →
        exec (.kUnassigned core w) s = .next (s.takeExc core.key r Exc.ILLEGAL_OP)

/-- The start of a task (R324, R326): the registers of its core, the cleared scratch and the frame region. -/
def Obligations.KwTaskStart : Prop :=
  ∀ (quad : Quad) (tk : Task) (k : Nat) (f : Flow) (p : Prog) (n : Node) (s : State), (s.disp quad.ix).ready = [tk] → tk.prio < 4 → (s.disp quad.ix).cores.last = tk.inst →
    0 < KV.getD 0 (s.disp quad.ix).cores.credit tk.inst → s.pickCore quad.ix tk = some k → s.flow? tk.flow = some f → s.progOf f = some p → s.nodeOf f tk.node = some n →
    (∀ e ∈ (s.disp quad.ix).entries, e.2.fired = true) → f.d.params.length = 64 →
    Yields (.taskDispatch quad) s fun t => ∃ r, (t.core (64 * quad.ix + k)).run = some r ∧ r.task = tk
      ∧ (∀ i : Fin 32, r.rg i = 0) ∧ (∀ i : Fin 8, i ≠ 0 → r.pg i = 0) ∧ (∀ (i : Fin 16) (l : Nat), l < 16 → r.lane i l = 0)
      ∧ r.flags = ⟨false, false, false, false, false⟩ ∧ r.dze = false ∧ r.repcnt = 0 ∧ r.rep = false
      ∧ r.ldepth = 0 ∧ (∀ m, r.ls.getD m 0 = 0 ∧ r.le.getD m 0 = 0 ∧ r.lc.getD m 0 = 0) ∧ r.rstack = []
      ∧ r.pc = n.entry ∧ r.rswrap = s.cfgB (cluPage (64 * quad.ix + k)) Fd.CLU_CORECFG_RSWRAP
      ∧ (∀ a, a < 0x3C000 → r.scratch.read a = 0)
      ∧ (∀ j, j < 4 → r.scratch.readBytes (0x3C000 + 32 * j) 32 = match r.inputs.getD j none with | some y => tokenBytes y | none => zeros 32)
      ∧ r.scratch.readBytes 0x3C080 64 = f.d.params ∧ leNat (r.scratch.readBytes 0x3C0C0 5) = tk.seq % 2 ^ 40
      ∧ leNat (r.scratch.readBytes 0x3C0C5 4) = tk.node % 256 + 256 * (tk.inst % 256) + 65536 * (tk.attempt % 256) + 16777216 * (n.outputs % 256)
      ∧ leNat (r.scratch.readBytes 0x3C0CA 4) = tk.flow % 65536 + 65536 * (f.gen % 65536)
      ∧ leNat (r.scratch.readBytes 0x3C0D0 4) = n.scratchKib * 1024 % 2 ^ 32 ∧ leNat (r.scratch.readBytes 0x3C0D4 4) = n.budgetUs % 2 ^ 32
      ∧ ∀ a, a ∈ [0x3C0C9, 0x3C0CE, 0x3C0CF] ∨ 0x3C0D8 ≤ a ∧ a < 0x3C100 → r.scratch.read a = 0

/-- The sends of R339: what each holds for its arc until END, with everything else of the task as it was; BALLOC, BREL and the L2 hints (R339 to R341).
Readings of the model: log entries 14, 21, 22. -/
def Obligations.KwSendsBuffersAndHints : Prop :=
  ((∀ (x : CArgs) (arc : Fin 4) (a : Fin 32) (s : State) (r : TaskRun), Ready s x.core (.kSendv x arc a) r → r.holds x.g = true →
      (r.rg a).toNat % 16 = 0 → (r.rg a).toNat + 16 ≤ r.node.scratchKib * 1024 → arc.val < r.node.outputs → KV.get? r.sends arc.val = none →
      ∃ t tok, exec (.kSendv x arc a) s = .next t ∧ OnlyTask s t x.core (TaskRun.iterate { r with sends := KV.put r.sends arc.val tok })
        ∧ tok.kind = 2 ∧ tok.buf = false ∧ tok.flow = r.task.flow ∧ tok.seq = r.task.seq ∧ tok.node = r.task.node ∧ tok.port = r.node.arcs.getD arc.val 0
        ∧ tok.value.toNat = leNat (r.scratch.readBytes (r.rg a).toNat 8) ∧ tok.aux.toNat = leNat (r.scratch.readBytes ((r.rg a).toNat + 8) 8))
    ∧ (∀ (x : CArgs) (arc : Fin 4) (a b : Fin 32) (s : State) (r : TaskRun) (sl : Slot), Ready s x.core (.kSendb x arc a b) r → r.holds x.g = true →
        (r.rg a).toNat < 8 → KV.get? r.slots (r.rg a).toNat = some sl → sl.live = true → (r.rg b).toNat ≤ sl.extent →
        arc.val < r.node.outputs → KV.get? r.sends arc.val = none →
        ∃ t tok, exec (.kSendb x arc a b) s = .next t
          ∧ OnlyTask s t x.core (TaskRun.iterate { r with
              sends := KV.put r.sends arc.val tok, slots := KV.adjust r.slots (r.rg a).toNat fun y => { y with sends := y.sends + 1 },
              incs := if sl.sends = 0 then r.incs else r.incs ++ [sl.handle] })
          ∧ tok.kind = 2 ∧ tok.buf = true ∧ tok.flow = r.task.flow ∧ tok.seq = r.task.seq ∧ tok.value = BitVec.ofNat 64 sl.handle ∧ tok.aux.toNat = (r.rg b).toNat)
    ∧ (∀ (x : CArgs) (arc : Fin 4) (a b : Fin 32) (s : State) (r : TaskRun) (y : Token), Ready s x.core (.kSendb x arc a b) r → r.holds x.g = true →
        8 ≤ (r.rg a).toNat → (r.rg a).toNat < 12 → r.inputs[(r.rg a).toNat - 8]? = some (some y) → y.buf = true →
        r.inLive.getD ((r.rg a).toNat - 8) false = true → (r.rg b).toNat ≤ y.aux.toNat % 2 ^ 32 →
        arc.val < r.node.outputs → KV.get? r.sends arc.val = none →
        ∃ t tok, exec (.kSendb x arc a b) s = .next t
          ∧ OnlyTask s t x.core (TaskRun.iterate { r with sends := KV.put r.sends arc.val tok, incs := r.incs ++ [y.value.toNat % 2 ^ 41] })
          ∧ tok.kind = 2 ∧ tok.buf = true ∧ tok.value.toNat = y.value.toNat % 2 ^ 41 ∧ tok.aux.toNat = (r.rg b).toNat)
    ∧ (∀ (x : CArgs) (arc : Fin 4) (s : State) (r : TaskRun), Ready s x.core (.kSendn x arc) r → r.holds x.g = true →
        arc.val < r.node.outputs → KV.get? r.sends arc.val = none →
        ∃ t tok, exec (.kSendn x arc) s = .next t ∧ OnlyTask s t x.core (TaskRun.iterate { r with sends := KV.put r.sends arc.val tok })
          ∧ tok.kind = 3 ∧ tok.flow = r.task.flow ∧ tok.seq = r.task.seq)
    ∧ (∀ (x : CArgs) (a : Fin 32) (s : State) (r : TaskRun), Ready s x.core (.kSendh x a) r → r.holds x.g = true →
        (r.rg a).toNat % 8 = 0 → (r.rg a).toNat + 8 ≤ r.node.scratchKib * 1024 → r.hints.length < 16 →
        ∃ t, exec (.kSendh x a) s = .next t
          ∧ OnlyTask s t x.core (TaskRun.iterate { r with hints := leNat (r.scratch.readBytes (r.rg a).toNat 8) :: r.hints }))
    ∧ ∀ (x : CArgs) (arc : Fin 4) (s : State) (r : TaskRun), Ready s x.core (.kSendn x arc) r → r.holds x.g = true →
        r.node.outputs ≤ arc.val ∨ (KV.get? r.sends arc.val).isSome = true → exec (.kSendn x arc) s = .next (s.takeExc x.core.key r Exc.BOUNDS))
    ∧ ((∀ (x : CArgs) (d a : Fin 32) (s s' : State) (r : TaskRun) (j h : Nat), Ready s x.core (.kBalloc x d a) r → r.holds x.g = true →
      1 ≤ (r.rg a).toNat → (r.rg a).toNat ≤ 2 ^ 20 → j < 8 → KV.get? r.slots j = none → (∀ k, k < j → (KV.get? r.slots k).isSome = true) →
      s.bufAlloc x.core.quad.ix r.task.inst 4 (r.rg a).toNat = some (h, s') →
      ∃ t r', exec (.kBalloc x d a) s = .next t ∧ OnlyTask s' t x.core r' ∧ WritesG r r' d (BitVec.ofNat 32 j)
        ∧ (∀ k, KV.get? r'.slots k = if k = j then some ⟨h, (r.rg a).toNat, 0, true⟩ else KV.get? r.slots k)
        ∧ Completes r r' ∧ KeepsRest r { r' with slots := r.slots } ∧ r'.flags = r.flags ∧ r'.p = r.p ∧ r'.v = r.v ∧ r'.scratch = r.scratch)
    ∧ (∀ (x : CArgs) (a : Fin 32) (s : State) (r : TaskRun) (sl : Slot), Ready s x.core (.kBrel x a) r → r.holds x.g = true →
        (r.rg a).toNat < 8 → KV.get? r.slots (r.rg a).toNat = some sl → sl.live = true → sl.sends = 0 →
        ∃ t, exec (.kBrel x a) s = .next t
          ∧ OnlyTask s t x.core (TaskRun.iterate { r with slots := KV.del r.slots (r.rg a).toNat, decs := r.decs ++ [sl.handle] }))
    ∧ (∀ (x : CArgs) (a : Fin 32) (s : State) (r : TaskRun) (y : Token), Ready s x.core (.kBrel x a) r → r.holds x.g = true →
        8 ≤ (r.rg a).toNat → (r.rg a).toNat < 12 → r.inputs[(r.rg a).toNat - 8]? = some (some y) → y.buf = true →
        r.inLive.getD ((r.rg a).toNat - 8) false = true →
        ∃ t, exec (.kBrel x a) s = .next t ∧ OnlyTask s t x.core (TaskRun.iterate { r with inLive := r.inLive.set ((r.rg a).toNat - 8) false }))
    ∧ (∀ (x : CArgs) (a b : Fin 32) (s : State) (r : TaskRun) (mk : CArgs → Fin 32 → Fin 32 → Instr), mk ∈ [Instr.kL2pf, .kL2rel, .kL2wb] →
        Ready s x.core (mk x a b) r → r.holds x.g = true → (r.rg b).toNat = 0 ∨ 64 < (r.rg b).toNat →
        ∃ t, exec (mk x a b) s = .next t ∧ OnlyTask (s.bump (cluPage x.core.key) Fd.CLU_CNT_COUNT 7) t x.core r.iterate)
    ∧ ∀ (x : CArgs) (a b : Fin 32) (s : State) (r : TaskRun) (mk : CArgs → Fin 32 → Fin 32 → Instr) (l : List Nat), mk ∈ [Instr.kL2pf, .kL2rel, .kL2wb] →
        Ready s x.core (mk x a b) r → r.holds x.g = true → r.hintLines (r.rg a).toNat (r.rg b).toNat = some l →
        ∃ t, exec (mk x a b) s = .next t ∧ (t.core x.core.key).run = some r.iterate ∧ (∀ k, k ≠ x.core.key → t.core k = s.core k)
          ∧ t.buf = s.buf ∧ t.prog = s.prog ∧ t.map = s.map)

/-- An instruction whose guard fails has no effect but its completion (R327); REP is apart, for it skips two words. REP before an instruction that it may not repeat takes ILLEGAL_PREFIX, whatever that instruction's guard (R332); so does a
count above 65,535 and a REP at the end of an open loop (R328, R331). A word that breaks the rules of R333 takes ILLEGAL_OP.
Readings of the model: log entries 15, 17. -/
def Obligations.KwGuardsAndIllegalWords : Prop :=
  ((∀ (i : Instr) (core : CoreId) (g : Guard) (vec : Bool) (s : State) (r : TaskRun), kwGuard i = some (core, g, vec) →
      (∀ x n, i ≠ .kRep x n) → (if vec then r.mask g = 0 else r.holds g = false) → (r.rep = true → kwNoRep i = false) → Ready s core i r →
      ∃ t, exec i s = .next t ∧ OnlyTask s t core r.iterate)
    ∧ ∀ (x : CArgs) (n : RepCount) (s : State) (r : TaskRun), Ready s x.core (.kRep x n) r → r.holds x.g = false → r.rep = false →
        (r.ldepth = 0 ∨ (r.le.getD (r.ldepth - 1) 0).toNat ≠ r.pc + 4) →
        ∃ t, exec (.kRep x n) s = .next t ∧ OnlyTask s t x.core { r with pc := r.pc + 8 })
    ∧ ((∀ (i : Instr) (core : CoreId) (g : Guard) (s : State) (r : TaskRun), kwGuard i = some (core, g, false) → kwNoRep i = true → r.rep = true →
      Ready s core i r →
      exec i s = .next (s.takeExc core.key { r with pc := r.pc - 4 } Exc.ILLEGAL_PREFIX))
    ∧ (∀ (x : CArgs) (n : RepCount) (s : State) (r : TaskRun), Ready s x.core (.kRep x n) r → r.holds x.g = true → r.rep = false →
        65535 < n.value r ∨ (∃ m, m < r.ldepth ∧ (r.le.getD m 0).toNat = r.pc) →
        exec (.kRep x n) s = .next (s.takeExc x.core.key r Exc.ILLEGAL_PREFIX))
    ∧ ∀ (core : CoreId) (w : Word) (s : State) (r : TaskRun), (s.core core.key).run = some r → r.stallAt = none → r.fetch = some w →
        kwCanon w = none → r.holds ⟨w.msb, Fin.ofNat 8 (w.toNat / 2 ^ 28)⟩ = true → r.rep = false →
        ∃ t, exec (.kUnassigned core w) s = .next t ∧ t = s.takeExc core.key r Exc.ILLEGAL_OP)

/-- Decoding and encoding agree (R333 to R339): each word that the rules accept, with its unused bits cleared, is the word of
exactly one well-formed instruction of a core, and the word of each is accepted as it stands.
Readings of the model: log entry 15. -/
def Obligations.KwEveryAcceptedWordIsOneInstruction : Prop :=
  (∀ (core : CoreId) (w v : Word), kwCanon w = some v →
      ∃ i, i.wf = true ∧ (∃ g b, kwGuard i = some (core, g, b)) ∧ kwEncode i = some v
        ∧ ∀ j, j.wf = true → (∃ g b, kwGuard j = some (core, g, b)) → kwEncode j = some v → j = i)
    ∧ ∀ (i : Instr) (v : Word), i.wf = true → (kwGuard i).isSome = true → kwEncode i = some v → kwCanon v = some v

/-- What every Kwalia command, the dispatch of a task and the watchdog keep, from every state and not only from those that a run reaches (R322 to R330, R340): three loops at most, a return stack of 16 at most, loop registers for
three levels, registers and scratch in their canonical form, held sends on the node's own arcs alone, 16 hints at most. -/
def Obligations.KwStepsKeepTasksWellFormed : Prop :=
  ∀ (i : Instr) (rest : List Instr) (s t : State), s.pending = i :: rest →
    ((kwGuard i).isSome = true ∨ (∃ core w, i = .kUnassigned core w) ∨ (∃ q, i = .taskDispatch q) ∨ ∃ core, i = .taskWatchdogExpiry core) →
    KwTasksWellFormed s → step s = .next t → KwTasksWellFormed t

/-- The state after reset, as manufactured: OFF, no command waiting, every register field at the Start value of its register map, only instance 0 enabled with share 4,096, no network rule, no namespace, nothing fenced, an empty log, 1,376,256 spare blocks, and no
task on a core.
Readings of the model: log entry 2. -/
def Obligations.ResetIsAsManufactured : Prop :=
  State.reset.mode.mode = .off ∧ State.reset.pending = [] ∧ (∀ pg f k, State.reset.cfgAt pg f k = f.start)
    ∧ (∀ i, State.reset.enabled i = decide (i = 0) ∧ State.reset.share i = if i = 0 then 4096 else 0)
    ∧ State.reset.net.rules = [] ∧ State.reset.media.nss = [] ∧ State.reset.fence = .empty ∧ State.reset.log.entries = []
    ∧ State.reset.sparesS = 1376256 ∧ KwTasksWellFormed State.reset
/-! ## The control space -/

/-- RW fields (R40): a write by a path that reaches the word changes exactly the bits of its RW fields, at once; a write that changes
an RO field's value records WRITE_RO and leaves it. No other word changes.
Readings of the model: log entry 28. -/
def Obligations.RegisterWriteChangesRwFields : Prop :=
  ∀ (path : Path) (addr : BitVec 26) (v : Word) (s : State),
    addr.toNat % 4 = 0 → 0x40 ≤ addr.toNat % 4096 → (0x400 ≤ addr.toNat % 4096 → hasCap (addr.toNat / 4096) 1 = true) →
    Reached s path (addr.toNat / 4096) (addr.toNat % 4096) → NoAction (addr.toNat / 4096) (addr.toNat % 4096) →
    pageType (addr.toNat / 4096) ≠ PT.TEST → pageType (addr.toNat / 4096) ≠ PT.INST →
    RegMap.any (pageType (addr.toNat / 4096)) (addr.toNat % 4096) (·.acc = .rw) = true →
    RegMap.any (pageType (addr.toNat / 4096)) (addr.toNat % 4096) (·.acc = .rws) = false →
    Yields (.registerWrite path addr v) s fun t =>
      OnlyCtl (s.tickPage (addr.toNat / 4096)) t
        ∧ (∀ i, i < 32 → (t.live addr.toNat).testBit i =
            if bitOf (pageType (addr.toNat / 4096)) (addr.toNat % 4096) .rw i then v.getLsbD i
            else ((s.tickPage (addr.toNat / 4096)).live addr.toNat).testBit i)
        ∧ (∀ a, a ≠ addr.toNat → t.live a = (s.tickPage (addr.toNat / 4096)).live a)
        ∧ ((s.tickPage (addr.toNat / 4096)).roDiffers (addr.toNat / 4096) (addr.toNat % 4096) v.toNat = true →
            ErrorRecorded (s.tickPage (addr.toNat / 4096)) t (addr.toNat / 4096) 1 (errInfo path (addr.toNat % 4096)))

/-- Staged fields (R41): the first path to write owns the image, the image shows what it wrote, the live words stay; a path that does not
own a differing image is refused with STAGE_OWNED. ABORT reloads the image, FACTORY is a staged write, and 60 s after the owner's last
write the image is reloaded.
Readings of the model: log entries 25, 26, 28. -/
def Obligations.StagingImage : Prop :=
  (∀ (path : Path) (addr : BitVec 26) (v : Word) (s : State),
      addr.toNat % 4 = 0 → 0x40 ≤ addr.toNat % 4096 → (0x400 ≤ addr.toNat % 4096 → hasCap (addr.toNat / 4096) 1 = true) →
      Reached s path (addr.toNat / 4096) (addr.toNat % 4096) → NoAction (addr.toNat / 4096) (addr.toNat % 4096) →
      RegMap.any (pageType (addr.toNat / 4096)) (addr.toNat % 4096) (·.acc = .rw) = false →
      RegMap.any (pageType (addr.toNat / 4096)) (addr.toNat % 4096) (·.acc = .rws) = true →
      window (pageType (addr.toNat / 4096)) = none →
      Yields (.stagedWrite path addr v) s fun t =>
        OnlyPage (s.tickPage (addr.toNat / 4096)) t (addr.toNat / 4096)
          ∧ if (s.tickPage (addr.toNat / 4096)).mayStage path (addr.toNat / 4096) then
              (t.page (addr.toNat / 4096)).owner = path.num ∧ (t.page (addr.toNat / 4096)).ownerAt = s.now
                ∧ t.imageWord (addr.toNat / 4096) (addr.toNat % 4096)
                    = RegMap.only (pageType (addr.toNat / 4096)) (addr.toNat % 4096) (· = .rws) v.toNat
                ∧ ∀ o, o ≠ addr.toNat % 4096 → t.imageWord (addr.toNat / 4096) o = (s.tickPage (addr.toNat / 4096)).imageWord (addr.toNat / 4096) o
            else (t.page (addr.toNat / 4096)).staged = ((s.tickPage (addr.toNat / 4096)).page (addr.toNat / 4096)).staged
                ∧ (t.page (addr.toNat / 4096)).owner = ((s.tickPage (addr.toNat / 4096)).page (addr.toNat / 4096)).owner
                ∧ (((s.tickPage (addr.toNat / 4096)).page (addr.toNat / 4096)).errCode = 0 →
                    (t.page (addr.toNat / 4096)).errCode = 3 ∧ (t.page (addr.toNat / 4096)).errInfo = errInfo path (addr.toNat % 4096)))
    ∧ (∀ (path : Path) (page : PageNo) (s : State), Reached s path page.val 0x0C →
        Yields (.pageCtrlAbort path page) s fun t =>
          OnlyPage (s.tickPage page.val) t page.val ∧ (t.page page.val).owner = 0 ∧ ∀ o, t.imageWord page.val o = t.liveRws page.val o)
    ∧ (∀ (path : Path) (page : PageNo) (s : State), Reached s path page.val 0x0C → (s.tickPage page.val).mayStage path page.val = true →
        Yields (.pageCtrlFactory path page) s fun t =>
          OnlyPage (s.tickPage page.val) t page.val ∧ (t.page page.val).owner = path.num ∧ (t.page page.val).factoryStaged = true)
    ∧ ∀ (page : PageNo) (s : State), (s.page page.val).owner ≠ 0 →
        Yields (.stagingOwnerTimeout page) s fun t =>
          OnlyPage { s with now := max s.now ((s.page page.val).ownerAt + 60000000000) } t page.val ∧ (t.page page.val).owner = 0
            ∧ ∀ o, t.imageWord page.val o = t.liveRws page.val o

/-- COMMIT (R42, R43): it snapshots what is staged and shows BUSY with every live value as it was; while BUSY it is ignored and
COMMIT_BUSY recorded. At its end a rejected set changes no live value and no staged word, and an accepted one makes its words live; either
way COMMIT_STATUS counts it, BUSY clears and event bit 0 or 1 is set.
Readings of the model: log entry 25. -/
def Obligations.CommitIsAllOrNothing : Prop :=
  (∀ (path : Path) (page : PageNo) (s : State), Reached s path page.val 0x14 → hasCap page.val 0 = true → page.val ≠ Pg.SEC →
      ((s.tickPage page.val).page page.val).job = none →
      Yields (.commit path page) s fun t =>
        OnlyPage (s.tickPage page.val) t page.val ∧ ((s.page page.val).reason < 256 → (s.page page.val).rule < 256 → (t.commitStatus page.val).testBit 31 = true)
          ∧ (t.page page.val).staged = ((s.tickPage page.val).page page.val).staged
          ∧ ∃ j, (t.page page.val).job = some j ∧ j.snap = (s.tickPage page.val).imageDiff page.val)
    ∧ (∀ (path : Path) (page : PageNo) (s : State), Reached s path page.val 0x14 → hasCap page.val 0 = true →
        ((s.tickPage page.val).page page.val).job.isSome = true →
        Yields (.commit path page) s fun t =>
          OnlyPage (s.tickPage page.val) t page.val ∧ (t.page page.val).job = ((s.tickPage page.val).page page.val).job
            ∧ ErrorRecorded (s.tickPage page.val) t page.val 4 (errInfo path 0x14))
    ∧ (∀ (page : PageNo) (ecc : Bool) (s : State) (j : CommitJob) (reason rule : Nat), (s.page page.val).job = some j → j.waiter = .nobody →
        s.commitReason page.val j.snap ecc = (reason, rule) → reason ≠ 0 → reason ≠ 8 → reason ≠ 6 →
        Yields (.commitDone page ecc) s fun t =>
          OnlyPage s t page.val ∧ (t.page page.val).job = none ∧ (t.page page.val).reason = reason ∧ (t.page page.val).rule = rule
            ∧ (t.page page.val).ok = false ∧ (t.page page.val).commits = (s.page page.val).commits + 1
            ∧ (t.page page.val).staged = (s.page page.val).staged ∧ (t.page page.val).evRaw.testBit 1 = true)
    ∧ ∀ (page : PageNo) (ecc : Bool) (s : State) (j : CommitJob) (reason rule : Nat), (s.page page.val).job = some j → j.waiter = .nobody →
        s.commitReason page.val j.snap ecc = (reason, rule) → reason = 0 ∨ reason = 8 →
        pageType page.val ∉ [PT.MODE, PT.NET, PT.DEV, PT.CLK, PT.NETX, PT.CLS, PT.INSTM, PT.MEDIA, PT.MAPC, PT.CLU] →
        KV.risingFrom 0 j.snap = true →
        Yields (.commitDone page ecc) s fun t =>
          OnlyCtl s t ∧ (t.page page.val).job = none ∧ (t.page page.val).reason = reason ∧ (t.page page.val).ok = true
            ∧ (t.page page.val).commits = (s.page page.val).commits + 1 ∧ (t.page page.val).evRaw.testBit 0 = true
            ∧ (∀ off w, KV.get? j.snap off = some w →
                t.live (page.val * 4096 + off) = RegMap.merge (pageType page.val) off (· = .rws) (s.live (page.val * 4096 + off)) w)
            ∧ ∀ a, (∀ off w, KV.get? j.snap off = some w → a ≠ page.val * 4096 + off) → t.live a = s.live a

/-- The unlock of an expert region (R44, R45): the first word arms, its complement within 1 s opens the region to the path for 10 s, any other
word records EXPERT_LOCKED with event bit 3, and the fourth failure within 60 s locks the page out for 60 s; while locked out every write
fails. At the expiry the region closes and its staged words are dropped; the lock-out ends.
Readings of the model: log entry 28. -/
def Obligations.ExpertUnlock : Prop :=
  (∀ (path : Path) (page : PageNo) (s : State), path = .mp ∨ path = .manager → Reached s path page.val 0x1C → hasCap page.val 1 = true →
      ((s.tickPage page.val).page page.val).lockUntil = none →
      (∀ v : Word, v.toNat = 0x5EA50000 + page.val * 4096 % 65536 →
        Yields (.expertKeyWrite path page v) s fun t =>
          OnlyPage (s.tickPage page.val) t page.val ∧ ((t.page page.val).unlock path).armed = some s.now
            ∧ t.expertOpen path page.val = (s.tickPage page.val).expertOpen path page.val)
      ∧ (∀ (v : Word) (a : Nat), v.toNat = 0xFFFFFFFF - (0x5EA50000 + page.val * 4096 % 65536) →
          (((s.tickPage page.val).page page.val).unlock path).armed = some a → s.now - a ≤ 1000000000 →
          Yields (.expertKeyWrite path page v) s fun t =>
            OnlyPage (s.tickPage page.val) t page.val ∧ ((t.page page.val).unlock path).openUntil = some (s.now + 10000000000)
              ∧ ((t.page page.val).unlock path).armed = none ∧ (t.page page.val).evRaw.testBit 2 = true)
      ∧ (∀ v : Word, v.toNat ≠ 0x5EA50000 + page.val * 4096 % 65536 → v.toNat ≠ 0xFFFFFFFF - (0x5EA50000 + page.val * 4096 % 65536) →
          (((s.tickPage page.val).page page.val).mp.fails ++ ((s.tickPage page.val).page page.val).mgr.fails).length < 3 →
          Yields (.expertKeyWrite path page v) s fun t =>
            OnlyPage (s.tickPage page.val) t page.val ∧ (t.page page.val).evRaw.testBit 3 = true ∧ (t.page page.val).lockUntil = none
              ∧ (((s.tickPage page.val).page page.val).errCode = 0 → (t.page page.val).errCode = 5))
      ∧ (∀ v : Word, v.toNat ≠ 0x5EA50000 + page.val * 4096 % 65536 → v.toNat ≠ 0xFFFFFFFF - (0x5EA50000 + page.val * 4096 % 65536) →
          3 ≤ ((((s.tickPage page.val).page page.val).mp.fails ++ ((s.tickPage page.val).page page.val).mgr.fails).filter
            fun a => decide (s.now - a < 60000000000)).length →
          Yields (.expertKeyWrite path page v) s fun t => (t.page page.val).lockUntil = some (s.now + 60000000000)))
    ∧ (∀ (path : Path) (page : PageNo) (v : Word) (s : State), path = .mp ∨ path = .manager → Reached s path page.val 0x1C →
        hasCap page.val 1 = true → ((s.tickPage page.val).page page.val).lockUntil.isSome = true →
        Yields (.expertKeyWrite path page v) s fun t =>
          OnlyPage (s.tickPage page.val) t page.val ∧ (t.page page.val).mp = ((s.tickPage page.val).page page.val).mp
            ∧ (t.page page.val).mgr = ((s.tickPage page.val).page page.val).mgr ∧ ErrorRecorded (s.tickPage page.val) t page.val 5 (errInfo path 0x1C))
    ∧ (∀ (path : Path) (page : PageNo) (s : State) (d : Nat), path = .mp ∨ path = .manager → page.val ≠ Pg.SEC →
        ((s.page page.val).unlock path).openUntil = some d →
        Yields (.expertRegionExpiry path page) s fun t =>
          OnlyPage { s with now := max s.now d } t page.val ∧ t.expertOpen path page.val = false
            ∧ ((s.page page.val).owner = path.num → (∃ o w, (o, w) ∈ (s.page page.val).staged ∧ 0x400 ≤ o) →
                (t.page page.val).expired = true ∧ ∀ e ∈ (t.page page.val).staged, e.1 < 0x400))
    ∧ ∀ (page : PageNo) (s : State) (d : Nat), (s.page page.val).lockUntil = some d →
        Yields (.keyLockoutEnd page) s fun t => OnlyPage { s with now := max s.now d } t page.val ∧ (t.page page.val).lockUntil = none

/-- Page events (R34): EV_SET sets the written edge bits and EV_CLR clears the written bits; bit 6 of EV_CLR clears the recorded error. -/
def Obligations.EventSetAndClear : Prop :=
  (∀ (path : Path) (page : PageNo) (v : Word) (s : State), Reached s path page.val 0x2C →
      Yields (.evSetWrite path page v) s fun t =>
        OnlyPage (s.tickPage page.val) t page.val
          ∧ ∀ i, (t.page page.val).evRaw.testBit i = (((s.tickPage page.val).page page.val).evRaw.testBit i
              || (v.getLsbD i && ! ((s.tickPage page.val).levelBits page.val).contains i)))
    ∧ ∀ (path : Path) (page : PageNo) (v : Word) (s : State), Reached s path page.val 0x30 →
        Yields (.evClrWrite path page v) s fun t =>
          OnlyPage (s.tickPage page.val) t page.val
            ∧ (∀ i, (t.page page.val).evRaw.testBit i = (((s.tickPage page.val).page page.val).evRaw.testBit i && ! v.getLsbD i))
            ∧ (v.getLsbD 6 = true → (t.page page.val).errCode = 0 ∧ (t.page page.val).errInfo = 0)
            ∧ (v.getLsbD 6 = false → (t.page page.val).errCode = ((s.tickPage page.val).page page.val).errCode)

/-- Reads and writes through the admin queue (R30, R31, R37, R120): DEV.TIME_LO latches the high half of the time for its path; a Control
Read sends the words and completes; a Control Write stores its words and completes, and either is refused with Invalid Field where its words do
not lie in one page.
Readings of the model: log entries 27, 30. -/
def Obligations.ControlReadAndWrite : Prop :=
  (∀ (path : Path) (s : State), Reached s path Pg.DEV Fd.DEV_TIME_LO_NS.off →
      Yields (.timeLoRead path) s fun t =>
        OnlyCtl (s.tickPage Pg.DEV) t ∧ t.ctl.regs = (s.tickPage Pg.DEV).ctl.regs ∧ t.ctl.pages = (s.tickPage Pg.DEV).ctl.pages
          ∧ KV.get? t.ctl.latch path.num = some (s.timeNs / 2 ^ 32 % 2 ^ 32)
          ∧ ∀ n, n ≠ path.num → KV.get? t.ctl.latch n = KV.get? (s.tickPage Pg.DEV).ctl.latch n)
    ∧ (∀ (cap : Cap) (addr : BitVec 26) (n : BitVec 11) (s : State) (k : Ctrl), AdminOk s cap k →
        accessOk (adminPath k.inst) addr (adminAddr k.inst addr).1 (adminAddr k.inst addr).2 n.toNat = true →
        Yields (.controlRead cap addr n) s fun t => OnlyCompletion s t ∧
          ∃ rest, t.out = .completion cap.ctrl 0 cap.cid ⟨0, 0, false⟩ 0 0
            :: .data cap.ctrl 0 cap.cid ((((s.charged cap k).tickPage (adminAddr k.inst addr).1).readWords (adminPath k.inst)
                (adminAddr k.inst addr).1 (adminAddr k.inst addr).2 n.toNat).1.flatMap fun v => leBytes 4 v) :: rest)
    ∧ (∀ (cap : Cap) (addr : BitVec 26) (n : BitVec 11) (s : State) (k : Ctrl), AdminOk s cap k →
        accessOk (adminPath k.inst) addr (adminAddr k.inst addr).1 (adminAddr k.inst addr).2 n.toNat = false →
        Yields (.controlRead cap addr n) s fun t => OnlyCompletion s t ∧ Completed t cap ⟨0, 0x02, true⟩ 0 ∧ ∀ b, .data cap.ctrl 0 cap.cid b ∈ t.out → .data cap.ctrl 0 cap.cid b ∈ s.out)
    ∧ ∀ (cap : Cap) (addr : BitVec 26) (n : BitVec 11) (ws : List Word) (s : State) (k : Ctrl) (pg off : Nat) (u : State), AdminOk s cap k →
        (pg, off) = adminAddr k.inst addr → u = (s.charged cap k).tickPage pg →
        accessOk (adminPath k.inst) addr pg off n.toNat = true → ws.length = n.toNat → u.unitState pg = 0 →
        (∀ o, inExpert pg o = true → u.expertOpen (adminPath k.inst) pg = true) →
        u.stagedRefused (adminPath k.inst) pg off (ws.map BitVec.toNat) = none → pg ≠ Pg.MODE → (0x14 < off ∨ off + 4 * n.toNat ≤ 0x14) →
        Yields (.controlWrite cap addr n ws false) s fun t =>
          Completed t cap ⟨0, 0, false⟩ 0
            ∧ ∀ a, a / 4096 ≠ Pg.CMD →
              t.live a = (u.putWords (adminPath k.inst) pg off (.ctx s.cmd.nextCtx) (ws.map BitVec.toNat)).live a

/-- Register words' protection (R51, R52): a corrected word sets event bit 4 of its page and an uncorrectable one bit 5, a kept field of a word
restored takes the value of the page's newest record, and a word that fails again records error 6.
Readings of the model: log entries 31, 32. -/
def Obligations.RegisterProtection : Prop :=
  (∀ (cs us : List (BitVec 26)) (s : State),
      Yields (.registerScrub cs us) s fun t =>
        (∀ a ∈ cs, s.scrubbed a = true → (t.page (a.toNat / 4096)).evRaw.testBit 4 = true)
          ∧ (∀ a ∈ us, s.scrubbed a = true → (t.page (a.toNat / 4096)).evRaw.testBit 5 = true)
          ∧ t.mode = s.mode ∧ t.media = s.media ∧ t.map = s.map ∧ t.fence = s.fence)
    ∧ (∀ (a : BitVec 26) (s : State), s.scrubbed a = true → a.toNat % 4096 ≠ 0x0C → a.toNat % 4096 ≠ 0x24 →
        RegMap.anyKept (pageType (a.toNat / 4096)) (a.toNat % 4096) = true →
        (∀ r, newestRec (s.mode.copyA.read [] (a.toNat / 4096)) (s.mode.copyB.read [] (a.toNat / 4096)) = some r → ∃ l, r.body = .page l) →
        Yields (.registerWordRestored a true) s fun t =>
          OnlyCtl s t ∧ t.ctl.pages = s.ctl.pages ∧ (∀ b, b ≠ a.toNat → t.live b = s.live b)
            ∧ t.live a.toNat = RegMap.keptMerge (pageType (a.toNat / 4096)) (a.toNat % 4096) (s.live a.toNat)
                (match newestRec (s.mode.copyA.read [] (a.toNat / 4096)) (s.mode.copyB.read [] (a.toNat / 4096)) with
                 | some ⟨_, _, .page l⟩ => (KV.get? l (a.toNat % 4096)).getD (RegMap.startWord (pageType (a.toNat / 4096)) (a.toNat % 4096))
                 | _ => RegMap.startWord (pageType (a.toNat / 4096)) (a.toNat % 4096)))
    ∧ ∀ (a : BitVec 26) (s : State), s.scrubbed a = true → (s.page (a.toNat / 4096)).errCode = 0 → (s.page (a.toNat / 4096)).uncorr = [] →
        Yields (.registerWordRestored a false) s fun t =>
          (t.page (a.toNat / 4096)).errCode = 6 ∧ (t.page (a.toNat / 4096)).errInfo = a.toNat % 4096 ∧ t.mode = s.mode ∧ t.fence = s.fence

/-- The store of retained settings (R48, R67, R68, R462): a save writes the page's kept words with the next sequence number into an open copy and
the newest record is that one; a compaction keeps every record; a copy is formatted again with the other's records.
Readings of the model: log entry 33. -/
def Obligations.RetainedSettingsStore : Prop :=
  (∀ (page : PageNo) (s : State), (s.page page.val).saveDue.isSome = true → s.mode.copyA.open_ = true ∨ s.mode.copyB.open_ = true →
      Yields (.settingSaveDone page) s fun t =>
        (t.page page.val).saveDue = none ∧ t.ctl.regs = s.ctl.regs
          ∧ ∃ r, KV.get? (if s.mode.copyA.open_ ∧ (s.mode.copyB.open_ = false ∨ s.mode.copyA.seqOf page.val ≤ s.mode.copyB.seqOf page.val)
                then t.mode.copyA else t.mode.copyB).recs page.val = some r
              ∧ r.seq = s.mode.topSeq + 1 ∧ r.body = .page (s.keptWords page.val))
    ∧ (∀ (s : State), s.mode.copyA.compacting = true →
        Yields (.storeCompactionDone .a) s fun t =>
          t.mode.copyA.recs = s.mode.copyA.recs ∧ t.mode.copyB.recs = s.mode.copyB.recs
            ∧ (s.mode.copyA.packed ≤ 786432 → t.mode.copyA.compacting = false) ∧ t.ctl = s.ctl ∧ t.mode.mode = s.mode.mode)
    ∧ (∀ (s : State), s.mode.copyB.compacting = true →
        Yields (.storeCompactionDone .b) s fun t =>
          t.mode.copyA.recs = s.mode.copyA.recs ∧ t.mode.copyB.recs = s.mode.copyB.recs
            ∧ (s.mode.copyB.packed ≤ 786432 → t.mode.copyB.compacting = false) ∧ t.ctl = s.ctl ∧ t.mode.mode = s.mode.mode)
    ∧ (∀ (s : State), s.mode.mode = .service → s.mode.copyA.headerOk = false →
        Yields (.storeCopyReformat .a) s fun t => t.mode.copyA.headerOk = true ∧ t.mode.copyA.recs = s.mode.copyB.recs ∧ t.mode.copyB.recs = s.mode.copyB.recs)
    ∧ ∀ (s : State), s.mode.mode = .service → s.mode.copyB.headerOk = false →
        Yields (.storeCopyReformat .b) s fun t => t.mode.copyB.headerOk = true ∧ t.mode.copyB.recs = s.mode.copyA.recs ∧ t.mode.copyA.recs = s.mode.copyA.recs

/-! ## Modes, starts and shutdown -/

/-- The mode requests of R54 that are allowed, from a mode in which no transition runs.
Readings of the model: log entry 39. -/
def Obligations.ModeRequestsAllowed : Prop :=
  ∀ (path : Path) (s : State), Reached s path Pg.MODE 0x44 → s.mode.shutdown = none → s.mode.mode ≠ .holdup →
    (s.mode.mode = .standby → s.mainOk = true → s.pwr.pwrdis = false →
      Yields (.startRequest path) s fun t =>
        t.mode.mode = .start ∧ t.mode.startHold = false ∧ t.mode.startNo = s.mode.startNo + 1 ∧ t.mode.shutdown = none
          ∧ (∃ y, t.mode.stage = some y ∧ y.slot = 0) ∧ t.rec_.cause = 2 ∧ t.fence = s.fence)
    ∧ (s.serving = true →
      Yields (.shutdownRequest path) s fun t =>
        t.mode.mode = s.mode.mode ∧ t.cmd.drainStopped = true ∧ t.mode.shutdown = some ⟨2, s.now, false, false⟩ ∧ t.cmd.ctxs = s.cmd.ctxs ∧ t.cmd.ctrls = s.cmd.ctrls)
    ∧ (s.mode.mode = .standby → s.mainOk = true →
      Yields (.diagnosticRequest path) s fun t => t.mode.mode = .diagnostic ∧ t.mode.prev = .standby ∧ t.isUp Dom.FABRIC = true)
    ∧ (s.serving = true →
      Yields (.diagnosticRequest path) s fun t =>
        t.mode.mode = s.mode.mode ∧ t.cmd.drainStopped = true ∧ t.mode.shutdown = some ⟨2, s.now, true, false⟩)
    ∧ (s.mode.mode = .diagnostic → Yields (.leaveDiagnosticRequest path) s fun t => t.mode.mode = .standby ∧ t.mode.stage = none ∧ t.test.run = none)
    ∧ (s.mode.mode = .service ∨ s.mode.mode = .reduced →
      Yields (.preserveEnterRequest path) s fun t => t.mode.mode = .preserve ∧ t.mode.preserveCause.testBit 7 = true)
    ∧ (s.mode.mode = .preserve → (∀ b, b < 10 → s.mode.preserveCause.testBit b = true → (s.tickPage Pg.MODE).causeHolds b = false) →
      Yields (.preserveReleaseRequest path) s fun t =>
        t.mode.preserveCause = 0 ∧ t.mode.mode = if t.mode.reducedCause ≠ 0 then .reduced else .service)

/-- A mode request that R54 does not allow changes no mode: it records error 0x0100 and logs event 0x0309.
Readings of the model: log entry 39. -/
def Obligations.ModeRequestsRefused : Prop :=
  ∀ (path : Path) (s : State) (c : Instr) (r : Nat), (c, r) ∈ [(Instr.startRequest path, 1), (.shutdownRequest path, 2), (.diagnosticRequest path, 3),
      (.leaveDiagnosticRequest path, 4), (.preserveEnterRequest path, 5), (.preserveReleaseRequest path, 6)] →
    Reached s path Pg.MODE 0x44 → s.mode.shutdown = none → s.mode.mode ≠ .holdup → (s.tickPage Pg.MODE).reqAllowed r = false →
    (s.page Pg.MODE).errCode = 0 → s.mode.mpRestarting = false →
    Yields c s fun t =>
      t.mode = s.mode ∧ t.pwr.domains = s.pwr.domains ∧ (t.page Pg.MODE).errCode = 0x0100 ∧ (t.page Pg.MODE).errInfo = r + 16 * s.mode.mode.code
        ∧ ∃ e, t.log.entries = e :: s.log.entries ∧ e.code = 0x0309 ∧ e.seq = s.log.head + 1

/-- Automatic starts, the stages of a start, and the latches of skipped stages (R54, R55, R60 to R62).
Readings of the model: log entries 40, 42, 44. -/
def Obligations.StartsAndStages : Prop :=
  (∀ s : State, s.mode.mode = .standby → s.autoCond = true → s.mode.autoEdge = true → s.mode.autoBlocked = false →
      Yields .autoStart s fun t => t.mode.mode = .start ∧ (∃ y, t.mode.stage = some y ∧ y.slot = 0) ∧ t.rec_.cause = 1)
    ∧ (∀ s : State, s.mode.mode = .standby → s.mainOk = true → s.pwr.pwrdis = false → s.mode.autoBlocked = true → s.mode.holdCause = .resetSignal →
        s.pwr.resetLow = false →
        Yields .autoReturnStart s fun t => t.mode.mode = .start ∧ (∃ y, t.mode.stage = some y ∧ y.slot = 0) ∧ t.rec_.cause = 3)
    ∧ (∀ (s : State) (x : StageRun) (r : MethodEnd), s.mode.stage = some x → r.ok = false → x.second = false → x.slot < 8 →
        Yields (.stageMethodEnd r) s fun t =>
          t.mode.mode = s.mode.mode ∧ ∃ y, t.mode.stage = some y ∧ y.slot = x.slot ∧ y.second = true
            ∧ y.method = (if x.method = .primary then .alternate else .primary) ∧ y.deadline = s.now + 1000000000 * slotLimit x.slot y.method)
    ∧ (∀ (s : State) (x : StageRun) (r : MethodEnd), s.mode.stage = some x → r.ok = true → x.slot = 0 ∨ x.slot = 1 ∨ x.slot = 3 → s.mode.deferred = [] →
        s.mode.ledger ≠ [] → s.rec_.slots.length = 14 →
        Yields (.stageMethodEnd r) s fun t =>
          t.mode.mode = s.mode.mode ∧ (∃ y, t.mode.stage = some y ∧ y.slot = x.slot + 1)
            ∧ t.rec_.slots.getD x.slot 0 = x.triedMask + 16 * x.altFirst.toNat + (if x.method = .alternate then 4 else 0))
    ∧ (∀ (s : State) (x : StageRun), s.mode.stage = some x → x.second = false → 0 < x.slot → x.slot < 8 →
        Yields .stageMethodTimeout s fun t =>
          t.mode.mode = s.mode.mode ∧ t.now = max s.now x.deadline ∧ ∃ y, t.mode.stage = some y ∧ y.slot = x.slot ∧ y.second = true)
    ∧ ∀ (path : Path) (v : Word) (s : State), Reached s path Pg.MODE 0x58 →
        Yields (.skipLatchClear path v) s fun t =>
          ∀ b, t.mode.skipLatch.testBit b = (s.mode.skipLatch.testBit b && ! (v.getLsbD b && (b = 8 || b = 9 || b = 11 || b = 12)))

/-- Orderly shutdown (R72, R73): a step's work ends and the next begins; associations close in step 3's end; the drain limit ends step 2; a step 5 or
6 that overruns is finished by the HOLD-UP flush.
Readings of the model: log entry 45. -/
def Obligations.OrderlyShutdown : Prop :=
  (∀ (s : State) (r : ShutdownRun), s.mode.shutdown = some r → r.escalated = false → r.step = 4 →
      Yields .orderlyShutdownStepEnd s fun t =>
        t.mode.shutdown = some { r with step := 5 } ∧ t.mode.shutStep = 4 ∧ t.mode.mode = s.mode.mode ∧ t.cmd = s.cmd ∧ t.media = s.media)
    ∧ (∀ (s : State) (r : ShutdownRun), s.mode.shutdown = some r → r.escalated = false → r.step = 3 →
        Yields .orderlyShutdownStepEnd s fun t =>
          t.mode.shutdown = some { r with step := 4 } ∧ t.mode.shutStep = 3 ∧ t.cmd.ctrls = [] ∧ t.net.conns = [] ∧ t.media = s.media)
    ∧ (∀ (s : State) (r : ShutdownRun), s.mode.shutdown = some r → r.step = 2 → s.cmd.ctxs = [] → s.cmd.ctrls = [] →
        Yields .drainLimitExpiry s fun t =>
          t.mode.shutdown = some { r with step := 3 } ∧ t.mode.shutStep = 2
            ∧ t.now = max s.now (r.t0 + 1000000000 * s.cfg Pg.MODE Fd.MODE_START_CTRL_DRAIN_LIMIT))
    ∧ ∀ (s : State) (r : ShutdownRun), s.mode.shutdown = some r → r.escalated = false → r.step = 5 ∨ r.step = 6 →
        Yields .shutdownStepOverrun s fun t =>
          t.mode.shutLast = 2 ∧ t.mode.shutdown = some { r with escalated := true } ∧ t.mode.mode = s.mode.mode
            ∧ ∃ f, t.hold.flush = some f ∧ f.step = 1

/-- Supplies and sideband inputs (R53 to R55, R69, R74, R445 to R448).
Readings of the model: log entry 40. -/
def Obligations.SuppliesAndSidebands : Prop :=
  (∀ (mv : BitVec 16) (s : State), 40000 ≤ mv.toNat → mv.toNat ≤ 60000 →
      Yields (.vmainInRange mv) s fun t =>
        t.pwr.mainMv = mv.toNat ∧ t.mode.mode = s.mode.mode ∧ (s.mode.mode = .off → t.isUp Dom.MGMT = true ∧ t.isUp Dom.AON = true) ∧ t.media = s.media)
    ∧ (∀ (mv : BitVec 16) (s : State), 10800 ≤ mv.toNat → mv.toNat ≤ 13200 →
        Yields (.vauxInRange mv) s fun t =>
          t.pwr.auxMv = mv.toNat ∧ t.mode.mode = s.mode.mode ∧ (s.mode.mode = .off → t.isUp Dom.MGMT = true ∧ t.isUp Dom.AON = true) ∧ t.media = s.media)
    ∧ (∀ (mv : BitVec 16) (s : State), mv.toNat < 10800 →
        Yields (.vauxLost mv) s fun t => t.pwr.auxMv = mv.toNat ∧ t.mode = s.mode ∧ t.pwr.domains = s.pwr.domains)
    ∧ (∀ s : State, s.mode.mode = .standby → Yields .inputsRemoved s fun t => t.mode.mode = .off ∧ t.pwr.domains = 0 ∧ t.pwr.mainMv = 0 ∧ t.pwr.auxMv = 0)
    ∧ (∀ (a b : Bool) (la lb : List Nat) (s : State), s.mode.mode = .off → s.isUp Dom.MGMT = true →
        Yields (.mgmtDomainRise true a b la lb) s fun t =>
          t.mode.mode = .standby ∧ t.mode.copyA.headerOk = (s.mode.copyA.headerOk && a) ∧ t.mode.copyB.headerOk = (s.mode.copyB.headerOk && b))
    ∧ (∀ s : State, s.serving = true → s.mode.shutdown = none → s.pwr.pwrdis = false →
        Yields .pwrdisAssert s fun t => t.pwr.pwrdis = true ∧ t.mode.shutdown = some ⟨2, s.now, false, false⟩ ∧ t.cmd.drainStopped = true)
    ∧ (∀ s : State, Yields .pwrdisRelease s fun t => t.pwr.pwrdis = false ∧ t.mode.mode = s.mode.mode ∧ t.pwr.domains = s.pwr.domains)
    ∧ (∀ s : State, s.mode.mode ≠ .off → s.pwr.resetLow = false →
        Yields .resetAssert s fun t => t.pwr.resetLow = true ∧ t.pwr.resetLowAt = some s.now ∧ { t with pwr := s.pwr } = s)
    ∧ (∀ (s : State) (a : Nat), s.serving = true → s.pwr.resetLow = true → s.pwr.resetLowAt = some a → s.test.run = none →
        Yields .resetLow10ms s fun t =>
          t.mode.mode = .holdup ∧ t.mode.shutLast = 4 ∧ t.now = max s.now (a + 10000000) ∧ t.cmd.ctrls = [] ∧ ∃ f, t.hold.flush = some f ∧ f.step = 1)
    ∧ ∀ (s : State) (a : Nat), s.mode.mode = .standby → s.mainOk = true → s.pwr.pwrdis = false → s.pwr.resetLow = true → s.pwr.resetLowAt = some a →
        Yields .resetRelease s fun t => t.pwr.resetLow = false ∧ t.mode.mode = .start ∧ t.rec_.cause = 3

/-! ## Sensors, throttling, time, cages and clocks -/

/-- Sensors and the ceiling (R421 to R423): readings in range and below their trip limits are taken, with their level, and no other sensor changes; a
sensor without a reading for 100 ms fails, and the highest healthy one of its group plus 5 °C stands for it; the ceiling falls by STEP_PCT to no less than 20 %
and rises by it to no more than 100 %.
Readings of the model: log entry 50. -/
def Obligations.SensorsAndCeiling : Prop :=
  (∀ (l : List (Fin 128 × BitVec 24)) (s : State), Awake s → (l.map Prod.fst).Nodup →
      (∀ e ∈ l, (sensRange e.1.val).1 ≤ e.2.toInt ∧ e.2.toInt ≤ (sensRange e.1.val).2 ∧ s.sensLevel e.1.val e.2.toInt ≠ .trip) →
      (∀ e ∈ s.sens.sensors, e.2.state ≠ .failed) →
      Yields (.sensorSample l) s fun t =>
        (∀ e ∈ l, t.sensor e.1.val = ⟨e.2.toInt, s.sensLevel e.1.val e.2.toInt, max (s.sensor e.1.val).peak e.2.toInt, s.now⟩)
          ∧ (∀ i, (∀ e ∈ l, e.1.val ≠ i) → t.sensor i = s.sensor i)
          ∧ t.mode = s.mode ∧ t.now = s.now ∧ t.sens.ceiling = s.sens.ceiling ∧ t.media = s.media ∧ t.map = s.map ∧ t.kw = s.kw ∧ t.prog = s.prog)
    ∧ (∀ (i : Fin 128) (s : State), Awake s → (s.sensor i.val).state ≠ .failed →
        Yields (.sensorStaleTimeout i) s fun t =>
          (t.sensor i.val).state = .failed ∧ t.now = max s.now ((s.sensor i.val).at_ + 100000000) ∧ Logged s t Pg.SENS 0x1104 .absorbed
            ∧ t.mode = s.mode ∧ t.media = s.media ∧ t.sens.ceiling = s.sens.ceiling
            ∧ (i.val < 94 → ∀ e ∈ s.sens.sensors, e.1 ≠ i.val → e.1 < 94 → sensGroup e.1 = sensGroup i.val → e.2.state ≠ .failed →
                e.2.reading + 50 ≤ (t.sensor i.val).reading))
    ∧ (∀ (s : State) (d : Nat), Awake s → s.sens.nextStep = some d →
        Yields .throttleStep s fun t =>
          t.now = max s.now d ∧ t.mode = s.mode ∧ t.media = s.media
            ∧ t.sens = { s.sens with ceiling := max 20 (s.sens.ceiling - s.cfg Pg.SENS Fd.SENS_THROTTLE_CTRL_STEP_PCT), nextStep := some (max s.now d + 100000000) })
    ∧ ∀ (s : State) (d : Nat), Awake s → s.sens.clearSince = some d →
        Yields .throttleRecover s fun t =>
          t.now = max s.now (d + 1000000000 * s.cfg Pg.SENS Fd.SENS_THROTTLE_CTRL_RECOVER_S) ∧ t.mode = s.mode ∧ t.media = s.media
            ∧ t.sens = { s.sens with ceiling := min 100 (s.sens.ceiling + s.cfg Pg.SENS Fd.SENS_THROTTLE_CTRL_STEP_PCT), clearSince := some t.now }

/-- Time (R427, R445): the slave clock's offsets, the lock after 10 s within 1 µs, the loss of the lock, the manager's setting, which a lock of PTP
shuts out, and the pulse, which aligns a time that the manager set to the nearest second.
Readings of the model: log entry 52. -/
def Obligations.SourcesOfTime : Prop :=
  (∀ (e : Fin 512) (dom : BitVec 8) (off : Int) (s : State), ((KV.getD [] s.net.addrs e.val).getD 0x10 0).getLsbD 0 = true →
      ((KV.getD [] s.net.addrs e.val).getD 0x10 0).getLsbD 3 = true → s.isUp Dom.NETCORE = true →
      s.cfg Pg.DEV Fd.DEV_PTP_ENABLE = 1 → s.cfg Pg.DEV Fd.DEV_PTP_DOMAIN = dom.toNat →
      (off.natAbs ≤ 1000 →
        Yields (.ptpMessageReceive e dom off) s fun t =>
          { t with time := s.time } = s ∧ t.time.ptpOffset = off ∧ t.time.ptpGoodSince = some (s.time.ptpGoodSince.getD s.now)
            ∧ t.time.ptpLocked = s.time.ptpLocked ∧ t.time.base = if s.time.ptpLocked then s.time.base - off else s.time.base)
      ∧ (1000 < off.natAbs →
        Yields (.ptpMessageReceive e dom off) s fun t =>
          t.time.ptpOffset = off ∧ t.time.ptpGoodSince = none ∧ t.time.ptpLocked = false ∧ t.timeNs = s.timeNs
            ∧ t.time.source = if s.time.ptpLocked then (if s.time.managerSet then .set else .aon) else s.time.source))
    ∧ (∀ (s : State) (a : Nat), s.time.ptpGoodSince = some a → s.time.ptpLocked = false → s.cfg Pg.DEV Fd.DEV_PTP_ENABLE = 1 →
        Yields .ptpLock s fun t =>
          t.time.ptpLocked = true ∧ t.time.source = .ptp ∧ t.time.known = true ∧ t.now = max s.now (a + 10000000000) ∧ t.mode = s.mode)
    ∧ (∀ (path : Path) (s : State), Reached s path Pg.DEV 0x408 →
        (s.time.ptpLocked = true → Yields (.timeSetGo path) s fun t => t.time = s.time ∧ t.media = s.media)
        ∧ (s.time.ptpLocked = false → 0 ≤ (s.now : Int) + s.time.base →
          Yields (.timeSetGo path) s fun t =>
            t.timeNs = s.cfg Pg.DEV Fd.DEV_TIME_SET_LO_NS + 2 ^ 32 * s.cfg Pg.DEV Fd.DEV_TIME_SET_HI_NS
              ∧ t.time.source = .set ∧ t.time.managerSet = true ∧ t.time.known = true ∧ t.now = s.now ∧ t.mode = s.mode))
    ∧ (∀ (falling : Bool) (s : State), s.mode.mode ≠ .off → (∀ a, s.time.lastPps = some a → a + 100 ≤ s.now) → 0 ≤ (s.now : Int) + s.time.base →
        Yields (.ppsEdge falling) s fun t =>
          t.time.lastPps = some s.now ∧ t.time.ppsLost = false ∧ t.time.source = s.time.source ∧ t.now = s.now
            ∧ if s.cfg Pg.CLK Fd.CLK_PPS_CTRL_USE = 1 ∧ (falling = true ↔ s.cfg Pg.CLK Fd.CLK_PPS_CTRL_FALLING = 1) ∧ s.time.source = .set then
                t.time.ppsAligned = true ∧ t.timeNs % 1000000000 = 0 ∧ s.timeNs ≤ t.timeNs + 500000000 ∧ t.timeNs ≤ s.timeNs + 500000000
              else t.time.ppsAligned = s.time.ppsAligned ∧ t.timeNs = s.timeNs)
    ∧ ∀ (s : State) (a : Nat), Awake s → s.time.lastPps = some a →
        Yields .ppsLoss s fun t =>
          t.time = { s.time with lastPps := none, ppsLost := true, ppsAligned := false } ∧ t.now = max s.now (a + 1500000000)
            ∧ Logged s t Pg.CLK 0x1302 .info ∧ t.mode = s.mode ∧ t.media = s.media

/-- Cages, clocks, the service header, the log's mirror and the management processor's return (R25, R420, R422, R425, R443, R452, R454).
Readings of the model: log entries 37, 53, 56, 57. -/
def Obligations.CagesClocksAndProcessor : Prop :=
  (∀ (p : Fin 2) (s : State), Awake s → s.cagePower p.val = true →
      Yields (.cageOvercurrent p) s fun t =>
        t.cage p.val = { s.cage p.val with cutOff := true } ∧ p.val ∈ t.net.external ∧ (∀ k, k < 4 → (t.subOf p.val k).up = false)
          ∧ Logged s t Pg.PWR 0x110A .notice ∧ t.mode = s.mode ∧ t.media = s.media ∧ t.pwr.domains = s.pwr.domains)
    ∧ (∀ (p : Fin 2) (w : Nat) (s : State), s.mode.mode ≠ .off →
        Yields (.transceiverInsert p w) s fun t =>
          t.cage p.val = { s.cage p.val with present := true, deciWatt := w } ∧ t.mode = s.mode ∧ t.media = s.media
            ∧ (s.isUp (Dom.NPHY p.val) = true → (p.val ∈ t.net.external ↔ (s.cage p.val).cutOff = true ∨ 180 < w)))
    ∧ (∀ (p : Fin 2) (s : State), s.mode.mode ≠ .off →
        Yields (.transceiverRemove p) s fun t =>
          (t.cage p.val).present = false ∧ p.val ∈ t.net.external ∧ (∀ k, k < 4 → (t.subOf p.val k).up = false) ∧ t.mode = s.mode ∧ t.media = s.media)
    ∧ (∀ (d : Fin 25) (s : State), clockPll d.val = true → s.clockUp d.val = true → s.pwr.pllLost.testBit d.val = false →
        Yields (.pllLockLoss d) s fun t =>
          t.pwr.pllLost.testBit d.val = true ∧ t.pwr.relock.testBit d.val = true ∧ (t.page Pg.CLK).evRaw.testBit 8 = true
            ∧ { t with ctl := s.ctl, pwr := s.pwr } = s ∧ t.ctl.regs = s.ctl.regs)
    ∧ (∀ (d : Fin 25) (s : State), Awake s → s.pwr.relock.testBit d.val = true → s.pwr.pllLost.testBit d.val = true →
        Yields (.pllRelockDone d true) s fun t =>
          t.pwr.pllLost.testBit d.val = false ∧ t.pwr.relock.testBit d.val = false ∧ t.pwr.domains = s.pwr.domains
            ∧ Logged s t Pg.CLK 0x1304 .absorbed ∧ t.mode = s.mode ∧ t.fence = s.fence ∧ t.media = s.media)
    ∧ (∀ s : State, s.mode.mode ≠ .off →
        (Yields (.jtagInstruction .idcode) s fun t =>
          { t with out := s.out, free := s.free } = s ∧ ∃ w, t.out = .jtag w :: s.out ∧ bitsOf w 27 12 = 0x8400 ∧ w.testBit 0 = true)
        ∧ (Yields (.jtagInstruction .bypass) s fun t => t = { s with out := .jtag 0 :: s.out }))
    ∧ (∀ (slot : Fin 4) (resp : List Byte) (s : State), s.mode.mode = .diagnostic →
        Yields (.debugChallenge slot resp) s fun t =>
          ∃ nonce, nonce.length = 32 ∧ t.out = .debugNonce nonce :: s.out ∧ { t with out := s.out, free := s.free, pwr := s.pwr } = s
            ∧ t.pwr = { s.pwr with debugGranted := s.pwr.debugGranted
                || (s.vendorKeyOk slot.val (sliceB resp 0 97) && Config.ecdsaOk (sliceB resp 0 97) (Config.sha384 nonce) (sliceB resp 97 96)) })
    ∧ (∀ s : State, s.serving = true → s.mode.mpRestarting = false → s.log.mirrored < s.log.head →
        (Yields (.logMirrorCopy true) s fun t => t = { s with log := { s.log with mirrored := max (s.log.mirrored + 1) (s.log.head - 65535) } })
        ∧ Yields (.logMirrorCopy false) s fun t => Noted s t ∧ t.log.mirrored = s.log.mirrored ∧ Logged s t Pg.LOG 0x1109 .absorbed)
    ∧ ∀ s : State, s.mode.mpRestarting = true → s.sens.held = [] →
        Yields .mpRestartDone s fun t =>
          t.mode = { s.mode with mpRestarting := false } ∧ t.log.held = [] ∧ t.log.head = s.log.head + s.log.held.length
            ∧ (∀ e ∈ s.log.held, ∃ e' ∈ t.log.entries, s.log.head < e'.seq ∧ { e' with seq := e.seq } = e) ∧ t.media = s.media ∧ t.sens = s.sens

/-! ## Hold-up -/

/-- The acknowledgement window and the store's measurement (R256 to R258, R460): W is 64 MiB for each whole 64 MiB part of what C at the present voltage
can flush, within the cap; a measurement takes eight runs and their median; a run out of time fails it, the third failure in a row makes the value stale; the HC's
own fault takes W to 0 and sets the PRESERVE cause.
Readings of the model: log entries 43, 107. -/
def Obligations.WindowAndMeasurement : Prop :=
  (∀ (mv : BitVec 16) (s : State), s.mode.mode ≠ .off →
      Yields (.windowUpdate mv) s fun t =>
        t.hold.vMv = mv.toNat ∧ { t with ctl := s.ctl, hold := s.hold } = s ∧ t.ctl.regs = s.ctl.regs
          ∧ (t.hold.w / 1024 ≠ s.hold.w / 1024 → (t.page Pg.HOLD).evRaw.testBit 8 = true)
          ∧ t.hold.w = if s.hold.capUf = 0 ∨ s.hold.stale = true ∨ s.hold.hcFault = true then 0
              else min (64 * (16 * (s.hold.capUf * (mv.toNat ^ 2 - 18000 ^ 2) - 36000000000000) / 11250000000000))
                (min (1024 * s.cfg Pg.HOLD Fd.HOLD_CTRL_WINDOW_CAP) 16384))
    ∧ (∀ (s : State) (d : Nat), s.mode.mode ≠ .off → s.mode.mode ≠ .holdup → s.hold.measDue = some d → s.hold.meas = none →
        Yields .holdupMeasurementDue s fun t =>
          t = { s with now := max s.now d, hold := { s.hold with measDue := some (d + 600000000000), meas := some ⟨.discharge, false, []⟩, charging := false } })
    ∧ (∀ (path : Path) (s : State), Reached s path Pg.HOLD 0x40C → s.mode.mode ≠ .holdup → s.hold.meas = none →
        Yields (.measGo path) s fun t =>
          t = { s.tickPage Pg.HOLD with hold := { s.hold with meas := some ⟨.discharge, false, []⟩, charging := false } })
    ∧ (∀ (us : Nat) (s : State) (r : MeasRun), s.hold.meas = some r → us ≤ (if r.method = .recharge then 500000 else 250000) → r.runs.length < 7 →
        Yields (.measurementRunDone us) s fun t =>
          t = { s with hold := { s.hold with meas := some { r with runs := r.runs ++ [if r.method = .recharge then us / 2 else us] } } })
    ∧ (∀ (us : Nat) (s : State) (r : MeasRun) (l : List Nat) (m : Nat), s.hold.meas = some r → r.sep = false → r.method = .discharge → us ≤ 250000 →
        r.runs.length = 7 → l.Perm (r.runs ++ [us]) → l.Pairwise (· ≤ ·) → m = (l.getD 3 0 + l.getD 4 0) / 2 → 40000 ≤ m → m ≤ 200000 →
        Yields (.measurementRunDone us) s fun t =>
          t.hold.meas = none ∧ t.hold.capUf = m ∧ t.hold.lastOk = true ∧ t.hold.fails = 0 ∧ t.hold.stale = false ∧ t.hold.goodAt = some s.now
            ∧ t.now = s.now ∧ t.media = s.media ∧ t.cmd.ctxs = s.cmd.ctxs)
    ∧ (∀ (s : State) (r : MeasRun), s.hold.meas = some r → r.sep = false →
        Yields .measurementRunTimeout s fun t =>
          t.hold.meas = none ∧ t.hold.lastOk = false ∧ t.hold.fails = min 3 (s.hold.fails + 1)
            ∧ t.hold.stale = (s.hold.stale || decide (3 ≤ t.hold.fails)) ∧ t.hold.capUf = s.hold.capUf ∧ t.mode = s.mode ∧ t.media = s.media
            ∧ ErrorRecorded s t Pg.HOLD 0x0101 (r.runs.length % 16 + 16 * r.method.code))
    ∧ (∀ (mv : BitVec 16) (s : State), Awake s → s.mode.stage = none → mv.toNat < 54000 →
        Yields (.chargerTimeout mv) s fun t =>
          t.hold.vMv = mv.toNat ∧ t.hold.noCharge = true ∧ t.mode.preserveCause.testBit 4 = true ∧ Logged s t Pg.HOLD 0x0A06 .critical ∧ t.media = s.media
            ∧ (s.mode.shutdown = none → s.mode.mode = .service ∨ s.mode.mode = .reduced → t.mode.mode = .preserve))
    ∧ ∀ s : State, Awake s → s.hold.hcFault = false →
        Yields .hcFault s fun t =>
          t.hold.hcFault = true ∧ t.hold.w = 0 ∧ t.mode.preserveCause.testBit 4 = true ∧ Logged s t Pg.HOLD 0x0A06 .critical
            ∧ ErrorRecorded s t Pg.HOLD 0x0103 0 ∧ t.media = s.media

/-- A power failure (R54, R263 to R266): the warning takes the module to HOLD-UP and starts the flush, no command and no controller is left and no data
that had not reached its commit point; the steps follow one another at the times measured; step 3 takes the programs', networks' and ports' domains down; after step 8 the module is in
STANDBY where VAUX is in range and OFF where it is not.
Readings of the model: log entries 46, 47. -/
def Obligations.PowerFailAndFlush : Prop :=
  (∀ s : State, s.serving = true → s.test.run = none →
      Yields .powerFailWarning s fun t =>
        t.mode.mode = .holdup ∧ t.mode.prev = s.mode.mode ∧ t.mode.holdCause = .power ∧ t.mode.shutLast = 3 ∧ t.cmd.ctrls = [] ∧ t.cmd.ctxs = []
          ∧ t.media.versions = s.media.versions.filter (fun e => e.2.state ≠ .landed) ∧ t.media.bands = s.media.bands ∧ t.now = s.now
          ∧ ∃ f, t.hold.flush = some f ∧ f.step = 1 ∧ f.t0 = s.now ∧ f.w0 = s.hold.w ∧ f.us = 0)
    ∧ (∀ (us mj : Nat) (s : State) (f : FlushRun), s.hold.flush = some f → f.step = 1 →
        Yields (.holdupFlushStepDone us mj) s fun t =>
          t = { s with now := max s.now (f.t0 + 1000 * (f.us + us)), hold := { s.hold with flush := some { f with step := 2, us := f.us + us, mj := f.mj + mj } } })
    ∧ (∀ (us mj : Nat) (s : State) (f : FlushRun), s.hold.flush = some f → f.step = 3 →
        Yields (.holdupFlushStepDone us mj) s fun t =>
          t.hold.flush = some { f with step := 4, us := f.us + us, mj := f.mj + mj } ∧ t.now = max s.now (f.t0 + 1000 * (f.us + us)) ∧ t.mode = s.mode
            ∧ (∀ d, d < 32 → t.isUp d = (s.isUp d && ! holdupDown.contains d)) ∧ t.fence = s.fence)
    ∧ (∀ (us mj : Nat) (s : State) (f : FlushRun), s.hold.flush = some f → f.step = 7 → s.mode.mode = .holdup →
        Yields (.holdupFlushStepDone us mj) s fun t =>
          t.hold.flush = some { f with step := 8, us := f.us + us, mj := f.mj + mj } ∧ t.log.held = []
            ∧ t.log.head = s.log.head + min 32 (s.log.held.length + 1) ∧ t.log.dropped = s.log.held.length + 1 - 32 ∧ t.mode.mode = .holdup)
    ∧ (∀ (us mj : Nat) (s : State) (f : FlushRun), s.hold.flush = some f → f.step = 8 → s.mode.mode = .holdup → s.mode.shutdown = none →
        s.mode.deferred = [] → 10800 ≤ s.pwr.auxMv → s.pwr.auxMv ≤ 13200 →
        Yields (.holdupFlushStepDone us mj) s fun t =>
          t.mode.mode = .standby ∧ t.mode.autoBlocked = true ∧ t.hold.flush = none ∧ t.hold.lastTime = f.us + us ∧ t.hold.lastEnergy = f.mj + mj
            ∧ ∀ d, d < 32 → t.isUp d = (s.isUp d && alwaysDoms.contains d))
    ∧ (∀ (us mj : Nat) (s : State) (f : FlushRun), s.hold.flush = some f → f.step = 8 → s.mode.mode = .holdup → s.mode.shutdown = none → s.pwr.auxMv < 10800 →
        Yields (.holdupFlushStepDone us mj) s fun t =>
          t.mode.mode = .off ∧ t.pwr.domains = 0 ∧ t.hold.flush = none ∧ t.hold.lastTime = f.us + us ∧ t.hold.lastEnergy = f.mj + mj)
    ∧ ∀ (s : State) (f : FlushRun), s.hold.flush = some f → f.step = 5 →
        Yields .flushPass2Limit s fun t =>
          t.now = max s.now (f.t0 + 121000000) ∧ t.fence = s.fence
            ∧ ∃ f', t.hold.flush = some f' ∧ f'.step = 6 ∧ f'.t0 = f.t0 ∧ f'.us = (t.now - f.t0) / 1000 ∧ f'.pass1 = f.pass1

/-! ## Failures and their absorption, links, tests -/

/-- Media and memory (R16, R23, R24, R192, R215): the failed die, lane, DRAM channel or quadrant enters the fence record, the record says nothing else, and
the failure is logged; a second channel of a quadrant and a lost quadrant set their PRESERVE causes.
Readings of the model: log entries 38, 58. -/
def Obligations.MediaAndMemoryFailures : Prop :=
  (∀ (lane : Fin 64) (die : Fin 16) (s : State), Awake s → s.dieUp (16 * lane.val + die.val) = true → s.isUp (Dom.LPHY (lane.val / 16)) = true →
      Yields (.dieFailure lane die) s fun t =>
        t.fence = { s.fence with dies := insNat (16 * lane.val + die.val) s.fence.dies } ∧ t.now = s.now
          ∧ ∃ v, Logged s t (Pg.LANE (lane.val / 16) (lane.val % 16)) 0x0101 v)
    ∧ (∀ (lane : Fin 64) (s : State), Awake s → lane.val ∉ s.fence.lanes → lane.val / 16 ∉ s.fence.quads → s.isUp (Dom.LPHY (lane.val / 16)) = true →
        Yields (.laneFailure lane) s fun t =>
          t.fence = { s.fence with lanes := insNat lane.val s.fence.lanes } ∧ t.now = s.now
            ∧ ∃ v, Logged s t (Pg.LANE (lane.val / 16) (lane.val % 16)) 0x0102 v)
    ∧ (∀ (lane : Fin 64) (s : State), s.serving = true →
        Yields (.laneRetrain lane true) s fun t =>
          { t with media := { t.media with lane24 := s.media.lane24 } } = s ∧ ∀ l, l ∈ t.media.lane24 ↔ l ∈ s.media.lane24 ∧ l ≠ lane.val)
    ∧ (∀ (q : Quad) (c : Fin 5) (s : State), Awake s → 5 * q.ix + c.val ∉ s.fence.channels → s.isUp (Dom.MEM q.ix) = true →
        Yields (.dramChannelLoss q c) s fun t =>
          t.fence = { s.fence with channels := insNat (5 * q.ix + c.val) s.fence.channels } ∧ t.now = s.now
            ∧ (c.val < 4 → q.ix ∈ t.map.rebuilding)
            ∧ (if ∃ k ∈ s.fence.channels, k / 5 = q.ix then
                t.mode.preserveCause.testBit 2 = true ∧ Logged s t (Pg.MEM q.ix) (if c.val = 4 then 0x0108 else 0x0107) .critical
              else Logged s t (Pg.MEM q.ix) (if c.val = 4 then 0x0108 else 0x0107) .absorbed))
    ∧ (∀ (q : Quad) (s : State),
        Yields (.memoryRebuildDone q) s fun t =>
          { t with map := { t.map with rebuilding := s.map.rebuilding } } = s ∧ ∀ k, k ∈ t.map.rebuilding ↔ k ∈ s.map.rebuilding ∧ k ≠ q.ix)
    ∧ ∀ (q : Quad) (s : State), Awake s → q.ix ∉ s.fence.quads → s.isUp Dom.FABRIC = true →
        Yields (.quadrantChipletLoss q) s fun t =>
          t.fence = { s.fence with quads := insNat q.ix s.fence.quads } ∧ t.mode.preserveCause.testBit 5 = true ∧ Logged s t (Pg.QCTL q.ix) 0x010D .critical
            ∧ (∀ d, t.isUp d = (s.isUp d && ! decide (6 * q.ix ≤ d ∧ d < 6 * q.ix + 6))) ∧ ∀ c, c < 64 → (t.core (64 * q.ix + c)).run = none

/-- Cores, clusters, media cores, engine units and the management processor (R23, R27, R62, R298, R299, R321, R345, R346): the failed unit enters the fence record and leaves its work;
a unit that passes the background test leaves the record; a core that runs a task is tested once the task has ended.
Readings of the model: log entries 38, 48, 59, 60. -/
def Obligations.CoreAndUnitFailures : Prop :=
  (∀ (c : CoreId) (why : CoreFault) (s : State), Awake s → s.isUp (Dom.CPU c.quad.ix) = true → coreFenced s.fence c.quad.ix c.core.val = false →
      Yields (.tenantCoreFault c why) s fun t =>
        t.fence = { s.fence with cores := insNat c.key s.fence.cores } ∧ (t.core c.key).run = none ∧ t.now = s.now ∧ ∃ v, Logged s t (cluPage c.key) 0x0103 v)
    ∧ (∀ (q : Quad) (c : Fin 4) (s : State), Awake s → 4 * q.ix + c.val ∉ s.fence.clusters → s.isUp (Dom.CPU q.ix) = true →
        Yields (.clusterFailure q c) s fun t =>
          t.fence = { s.fence with clusters := insNat (4 * q.ix + c.val) s.fence.clusters } ∧ Logged s t (Pg.CLU q.ix c.val) 0x0104 .degraded
            ∧ (∀ k, k < 16 → (t.core (64 * q.ix + 16 * c.val + k)).run = none) ∧ t.mode.reducedCause.testBit 2 = true)
    ∧ (∀ (q : Quad) (c : Fin 8) (s : State), Awake s → 8 * q.ix + c.val ∉ s.fence.mediaCores → s.isUp (Dom.ENG q.ix) = true →
        Yields (.mediaCoreFailure q c) s fun t =>
          t.fence = { s.fence with mediaCores := insNat (8 * q.ix + c.val) s.fence.mediaCores } ∧ t.media = s.media ∧ t.kw = s.kw
            ∧ ∃ v, Logged s t (Pg.QCTL q.ix) 0x0105 v)
    ∧ (∀ (q : Quad) (k : EngineKind) (u : Fin 8) (s : State), Awake s → u.val < k.count → s.fence.unitFenced q.ix k u.val = false → s.isUp (Dom.ENG q.ix) = true →
        Yields (.engineUnitFault q k u) s fun t =>
          t.fence = { s.fence with units := insNat (unitKey q.ix k u.val) s.fence.units } ∧ ∃ v, Logged s t (engPage q.ix k) 0x0106 v)
    ∧ (∀ (q : Quad) (k : EngineKind) (u : Fin 8) (pass : Bool) (s : State), unitKey q.ix k u.val ∈ s.fence.units → u.val < k.count → s.isUp (Dom.ENG q.ix) = true →
        Yields (.engineUnitTestDone q k u pass) s fun t =>
          unitKey q.ix k u.val ∈ t.kw.bgUnits
            ∧ t.fence = if pass then { s.fence with units := s.fence.units.filter (· ≠ unitKey q.ix k u.val) } else s.fence)
    ∧ (∀ (path : Path) (q : Quad) (cl : Fin 4) (core : Fin 16) (s : State), Reached s path (Pg.CLU q.ix cl.val) Fd.CLU_TEST_GO_GO.off →
        Yields (.coreTestGo path q cl core) s fun t =>
          { t with ctl := s.ctl, kw := { t.kw with cores := s.kw.cores } } = s
            ∧ (∀ k, k ≠ 64 * q.ix + 16 * cl.val + core.val → t.core k = s.core k)
            ∧ t.core (64 * q.ix + 16 * cl.val + core.val)
                = if (s.core (64 * q.ix + 16 * cl.val + core.val)).run.isSome then { s.core (64 * q.ix + 16 * cl.val + core.val) with testWanted := true }
                  else { s.core (64 * q.ix + 16 * cl.val + core.val) with testing := true })
    ∧ (∀ (c : CoreId) (pass : Bool) (s : State), s.isUp (Dom.CPU c.quad.ix) = true → (s.core c.key).testing = true ∨ c.key ∈ s.fence.cores →
        Yields (.coreTestDone c pass) s fun t =>
          (t.core c.key).testing = false ∧ c.key ∈ t.kw.bgCores ∧ (t.page (cluPage c.key)).evRaw.testBit 12 = true
            ∧ if pass then c.key ∉ t.fence.cores else c.key ∈ t.fence.cores)
    ∧ ∀ s : State, s.mode.mode ≠ .off →
        Yields .mpLockstepMismatch s fun t =>
          t.mode.mpRestarting = true ∧ t.mode.mpMismatch = s.now :: s.mode.mpMismatch.filter (fun a => s.now < a + 86400000000000) ∧ t.media = s.media ∧ t.cmd.ctxs = s.cmd.ctxs

/-- Fabric links (R10): a good flit ends the runs of failures, a bad one is asked for again and counted on its wire; at sixteen in a row a spare takes the wire's
place, and without a spare the link is fenced.
Readings of the model: log entries 37, 58. -/
def Obligations.FabricLinks : Prop :=
  (∀ (l : Fin 9) (ok : Bool) (w : Fin 68) (s : State), s.isUp Dom.FABRIC = true → (s.link l.val).fenced = false → (s.link l.val).repairing = none →
      Yields (.flitReceive l ok w) s fun t =>
        (∀ k, k ≠ l.val → t.link k = s.link k) ∧ { t with out := s.out, pwr := { t.pwr with links := s.pwr.links } } = s
          ∧ if ok then t.link l.val = { s.link l.val with run := [] } ∧ t.out = s.out
            else t.link l.val = { s.link l.val with run := [(w.val, KV.getD 0 (s.link l.val).run w.val + 1)], retries := (s.link l.val).retries + 1 }
              ∧ t.out = .flitRetry l.val :: s.out)
    ∧ (∀ (l : Fin 9) (w : Fin 68) (s : State), Awake s → (s.link l.val).repairing = none → 16 ≤ KV.getD 0 (s.link l.val).run w.val → (s.link l.val).fenced = false →
        Yields (.wireSpareRepair l w) s fun t =>
          (∀ k, k ≠ l.val → t.link k = s.link k) ∧ t.media = s.media ∧ t.pwr.domains = s.pwr.domains
            ∧ if (s.link l.val).spares < 4 then
                t.link l.val = { s.link l.val with run := [], spares := (s.link l.val).spares + 1, repairing := some w.val }
                  ∧ t.fence = { s.fence with wires := insNat (68 * l.val + w.val) s.fence.wires } ∧ ∃ pg, Logged s t pg 0x010A .absorbed
              else t.link l.val = { s.link l.val with run := [], fenced := true } ∧ t.fence = { s.fence with links := insNat l.val s.fence.links }
                ∧ t.mode.reducedCause.testBit 5 = true ∧ ∃ pg, Logged s t pg 0x010A .degraded)
    ∧ ∀ (l : Fin 9) (s : State),
        Yields (.wireRepairDone l) s fun t =>
          t.link l.val = { s.link l.val with repairing := none } ∧ (∀ k, k ≠ l.val → t.link k = s.link k)
            ∧ { t with pwr := { t.pwr with links := s.pwr.links } } = s

/-- Loop-backs and self-tests (R436 to R442): a test that may run raises its domains and runs, one in another mode is refused as NOT_DIAGNOSTIC; STOP
ends it ABORTED and lowers what it raised; an injected error fails the test but fences nothing; a test without an error passes.
Readings of the model: log entry 48. -/
def Obligations.TestsAndLoopbacks : Prop :=
  (∀ (path : Path) (s : State), Reached s path Pg.TEST 0x48 → s.test.run = none → s.mode.mode = .diagnostic →
      selOk (s.live (Pg.TEST * 4096 + 0x40)) (s.live (Pg.TEST * 4096 + 0x44)) = true → selIface (s.live (Pg.TEST * 4096 + 0x40)) ≠ 1 →
      Yields (.testGo path true) s fun t =>
        t.mode = s.mode ∧ t.test.result = 0 ∧ t.test.errors = 0 ∧ t.fence = s.fence
          ∧ (∀ d, t.isUp d = (s.isUp d || (selDoms (s.live (Pg.TEST * 4096 + 0x40))).contains d))
          ∧ ∃ r, t.test.run = some r ∧ r.sel = s.live (Pg.TEST * 4096 + 0x40) ∧ r.ctrl = s.live (Pg.TEST * 4096 + 0x44) ∧ r.t0 = s.now ∧ r.injected = false
            ∧ ∀ d, r.raised.testBit d = (t.isUp d && ! s.isUp d))
    ∧ (∀ (path : Path) (rise : Bool) (s : State), Reached s path Pg.TEST 0x48 → s.test.run = none → s.mode.mode ≠ .diagnostic →
        Yields (.testGo path rise) s fun t => t.test = { s.test with result := 4, reason := 1, fencedUnit := false } ∧ t.pwr.domains = s.pwr.domains ∧ t.mode = s.mode)
    ∧ (∀ (path : Path) (s : State) (r : TestRun), Reached s path Pg.TEST 0x48 → s.test.run = some r →
        Yields (.testStop path) s fun t =>
          t.test.run = none ∧ t.test.result = 3 ∧ t.mode = s.mode ∧ t.fence = s.fence ∧ ∀ d, d < 32 → t.isUp d = (s.isUp d && ! r.raised.testBit d))
    ∧ (∀ (path : Path) (s : State) (r : TestRun), Reached s path Pg.TEST 0x404 → s.test.run = some r →
        Yields (.testInject path) s fun t => OnlyCtl { s with test := { s.test with run := some { r with injected := true } } } t)
    ∧ ∀ (errs bits : Nat) (criterion : Bool) (wires : List (Fin 68)) (first : Word) (s : State) (r : TestRun), s.test.run = some r →
        (errs = 0 ∨ r.ctrl.testBit 24 = false) → r.injected = true ∨ criterion = true →
        Yields (.testEnd errs criterion bits wires first) s fun t =>
          t.test.run = none ∧ t.test.result = (if criterion = true ∧ r.injected = false then 1 else 2) ∧ t.test.bits = bits ∧ t.test.firstErr = first.toNat
            ∧ t.fence = s.fence ∧ t.mode = s.mode ∧ (∀ d, d < 32 → t.isUp d = (s.isUp d && ! r.raised.testBit d))
            ∧ ∀ ms, selMs r.sel r.ctrl = some ms → r.t0 + 1000000 * ms ≤ t.now

/-! ## The network edge -/

/-- Received frames and pauses (R79, R82, R85, R86, R89, R92): a good frame to a local address is taken into the receive SRAM, one with a bad FCS or an unknown address
is dropped and counted; spilled frames return in order; the far side pauses the lossless priorities it names, and the watchdog ignores a pause for 1 s; address and echo requests to
local addresses are answered.
Readings of the model: log entry 62. -/
def Obligations.ReceivePathAndPause : Prop :=
  (∀ (p : Fin 2) (k : Fin 4) (f : Frame) (c : Conn) (s : State), LinkOk s p k → f.fecOk = true → f.fcsOk = true → f.macsec = false → f.macControl = false →
      s.cfg (Pg.NET p.val) Fd.NET_NET_CTRL_MACSEC_MODE = 0 → 64 ≤ f.len → f.len ≤ s.cfg (Pg.NET p.val) Fd.NET_NET_CTRL_MAX_FRAME → f.fragment = false →
      s.localEntries p.val k.val f.vlan.toNat f.ipv6 f.dst ≠ [] → s.conn? f.conn = some c → c.roce = false → c.ecn = false →
      s.net.spilling = false → s.rxO + f.len ≤ s.rxM →
      Yields (.frameReceive p k f) s fun t =>
        OnlyNet s t ∧ t.net.sram = s.net.sram ++ [⟨f.conn, f.len, false⟩] ∧ t.net.spill = s.net.spill ∧ SubCounted s t p k 2 ∧ OnlySub s t p k
          ∧ t.conn? f.conn = some { c with prio := some (c.prio.getD f.prio.val) } ∧ ∀ n, n ≠ f.conn → t.conn? n = s.conn? n)
    ∧ (∀ (p : Fin 2) (k : Fin 4) (f : Frame) (s : State), LinkOk s p k → f.fecOk = true →
        f.fcsOk = false ∨ (f.macsec = false ∧ f.macControl = false ∧ s.cfg (Pg.NET p.val) Fd.NET_NET_CTRL_MACSEC_MODE = 0
          ∧ s.localEntries p.val k.val f.vlan.toNat f.ipv6 f.dst = []) →
        Yields (.frameReceive p k f) s fun t =>
          OnlyNet s t ∧ { t.net with subs := s.net.subs } = s.net ∧ SubCounted s t p k 2 ∧ SubCounted s t p k 3 ∧ OnlySub s t p k)
    ∧ (∀ (mib : Nat) (s : State),
        Yields (.spillReturn mib) s fun t =>
          ∃ a b, s.net.spill = a ++ b ∧ t.net.spill = b ∧ t.net.sram = s.net.sram ++ a ∧ (a.map (·.bytes)).sum ≤ mib * 2 ^ 20
            ∧ (∀ f l, b = f :: l → mib * 2 ^ 20 < (a.map (·.bytes)).sum + f.bytes) ∧ t.media = s.media)
    ∧ (∀ (i : Fin 256) (ms : BitVec 32) (s : State), s.net.xoff = true → 10 ≤ ms.toNat → s.enabled i.val = true → s.rxWithin i.val = true →
        (∀ b ∈ s.inst.breaches, b.cause ≠ 4) →
        Yields (.receivePauseBreach i ms) s fun t =>
          t.inst.breaches = s.inst.breaches ++ [⟨s.inst.noticeSeq + 1, 4, 4, s.timeNs, ms.toNat, [i.val]⟩] ∧ t.inst.noticeSeq = s.inst.noticeSeq + 1 ∧ t.media = s.media)
    ∧ (∀ (p : Fin 2) (k : Fin 4) (m : BitVec 8) (s : State), LinkOk s p k →
        Yields (.pfcPauseReceive p k m) s fun t =>
          OnlyNet s t ∧ SubCounted s t p k 5 ∧ OnlySub s t p k ∧ { t.net with subs := s.net.subs } = s.net
            ∧ ∀ n, n < 8 → KV.get? (t.subOf p.val k.val).paused n =
                if (s.cfg (Pg.NET p.val) Fd.NET_PFC_CTRL_LOSSLESS).testBit n && m.getLsbD n then some (KV.getD s.now (s.subOf p.val k.val).paused n) else none)
    ∧ (∀ (p : Fin 2) (k : Fin 4) (n : Fin 8) (s : State) (a : Nat), Awake s → KV.get? (s.subOf p.val k.val).paused n.val = some a →
        KV.get? (s.subOf p.val k.val).ignored n.val = none →
        Yields (.pfcWatchdogFire p k n) s fun t =>
          t.now = max s.now (a + 1000000 * s.cfg (Pg.NET p.val) Fd.NET_PFC_CTRL_WD_MS)
            ∧ KV.get? (t.subOf p.val k.val).ignored n.val = some (t.now + 1000000000) ∧ (t.subOf p.val k.val).paused = (s.subOf p.val k.val).paused
            ∧ OnlySub s t p k ∧ Logged s t (Pg.NET p.val) 0x0404 .notice ∧ (t.page (Pg.NET p.val)).evRaw.testBit 11 = true)
    ∧ (∀ (p : Fin 2) (k : Fin 4) (n : Fin 8) (s : State) (a : Nat), KV.get? (s.subOf p.val k.val).ignored n.val = some a →
        Yields (.pfcWatchdogRearm p k n) s fun t =>
          OnlyNet { s with now := max s.now a } t ∧ OnlySub s t p k ∧ KV.get? (t.subOf p.val k.val).ignored n.val = none
            ∧ KV.get? (t.subOf p.val k.val).paused n.val = (KV.get? (s.subOf p.val k.val).paused n.val).map fun _ => t.now)
    ∧ (∀ (p : Fin 2) (k : Fin 4) (v : BitVec 12) (six : Bool) (addr : List Byte) (s : State), LinkOk s p k → s.localEntries p.val k.val v.toNat six addr ≠ [] →
        Yields (.arpNdRequest p k v six addr) s fun t => t = { s with out := .arpReply p.val k.val (sliceB addr 0 16) :: s.out })
    ∧ ∀ (p : Fin 2) (k : Fin 4) (v : BitVec 12) (six : Bool) (addr : List Byte) (s : State), LinkOk s p k →
        Yields (.icmpEchoRequest p k v six addr) s fun t =>
          t = if ∃ e ∈ s.localEntries p.val k.val v.toNat six addr, entryFlag e.2 2 = true then { s with out := .icmpReply p.val k.val (sliceB addr 0 16) :: s.out }
            else s

/-- Link state (R25, R83, R104): degradation is logged as it comes and goes; a fault threshold takes the sub-link down for its self-test, which either leaves it to retrain in 1 s or fails the
port; retrains back off to 60 s; a link comes up with the equalisation its lanes trained, which is kept until EQ_CLEAR.
Readings of the model: log entry 65. -/
def Obligations.LinkStates : Prop :=
  (∀ (p : Fin 2) (k : Fin 4) (s : State), Awake s → LinkOk s p k → (s.subOf p.val k.val).degraded = false →
      Yields (.sublinkDegradedSet p k) s fun t =>
        t.subOf p.val k.val = { s.subOf p.val k.val with degraded := true } ∧ OnlySub s t p k ∧ Logged s t (Pg.NET p.val) 0x0402 .notice ∧ t.mode = s.mode ∧ t.media = s.media)
    ∧ (∀ (p : Fin 2) (k : Fin 4) (s : State), Awake s → (s.subOf p.val k.val).degraded = true →
        Yields (.sublinkDegradedClear p k) s fun t =>
          t.subOf p.val k.val = { s.subOf p.val k.val with degraded := false } ∧ OnlySub s t p k ∧ Logged s t (Pg.NET p.val) 0x0402 .notice ∧ t.mode = s.mode ∧ t.media = s.media)
    ∧ (∀ (p : Fin 2) (k : Fin 4) (s : State) (c : Instr), LinkOk s p k →
        c = .uncorrectableThreshold p k ∨ (∃ lane : Fin 8, c = .laneLockTimeout p k lane ∧ lane.val / s.subLanes p.val = k.val) →
        Yields c s fun t =>
          (t.subOf p.val k.val).up = false ∧ (t.subOf p.val k.val).selftest = true ∧ (t.subOf p.val k.val).paused = [] ∧ OnlySub s t p k
            ∧ (t.page (Pg.NET p.val)).evRaw.testBit 8 = true ∧ t.fence = s.fence ∧ t.mode = s.mode)
    ∧ (∀ (p : Fin 2) (k : Fin 4) (s : State), Awake s → (s.subOf p.val k.val).selftest = true →
        (Yields (.portSelftestEnd p k true) s fun t =>
          t.subOf p.val k.val = { s.subOf p.val k.val with selftest := false, retrainAt := some (s.now + 1000000000), backoff := 2 } ∧ OnlySub s t p k
            ∧ Logged s t (Pg.NET p.val) 0x0403 .notice ∧ t.fence = s.fence ∧ t.mode = s.mode)
        ∧ Yields (.portSelftestEnd p k false) s fun t => p.val ∈ t.fence.ports ∧ t.now = s.now)
    ∧ (∀ (p : Fin 2) (k : Fin 4) (s : State) (a : Nat), (s.subOf p.val k.val).retrainAt = some a → s.mayLink p.val k.val = true →
        (Yields (.sublinkRetrain p k true) s fun t =>
          t.now = max s.now a ∧ (t.subOf p.val k.val).up = true ∧ (t.subOf p.val k.val).retrainAt = none ∧ (t.subOf p.val k.val).backoff = 1 ∧ OnlySub s t p k ∧ t.mode = s.mode)
        ∧ Yields (.sublinkRetrain p k false) s fun t =>
          OnlyNet { s with now := max s.now a } t ∧ OnlySub s t p k
            ∧ t.subOf p.val k.val = { s.subOf p.val k.val with
                retrainAt := some (max s.now a + 1000000000 * (s.subOf p.val k.val).backoff), backoff := min 60 (2 * (s.subOf p.val k.val).backoff) })
    ∧ (∀ (p : Fin 2) (k : Fin 4) (eq : List Word) (s : State), Awake s → s.mayLink p.val k.val = true → (s.subOf p.val k.val).up = false →
        Yields (.sublinkLinkUp p k eq) s fun t =>
          (t.subOf p.val k.val).up = true ∧ OnlySub s t p k ∧ Logged s t (Pg.NET p.val) 0x0401 .notice ∧ (t.page (Pg.NET p.val)).evRaw.testBit 8 = true ∧ t.mode = s.mode
            ∧ ∀ i, i < s.subLanes p.val → KV.getD 0 t.net.eq (8 * p.val + s.subLanes p.val * k.val + i) = (eq.getD i 0).toNat)
    ∧ (∀ (p : Fin 2) (k : Fin 4) (s : State), Awake s → (s.subOf p.val k.val).up = true →
        Yields (.sublinkLinkDown p k) s fun t =>
          t.subOf p.val k.val = { s.subOf p.val k.val with up := false, paused := [], ignored := [] } ∧ OnlySub s t p k
            ∧ Logged s t (Pg.NET p.val) 0x0401 .notice ∧ (t.page (Pg.NET p.val)).evRaw.testBit 8 = true ∧ t.net.eq = s.net.eq ∧ t.mode = s.mode)
    ∧ ∀ (path : Path) (p : Fin 2) (s : State), Reached s path (Pg.NET p.val) 0x420 →
        Yields (.eqClear path p) s fun t =>
          { t with ctl := s.ctl, net := s.net } = s ∧ { t.net with eq := s.net.eq } = s.net
            ∧ t.net.eq = s.net.eq.filter (fun e => e.1 / 8 ≠ p.val)

/-- Transports and the rate controller (R84, R88, R90, R91, R95): a frame leaves with its tokens; data is acknowledged, with the congestion echo that is owed; timeouts retransmit until the
limit, where the connection is given up; the factor alpha decays, a signal cuts the rate by alpha / 2 down to RMIN, an increase goes half way to the target.
Readings of the model: log entry 63. -/
def Obligations.TransportsAndRates : Prop :=
  (∀ (n bytes : Nat) (c : Conn) (p : Fin 2) (k : Fin 4) (s : State), s.conn? n = some c → c.port = p.val → c.sub = k.val → LinkOk s p k → s.canSend c = true →
      (∀ e ∈ s.net.conns, e.2.port = c.port → e.2.sub = c.sub → s.canSend e.2 = true → s.classRank e.2 ≤ s.classRank c) →
      s.cfg (Pg.NET p.val) Fd.NET_NET_CTRL_MACSEC_MODE = 0 → 0 < bytes → bytes ≤ c.waiting → bytes ≤ 65536 → c.sent + bytes < 2 ^ 26 →
      Yields (.frameTransmit n bytes) s fun t =>
        t.out = .frame n bytes :: s.out ∧ t.now = max s.now (c.tokensBy bytes) ∧ { t with out := s.out, now := s.now, net := s.net } = s
          ∧ { t.net with conns := s.net.conns } = s.net ∧ (∀ m, m ≠ n → t.conn? m = s.conn? m)
          ∧ t.conn? n = some { c with waiting := c.waiting - bytes, sent := c.sent + bytes, tokens := c.tokensNow t.now - bytes, tokensAt := t.now })
    ∧ (∀ (n bytes : Nat) (f : PktFlags) (c : Conn) (s : State), s.conn? n = some c → c.roce = false → s.isUp Dom.NETCORE = true → c.reqTls = false →
        c.phase = .established → 0 < bytes → f.ece = false → f.rttHigh = false → f.dupAck = false →
        Yields (.tcpSegmentReceive n f bytes) s fun t =>
          t.out = .ack n (c.eceOwed || (f.ce && c.ecn)) :: s.out ∧ { t with out := s.out, net := s.net } = s ∧ t.net.sram = dropFirst n s.net.sram
            ∧ t.conn? n = some { c with timeouts := 0, dupAcks := 0, eceOwed := false } ∧ ∀ m, m ≠ n → t.conn? m = s.conn? m)
    ∧ (∀ (n : Nat) (c : Conn) (s : State), s.conn? n = some c → c.roce = false →
        Yields (.tcpRetransmitTimeout n) s fun t =>
          if c.timeouts + 1 < s.cfg Pg.NETX Fd.NETX_TCP_TIMER_RETRIES then
            t.out = .retransmit n :: s.out ∧ ∃ c', t.conn? n = some c' ∧ c'.timeouts = c.timeouts + 1 ∧ c'.phase = c.phase
          else .reset n ∈ t.out ∧ t.conn? n = none)
    ∧ (∀ (n : Nat) (c : Conn) (s : State), s.conn? n = some c → c.roce = true → s.isUp Dom.NETCORE = true →
        (Yields (.rocePacketReceive n (.data false)) s fun t =>
          t.out = .ack n false :: s.out ∧ OnlyNet { s with out := t.out } t ∧ t.net.sram = dropFirst n s.net.sram ∧ t.net.conns = s.net.conns)
        ∧ (Yields (.rocePacketReceive n .ack) s fun t => OnlyNet s t ∧ t.conn? n = some { c with retries := 0, rnr := 0 })
        ∧ (Yields (.rocePacketReceive n .nakSequence) s fun t => t.out = .retransmit n :: s.out ∧ t.net = s.net ∧ Counted s t Pg.NETX Fd.NETX_CNT_COUNT 2)
        ∧ (c.rnr < s.cfg Pg.NETX Fd.NETX_ROCE_TIMER_RNR_RETRY →
            Yields (.rocePacketReceive n .rnrNak) s fun t => t.out = .retransmit n :: s.out ∧ t.conn? n = some { c with rnr := c.rnr + 1 })
        ∧ ((∀ a, c.lastCut = some a → a + 1000 * s.cfg Pg.NETX Fd.NETX_RC3_T_CUT ≤ s.now) →
            Yields (.rocePacketReceive n .cnp) s fun t =>
              t.out = s.out ∧ Counted s t Pg.NETX Fd.NETX_CNT_COUNT 5
                ∧ ∃ c', t.conn? n = some c' ∧ c'.target = c.rate ∧ c'.stage = 0 ∧ c'.lastCut = some s.now ∧ c'.waiting = c.waiting
                  ∧ c'.rate = max (s.cfg Pg.NETX Fd.NETX_RC3_RMIN : Rat) (c.rate * (1 - c.alpha / 2))
                  ∧ c'.alpha = (1 - 1 / ((2 ^ s.cfg Pg.NETX Fd.NETX_RC1_G_LOG2 : Nat) : Rat)) * c.alpha + 1 / ((2 ^ s.cfg Pg.NETX Fd.NETX_RC1_G_LOG2 : Nat) : Rat)))
    ∧ (∀ (n : Nat) (c : Conn) (s : State), s.conn? n = some c → c.roce = true →
        Yields (.roceAckTimeout n) s fun t =>
          if c.retries < s.cfg Pg.NETX Fd.NETX_ROCE_TIMER_RETRY then t.out = .retransmit n :: s.out ∧ t.conn? n = some { c with retries := c.retries + 1 }
          else .reset n ∈ t.out ∧ t.conn? n = none)
    ∧ (∀ (n : Nat) (c : Conn) (s : State), s.conn? n = some c →
        Yields (.alphaTimerExpiry n) s fun t =>
          OnlyNet { s with now := max s.now c.alphaDue } t ∧ (∀ m, m ≠ n → t.conn? m = s.conn? m)
            ∧ t.conn? n = some { c with
                alpha := (1 - 1 / ((2 ^ s.cfg Pg.NETX Fd.NETX_RC1_G_LOG2 : Nat) : Rat)) * c.alpha
                alphaDue := max s.now c.alphaDue + 1000 * s.cfg Pg.NETX Fd.NETX_RC1_T_ALPHA })
    ∧ ∀ (n : Nat) (c : Conn) (s : State), s.conn? n = some c →
        Yields (.incTimerExpiry n) s fun t =>
          OnlyNet { s with now := max s.now c.incDue } t ∧ (∀ m, m ≠ n → t.conn? m = s.conn? m)
            ∧ ∃ c', t.conn? n = some c' ∧ c'.stage = c.stage + 1 ∧ c'.sent = 0 ∧ c'.rate = (c.rate + c'.target) / 2
              ∧ c'.incDue = max s.now c.incDue + 1000 * s.cfg Pg.NETX Fd.NETX_RC1_T_INC
              ∧ (c.stage + 1 ≤ s.cfg Pg.NETX Fd.NETX_RC3_F → c'.target = c.target)
              ∧ (s.cfg Pg.NETX Fd.NETX_RC3_F < c.stage + 1 → c.stage + 1 ≤ 2 * s.cfg Pg.NETX Fd.NETX_RC3_F →
                  c'.target = min (s.lineRate c.port : Rat) (c.target + (s.cfg Pg.NETX Fd.NETX_RC2_RAI : Nat)))

/-- Pulled data and the connection's opening PDU (R87, R113, R133): the module asks for write data in pieces of at most 128 KiB within its credit, takes what lies in a range it asked for,
and ends the connection for what does not.
Readings of the model: log entry 64. -/
def Obligations.PulledData : Prop :=
  (∀ (n cn : Nat) (roce : Bool) (x : Ctx) (c : Conn) (s : State), s.ctx? n = some x → s.ctxConn x = some (cn, c) → c.roce = roce → x.asked < x.expected →
      x.state = .admitted → (roce = false → x.open_.length < max 1 c.maxr2t) → min 131072 (x.expected - x.asked) ≤ s.rxCredit x.inst →
      Yields (if roce then .rdmaReadIssue n else .readyToTransferSend n) s fun t =>
        { t with out := s.out, cmd := { t.cmd with ctxs := s.cmd.ctxs } } = s ∧ (∀ m, m ≠ n → t.ctx? m = s.ctx? m)
          ∧ t.out = (if roce then .rdmaRead cn n x.asked (min 131072 (x.expected - x.asked)) else .r2t cn n x.asked (min 131072 (x.expected - x.asked))) :: s.out
          ∧ t.ctx? n = some { x with
              asked := x.asked + min 131072 (x.expected - x.asked), open_ := x.open_ ++ [(x.asked, min 131072 (x.expected - x.asked))]
              xferDue := some (s.now + 1000000 * s.cfg Pg.CMD Fd.CMD_XFER_TIMEOUT_MS) })
    ∧ (∀ (n cn : Nat) (off o len : Nat) (rest : List (Nat × Nat)) (data : List Byte) (x : Ctx) (c : Conn) (s : State), s.ctx? n = some x → s.ctxConn x = some (cn, c) →
        x.open_ = (o, len) :: rest → o ≤ off → off + data.length ≤ o + len → 0 < data.length → data.length < len →
        Yields (.writeDataReceive n off data true) s fun t =>
          { t with cmd := { t.cmd with ctxs := s.cmd.ctxs } } = s ∧ (∀ m, m ≠ n → t.ctx? m = s.ctx? m)
            ∧ t.ctx? n = some { x with
                got := putB x.got off data
                open_ := (if o < off then [(o, off - o)] else []) ++ (if off + data.length < o + len then [(off + data.length, o + len - (off + data.length))] else []) ++ rest })
    ∧ (∀ (n cn : Nat) (off : Nat) (data : List Byte) (x : Ctx) (c : Conn) (s : State), s.ctx? n = some x → s.ctxConn x = some (cn, c) → data ≠ [] →
        (∀ r ∈ x.open_, ¬ (r.1 ≤ off ∧ off + data.length ≤ r.1 + r.2)) →
        Yields (.writeDataReceive n off data true) s fun t => .termReq cn 4 ∈ t.out ∧ t.conn? cn = none)
    ∧ (∀ (n off : Nat) (data : List Byte) (wf : Bool) (s : State), s.ctx? n = none → n ∈ s.cmd.retired →
        Yields (.writeDataReceive n off data wf) s fun t =>
          OnlyCtl s t ∧ t.ctl.pages = s.ctl.pages ∧ t.cfgAt Pg.CMD Fd.CMD_CNT_COUNT 5 = (s.cfgAt Pg.CMD Fd.CMD_CNT_COUNT 5 + data.length) % 2 ^ 32)
    ∧ (∀ (n : Nat) (h d : Bool) (r : Nat) (c : Conn) (s : State), s.conn? n = some c → c.roce = false → c.icDone = false → c.reqTls = false ∨ c.tls = .done →
        c.phase = .established →
        Yields (.icreqReceive n 0 0 h d r) s fun t =>
          t.out = .icResp n h d :: s.out ∧ { t with out := s.out, net := s.net } = s ∧ { t.net with conns := s.net.conns } = s.net
            ∧ t.conn? n = some { c with icDone := true, hdgst := h, ddgst := d, maxr2t := r + 1 } ∧ ∀ m, m ≠ n → t.conn? m = s.conn? m)
    ∧ ∀ (n pfv hpda : Nat) (h d : Bool) (r : Nat) (c : Conn) (s : State), s.conn? n = some c → c.roce = false → c.icDone = false → c.reqTls = false ∨ c.tls = .done →
        pfv ≠ 0 ∨ hpda ≠ 0 → Yields (.icreqReceive n pfv hpda h d r) s fun t => (∃ fes, .termReq n fes ∈ t.out) ∧ t.conn? n = none

/-- Admission of connections (R96 to R103): the rule of the highest priority, of these that of the lowest index, decides; an attempt that it allows opens a connection bound to it, by cookie
without state where cookies are in use; what no rule matches and what a rule refuses is dropped and counted; TLS ends or fails its connection; a source held off is let in again at its time.
Readings of the model: log entry 66. -/
def Obligations.ConnectionAdmission : Prop :=
  (∀ (a : Attempt) (n : Nat) (r : List Byte) (s : State), s.ruleFor a = some (n, r) →
      (n, r) ∈ s.net.rules ∧ ruleMatches r a = true
        ∧ ∀ e ∈ s.net.rules, ruleMatches e.2 a = true → rulePrio e.2 ≤ rulePrio r ∧ (KV.risingFrom 0 s.net.rules = true → rulePrio e.2 = rulePrio r → n ≤ e.1))
    ∧ (∀ (a : Attempt) (n : Nat) (r e : List Byte) (s : State), a.roce = false → Admissible s a n r e → 1000000 ≤ s.bucketNow (ruleByte r 0x1D % 16) →
        s.net.cookies = false → s.cfg Pg.NETX Fd.NETX_CONN_COOKIE_ALWAYS ≠ 1 → s.halfOpen ≤ s.cfg Pg.NETX Fd.NETX_CONN_COOKIE_AT →
        Yields (.tcpSynReceive a) s fun t =>
          .synAck s.net.nextConn none ∈ t.out ∧ t.net.nextConn = s.net.nextConn + 1 ∧ (∀ m, m ≠ s.net.nextConn → (t.conn? m).map (·.phase) = (s.conn? m).map (·.phase))
            ∧ Counted s t Pg.CLS Fd.CLS_CNT_COUNT 0 ∧ ∃ c, t.conn? s.net.nextConn = some c ∧ Opened c a n r .halfOpen)
    ∧ (∀ (a : Attempt) (n : Nat) (r e : List Byte) (s : State), a.roce = false → Admissible s a n r e → 1000000 ≤ s.bucketNow (ruleByte r 0x1D % 16) →
        s.net.cookies = true → s.cfg Pg.NETX Fd.NETX_CONN_COOKIE_ALWAYS = 1 →
        Yields (.tcpSynReceive a) s fun t =>
          t.out = .synAck 0 (some (Config.synCookie s.net.cookieEpoch (cookieBytes a))) :: s.out ∧ t.net.conns = s.net.conns
            ∧ Counted s t Pg.CLS Fd.CLS_CNT_COUNT 0 ∧ Counted s t Pg.CLS Fd.CLS_CNT_COUNT 6)
    ∧ (∀ (a : Attempt) (e : List Byte) (s : State), a.roce = false → s.serving = true → LinkOk s a.port a.sub → s.cmd.drainStopped = false → s.heldOff a.src = false →
        s.attemptEntry a = some e → s.ruleFor a = none →
        Yields (.tcpSynReceive a) s fun t => OnlyCtl s t ∧ Counted s t Pg.CLS Fd.CLS_CNT_COUNT 2)
    ∧ (∀ (a : Attempt) (n : Nat) (r e : List Byte) (s : State), a.roce = true → Admissible s a n r e → 1000000 ≤ s.bucketNow (ruleByte r 0x1D % 16) → s.halfOpen < 65536 →
        Yields (.roceConnectRequest a) s fun t =>
          { t with net := s.net, ctl := s.ctl } = s ∧ Counted s t Pg.CLS Fd.CLS_CNT_COUNT 0 ∧ (∀ m, m ≠ s.net.nextConn → t.conn? m = s.conn? m)
            ∧ ∃ c, t.conn? s.net.nextConn = some c ∧ Opened c a n r .established)
    ∧ (∀ (a : Attempt) (n : Nat) (r e : List Byte) (s : State), a.roce = false → Admissible s a n r e →
        Yields (.synCookieAck a (Config.synCookie s.net.cookieEpoch (cookieBytes a))) s fun t =>
          { t with net := s.net, ctl := s.ctl } = s ∧ Counted s t Pg.CLS Fd.CLS_CNT_COUNT 7 ∧ (∀ m, m ≠ s.net.nextConn → t.conn? m = s.conn? m)
            ∧ ∃ c, t.conn? s.net.nextConn = some c ∧ Opened c a n r .established ∧ c.wscale = a.timestamps)
    ∧ (∀ s : State, s.isUp Dom.NETCORE = true →
        Yields .cookieKeyRotate s fun t =>
          t = { s with now := max s.now s.net.cookieDue, net := { s.net with cookieEpoch := s.net.cookieEpoch + 1, cookieDue := s.net.cookieDue + 64000000000 } })
    ∧ (∀ (src : List Byte) (s : State) (u : Nat), s.net.holdoff.find? (fun e => e.1 = src) = some (src, u) →
        Yields (.holdoffExpiry src) s fun t =>
          t.now = max s.now u ∧ t.heldOff src = false ∧ { t with now := s.now, net := { t.net with holdoff := s.net.holdoff } } = s
            ∧ t.net.holdoff = s.net.holdoff.filter fun e => e.1 ≠ src)
    ∧ (∀ (n : Nat) (a128 p384 : Bool) (c : Conn) (s : State), s.conn? n = some c → c.roce = false → c.tls = .none → c.icDone = false → c.phase = .established →
        s.cfg Pg.NETX Fd.NETX_TLS_AES256 = 1 → s.cfg Pg.NETX Fd.NETX_TLS_X25519 = 1 →
        (Yields (.tlsClientHello n true a128 true p384 true (some true)) s fun t =>
          t.out = .tls n 0 :: s.out ∧ OnlyNet { s with out := t.out } t ∧ t.conn? n = some { c with tls := .done })
        ∧ (Yields (.tlsClientHello n true a128 true p384 true none) s fun t =>
          t.out = .tls n 0 :: s.out ∧ OnlyNet { s with out := t.out } t ∧ t.conn? n = some { c with tls := .handshake, tlsDue := some (s.now + 10000000000) })
        ∧ Yields (.tlsClientHello n true a128 true p384 false none) s fun t => .tls n 1 ∈ t.out ∧ t.conn? n = none)
    ∧ (∀ (n d : Nat) (c : Conn) (s : State), s.conn? n = some c → c.tls = .handshake → c.tlsDue = some d →
        Yields (.tlsHandshakeTimeout n) s fun t => t.now = max s.now d ∧ .tls n 1 ∈ t.out ∧ t.conn? n = none)
    ∧ (∀ (n : Nat) (c : Conn) (s : State), s.conn? n = some c → c.tls = .done →
        Yields (.tlsKeyUpdate n) s fun t => t.out = .tls n 2 :: s.out ∧ OnlyNet { s with out := t.out } t ∧ t.conn? n = some { c with keyUpdates := c.keyUpdates + 1 })
    ∧ ∀ (path : Path) (idx : BitVec 13) (s : State), Reached s path Pg.CLS 0x64 →
        Yields (.ruleRevoke path idx) s fun t =>
          (∀ n c, s.conn? n = some c → c.rule = idx.toNat → t.conn? n = none) ∧ (t.page Pg.CLS).evRaw.testBit 10 = true ∧ t.net.rules = s.net.rules

/-! ## Associations, admin commands, namespaces and firmware -/

/-- Connect, properties, authentication and Disconnect (R102, R111, R114, R135, R461): an association begins on the admin queue, and on a controller that is ready its I/O queues;
a Connect that names another instance closes the connection; CC.EN makes the controller ready or resets it; the host's messages move the authentication on, and a failure ends the association;
Disconnect ends the association or the one queue.
Readings of the model: log entries 67, 68, 69, 70. -/
def Obligations.AssociationsAndProperties : Prop :=
  (∀ (conn entries kato host ctrl : Nat) (sub : Option (Fin 256)) (c : Conn) (s : State), ConnectOk s conn c sub → 2 ≤ entries → entries ≤ 32 →
      (s.ctrlsOf c.inst).length < 16 →
      Yields (.connect conn sub 0 entries kato host ctrl) s fun t =>
        t.conn? conn = some { c with ctrl := some s.cmd.nextCtrl, qid := 0 } ∧ (∀ n, n ≠ conn → t.conn? n = s.conn? n)
          ∧ t.out = .connect conn ⟨0, 0, false⟩ (s.cmd.nextCtrl % 2 ^ 16 + if c.reqAuth then 2 ^ 17 else 0) :: s.out
          ∧ (∀ n, n ≠ s.cmd.nextCtrl → t.ctrl? n = s.ctrl? n) ∧ { t with out := s.out, ctl := s.ctl, cmd := s.cmd, net := s.net, pwr := s.pwr } = s
          ∧ ∃ k, t.ctrl? s.cmd.nextCtrl = some k ∧ k.inst = c.inst ∧ k.conn = conn ∧ k.host = host ∧ k.rdy = false ∧ k.cc = 0 ∧ k.authed = false ∧ k.queues = []
            ∧ k.katoMs = (if kato = 0 ∨ 1000 * s.cfg Pg.CMD Fd.CMD_KATO_MAX_S < kato then 1000 * s.cfg Pg.CMD Fd.CMD_KATO_MAX_S else max kato 1000)
            ∧ k.kaDue = some (s.now + 1000000 * k.katoMs))
    ∧ (∀ (conn qid entries kato host ctrl : Nat) (sub : Option (Fin 256)) (c : Conn) (k : Ctrl) (s : State), ConnectOk s conn c sub → 2 ≤ entries → entries ≤ 1024 →
        0 < qid → qid ≤ 64 → s.ctrl? ctrl = some k → k.inst = c.inst → k.disc = false → k.host = host →
        (s.ctrlsOf c.inst).foldl (fun n e => n + e.2.queues.length) 0 < 64 → c.reqAuth = false ∨ k.authed = true →
        k.rdy = true → k.resetting = false → KV.get? k.queues qid = none →
        Yields (.connect conn sub qid entries kato host ctrl) s fun t =>
          t.conn? conn = some { c with ctrl := some ctrl, qid := qid } ∧ t.out = .connect conn ⟨0, 0, false⟩ (ctrl % 2 ^ 16) :: s.out
            ∧ ∃ k', t.ctrl? ctrl = some k' ∧ KV.get? k'.queues qid = some ⟨conn, entries, .medium, .medium, []⟩
              ∧ (∀ q, q ≠ qid → KV.get? k'.queues q = KV.get? k.queues q) ∧ { k' with queues := k.queues, kaDue := k.kaDue } = k)
    ∧ (∀ (conn qid entries kato host ctrl : Nat) (sub : Option (Fin 256)) (c : Conn) (s : State), s.conn? conn = some c → s.serving = true → c.phase ≠ .closed →
        (c.reqTls = true → c.tls = .done) → (c.roce = true ∨ c.icDone = true) → s.cmd.drainStopped = false → s.cmd.act = .idle → c.disc = false →
        (s.instOf c.inst).resetting = false → (∀ i, sub = some i → i.val ≠ c.inst) →
        Yields (.connect conn sub qid entries kato host ctrl) s fun t =>
          t.out = .connect conn ⟨1, 0x84, true⟩ 0 :: s.out ∧ t.conn? conn = none ∧ t.cmd = s.cmd)
    ∧ (∀ (cap : Cap) (off : Nat) (k : Ctrl) (s : State), AdminFree s cap k → AuthMet s k →
        Yields (.propertyGet cap off) s fun t => OnlyCompletion s t
          ∧ (off = 0x14 → Completed t cap ⟨0, 0, false⟩ (k.cc % 2 ^ 32)) ∧ (off = 0x1C → Completed t cap ⟨0, 0, false⟩ ((k.rdy.toNat + 4 * k.shst) % 2 ^ 32))
          ∧ (off ∉ [0x00, 0x08, 0x14, 0x1C] → Completed t cap ⟨0, 0x02, true⟩ 0))
    ∧ (∀ (cap : Cap) (v : Dword) (k : Ctrl) (s : State), AdminFree s cap k → AuthMet s k → bitsOf (v.toNat % 2 ^ 32) 13 11 ≤ 1 → k.resetting = false →
        (v.getLsbD 0 = true → k.cc.testBit 0 = false →
          Yields (.propertySet cap 0x14 v) s fun t =>
            Completed t cap ⟨0, 0, false⟩ 0 ∧ OnlyCompletion s t
              ∧ ∃ k', t.ctrl? cap.ctrl = some k' ∧ k'.rdy = true ∧ k'.cc = v.toNat % 2 ^ 32 ∧ k'.queues = k.queues ∧ k'.epoch = k.epoch)
        ∧ (v.getLsbD 0 = false → k.cc.testBit 0 = true →
          Yields (.propertySet cap 0x14 v) s fun t =>
            Answered t cap ⟨0, 0, false⟩ 0
              ∧ ∃ k', t.ctrl? cap.ctrl = some k' ∧ k'.resetting = true ∧ k'.closing = false ∧ k'.queues = [] ∧ k'.aers = [] ∧ k'.epoch = nextGen k.epoch))
    ∧ (∀ (cap : Cap) (hash group : Nat) (resp : List Byte) (ch : Option Nat) (k : Ctrl) (s : State), AdminFree s cap k →
        (s.authEnabled hash group = true →
          Yields (.authenticationSend cap 0 hash group resp ch) s fun t =>
            Completed t cap ⟨0, 0, false⟩ 0
              ∧ ∃ k', t.ctrl? cap.ctrl = some k' ∧ k'.authStep = 1 ∧ k'.authHash = hash ∧ k'.authGroup = group ∧ k'.authed = k.authed)
        ∧ (k.authStep = 1 →
          Yields (.authenticationSend cap 1 hash group resp ch) s fun t =>
            ∃ k', t.ctrl? cap.ctrl = some k' ∧
              if ∃ key ∈ s.authKeys k.inst k.host, Config.chapResponse k.authHash k.authGroup key k.authChal = resp then
                Completed t cap ⟨0, 0, false⟩ 0 ∧ k'.authed = true ∧ k'.authStep = 2
              else .auth cap.ctrl 0xF0 [] ∈ t.out ∧ k'.closing = true ∧ k'.resetting = true ∧ k'.authed = k.authed))
    ∧ (∀ (cap : Cap) (k : Ctrl) (s : State), AdminFree s cap k →
        (k.authStep = 1 →
          Yields (.authenticationReceive cap) s fun t => OnlyCompletion s t ∧ Completed t cap ⟨0, 0, false⟩ 0
            ∧ .auth cap.ctrl 1 (BitVec.ofNat 8 k.authHash :: BitVec.ofNat 8 k.authGroup :: leBytes 64 k.authChal) ∈ t.out)
        ∧ (k.authStep = 0 → Yields (.authenticationReceive cap) s fun t => OnlyCompletion s t ∧ Completed t cap ⟨0, 0x0C, true⟩ 0))
    ∧ (∀ (cap : Cap) (k : Ctrl) (s : State), AdminFree s cap k → AuthMet s k →
        Yields (.disconnect cap) s fun t =>
          Answered t cap ⟨0, 0, false⟩ 0 ∧ t.conn? k.conn = none
            ∧ ∃ k', t.ctrl? cap.ctrl = some k' ∧ k'.closing = true ∧ k'.resetting = true ∧ k'.queues = [] ∧ k'.kaDue = none)
    ∧ ∀ (cap : Cap) (k : Ctrl) (q : IoQueue) (s : State), s.ctrl? cap.ctrl = some k → cap.qid ≠ 0 → KV.get? k.queues cap.qid = some q → s.cmd.drainStopped = false →
        k.resetting = false → (s.instOf k.inst).resetting = false → s.cmd.act = .idle → q.waiting = [] →
        Yields (.disconnect cap) s fun t =>
          Answered t cap ⟨0, 0, false⟩ 0 ∧ t.conn? q.conn = none ∧ ∃ k', t.ctrl? cap.ctrl = some k' ∧ KV.get? k'.queues cap.qid = none ∧ k'.closing = k.closing

/-- Admin commands that read and set a controller (R119, R126, R130, R131, R160, R414, R426): their completions, and what alone each changes.
Readings of the model: log entries 72, 74, 75, 76. -/
def Obligations.LogsFeaturesAndEvents : Prop :=
  (∀ (cap : Cap) (off len : Nat) (k : Ctrl) (s : State), AdminOk s cap k → k.inst = 0 → off % 64 = 0 → len % 4 = 0 → 0 < len → len ≤ 2 ^ 21 →
      Yields (.getLogPage cap 0xC0 off len true) s fun t => OnlyCompletion s t
        ∧ ∃ rest, t.out = .completion cap.ctrl 0 cap.cid ⟨0, 0, false⟩ 0 0 :: .data cap.ctrl 0 cap.cid ((s.charged cap k).logPageC0 off len) :: rest)
    ∧ (∀ (cap : Cap) (cns : BitVec 8) (nsid : Nat) (k : Ctrl) (s : State), AdminOk s cap k →
        Yields (.identify cap cns nsid) s fun t => OnlyCompletion s t
          ∧ match (s.charged cap k).identifyData cap.ctrl cns.toNat nsid k with
            | .ok l => ∃ rest, t.out = .completion cap.ctrl 0 cap.cid ⟨0, 0, false⟩ 0 0 :: .data cap.ctrl 0 cap.cid l :: rest
            | .error st => st ≠ ⟨0, 0, false⟩ → Completed t cap st 0)
    ∧ (∀ (cap : Cap) (k : Ctrl) (s : State), AdminOk s cap k →
        Yields (.keepAlive cap) s fun t => OnlyCompletion s t ∧ Completed t cap ⟨0, 0, false⟩ 0
          ∧ t.ctrl? cap.ctrl = some { k with kaDue := k.kaDue.map fun _ => s.now + 1000000 * k.katoMs })
    ∧ (∀ (cap : Cap) (w w12 : Word) (k : Ctrl) (s : State), AdminOk s cap k →
        (∀ fid : BitVec 8, Yields (.setFeatures cap fid w w12 true) s fun t => OnlyCompletion s t ∧ Completed t cap ⟨1, 0x0D, true⟩ 0
          ∧ ∃ k', t.ctrl? cap.ctrl = some k' ∧ k'.features = k.features ∧ k'.arb = k.arb ∧ k'.aerCfg = k.aerCfg ∧ k'.katoMs = k.katoMs)
        ∧ (Yields (.setFeatures cap 0x01 w w12 false) s fun t => OnlyCompletion s t ∧ Completed t cap ⟨0, 0, false⟩ 0
          ∧ ∃ k', t.ctrl? cap.ctrl = some k' ∧ k'.arb = w.toNat ∧ k'.features = k.features)
        ∧ (Yields (.setFeatures cap 0x0B w w12 false) s fun t => OnlyCompletion s t ∧ Completed t cap ⟨0, 0, false⟩ 0
          ∧ ∃ k', t.ctrl? cap.ctrl = some k' ∧ k'.aerCfg = w.toNat ∧ k'.features = k.features)
        ∧ (∀ q, KV.get? k.queues (w.toNat % 65536) = some q →
          Yields (.setFeatures cap 0xC1 w w12 false) s fun t => OnlyCompletion s t ∧ Completed t cap ⟨0, 0, false⟩ 0
            ∧ ∃ k', t.ctrl? cap.ctrl = some k' ∧ KV.get? k'.queues (w.toNat % 65536) = some { q with clsNext := QClass.ofCode (bitsOf w.toNat 17 16) }))
    ∧ (∀ (cap : Cap) (fid : BitVec 8) (w : Word) (v : Nat) (k : Ctrl) (s : State), AdminOk s cap k → fid.toNat ∈ featureIds → s.featureNow k fid.toNat w.toNat = some v →
        Yields (.getFeatures cap fid w 0) s fun t => OnlyCompletion s t ∧ Completed t cap ⟨0, 0, false⟩ v)
    ∧ (∀ (cap : Cap) (k : Ctrl) (s : State), AdminOk s cap k →
        (k.aers.length < 8 → KV.getD [] s.cmd.aenInst k.inst = [] → (∀ e ∈ s.ctrlsOf k.inst, e.2.aenPend = []) →
          Yields (.asynchronousEventRequest cap) s fun t =>
            t.out = s.out ∧ t.ctl = s.ctl ∧ ∃ k', t.ctrl? cap.ctrl = some k' ∧ k'.aers = k.aers ++ [cap.cid] ∧ k'.aerMask = k.aerMask)
        ∧ (8 ≤ k.aers.length → Yields (.asynchronousEventRequest cap) s fun t => OnlyCompletion s t ∧ Completed t cap ⟨1, 0x05, true⟩ 0))
    ∧ (∀ (cap : Cap) (sqid : Nat) (cid : BitVec 16) (k : Ctrl) (s : State), AdminOk s cap k →
        (sqid = 0 → cid ∈ k.aers →
          Yields (.abort cap sqid cid) s fun t => OnlyCompletion s t ∧ Completed t cap ⟨0, 0, false⟩ 0 ∧ .completion cap.ctrl 0 cid ⟨0, 0x07, false⟩ 0 0 ∈ t.out
            ∧ ∃ k', t.ctrl? cap.ctrl = some k' ∧ k'.aers = k.aers.erase cid)
        ∧ (¬ (sqid = 0 ∧ cid ∈ k.aers) → (∀ e ∈ s.cmd.ctxs, ¬ (e.2.ctrl = cap.ctrl ∧ e.2.qid = sqid ∧ e.2.cid = cid)) →
          Yields (.abort cap sqid cid) s fun t => OnlyCompletion s t ∧ Completed t cap ⟨0, 0, false⟩ 1 ∧ Counted s t Pg.CMD Fd.CMD_CNT_COUNT 2)
        ∧ (∀ (c : Nat) (x : Ctx), s.cmd.ctxs.find? (fun e => e.2.ctrl = cap.ctrl && e.2.qid = sqid && e.2.cid = cid && ! s.stale e.2) = some (c, x) → sqid ≠ 0 →
          x.state = .admitted ∨ x.state = .issued → (∀ f ∈ s.prog.flows, f.2.ctx ≠ c) → s.ctx? c = some x →
          Yields (.abort cap sqid cid) s fun t => Completed t cap ⟨0, 0, false⟩ 0 ∧ CommandEnds t c x ⟨0, 0x07, false⟩))
    ∧ (∀ (cap : Cap) (op : BitVec 8) (k : Ctrl) (s : State), AdminOk s cap k →
        Yields (.unsupportedOpcode cap op) s fun t => OnlyCompletion s t ∧ Completed t cap ⟨0, 0x01, true⟩ 0)
    ∧ (∀ (cap : Cap) (data : List Byte) (k : Ctrl) (s : State), AdminOk s cap k → data.length = 32 →
        Yields (.securitySend cap 0xF1 1 data) s fun t => Completed t cap ⟨0, 0, false⟩ 0 ∧ OnlyCompletion { s with sec := t.sec } t
          ∧ KV.get? t.sec.nonces cap.ctrl = some data ∧ { t.sec with nonces := s.sec.nonces } = s.sec)
    ∧ ∀ (cap : Cap) (alloc : Nat) (k : Ctrl) (s : State), AdminOk s cap k →
        (Yields (.securityReceive cap 0 0 alloc) s fun t => OnlyCompletion s t
          ∧ ∃ rest, t.out = .completion cap.ctrl 0 cap.cid ⟨0, 0, false⟩ 0 0 :: .data cap.ctrl 0 cap.cid ((zeros 6 ++ [0x00, 0x02, 0x00, 0xF1]).take alloc) :: rest)
        ∧ (KV.get? s.sec.nonces cap.ctrl = none → Yields (.securityReceive cap 0xF1 1 alloc) s fun t => OnlyCompletion s t ∧ Completed t cap ⟨0, 0x0C, true⟩ 0)
        ∧ ∀ nonce, KV.get? s.sec.nonces cap.ctrl = some nonce →
          Yields (.securityReceive cap 0xF1 1 alloc) s fun t => Completed t cap ⟨0, 0, false⟩ 0 ∧ KV.get? t.sec.nonces cap.ctrl = none
            ∧ ∃ b, .data cap.ctrl 0 cap.cid b ∈ t.out ∧ b.length ≤ alloc

/-- Namespaces and the cryptographic erase (R149, R165 to R167, R408, R409): a create takes the lowest free NSX and NSID and a new key; a delete takes the namespace away; Format sets the format or starts the
erase; Sanitize starts the erase of every namespace of the instance, whose steps follow one another, each namespace with a new key from step 2 on.
Readings of the model: log entries 77, 78. -/
def Obligations.NamespacesAndErase : Prop :=
  (∀ (cap : Cap) (nsid nsze pi : Nat) (lbaf grain : BitVec 8) (first : Bool) (ruh : List Nat) (k : Ctrl) (s : State) (nsx id : Nat), AdminOk s cap k →
      lbaf.toNat ≤ 3 → createFieldsOk nsze lbaf.toNat grain.toNat pi ruh = true → s.nsBytes k.inst + 4096 * nsze ≤ s.quotaBytes k.inst →
      (List.range 4096).find? (fun n => (KV.get? s.media.nss n).isNone) = some nsx →
      (List.range 256).find? (fun n => (s.nssOf k.inst).all fun e => e.2.nsid ≠ n + 1) = some id → s.sec.trngFailed = false →
      Yields (.namespaceManagement cap true nsid nsze lbaf grain pi first false ruh) s fun t =>
        Completed t cap ⟨0, 0, false⟩ (id + 1) ∧ (∀ m, m ≠ nsx → KV.get? t.media.nss m = KV.get? s.media.nss m) ∧ t.map = s.map
          ∧ ∃ n, KV.get? t.media.nss nsx = some n ∧ n.inst = k.inst ∧ n.nsid = id + 1 ∧ n.nsze = nsze ∧ n.lbaf = lbaf.toNat ∧ n.piType = pi ∧ n.piFirst = first
            ∧ n.kv = false ∧ n.grain = (if grain.toNat = 1 then 1 else if grain.toNat = 3 then 16 else 4) ∧ n.keyGen = s.sec.keyDraws + 1 ∧ n.sanitizing = false)
    ∧ (∀ (cap : Cap) (nsid nsze pi : Nat) (lbaf grain : BitVec 8) (first kv : Bool) (ruh : List Nat) (k : Ctrl) (s : State), AdminOk s cap k →
        lbaf.toNat ≤ 3 → createFieldsOk nsze lbaf.toNat grain.toNat pi ruh = true → s.quotaBytes k.inst < s.nsBytes k.inst + 4096 * nsze →
        (s.nssOf k.inst).length < 256 → s.media.nss.length < 4096 →
        Yields (.namespaceManagement cap true nsid nsze lbaf grain pi first kv ruh) s fun t => OnlyCompletion s t ∧ Completed t cap ⟨1, 0x15, true⟩ 0)
    ∧ (∀ (cap : Cap) (nsid nsze pi : Nat) (lbaf grain : BitVec 8) (first kv : Bool) (ruh : List Nat) (k : Ctrl) (s : State) (nsx : Nat) (n : NsS), AdminOk s cap k →
        nsid ≠ 0xFFFFFFFF → KV.get? s.media.nss nsx = some n → n.inst = k.inst → n.nsid = nsid → (∀ e ∈ s.nssOf k.inst, e.2.sanitizing = false) →
        Yields (.namespaceManagement cap false nsid nsze lbaf grain pi first kv ruh) s fun t => Completed t cap ⟨0, 0, false⟩ 0 ∧ KV.get? t.media.nss nsx = none)
    ∧ (∀ (cap : Cap) (nsid : Nat) (ctrls : List Nat) (k : Ctrl) (s : State), AdminOk s cap k → (s.nsOf k.inst nsid).isSome = true → ctrls ≠ [] →
        (∀ c ∈ ctrls, c ∈ (s.ctrlsOf k.inst).map Prod.fst ∧ c ∉ s.attachedTo k.inst nsid) → (∀ c ∈ ctrls, ∃ x, s.ctrl? c = some x ∧ x.inst = k.inst) →
        Yields (.namespaceAttachment cap nsid true ctrls) s fun t =>
          Completed t cap ⟨0, 0, false⟩ 0 ∧ t.media = s.media ∧ ∀ c ∈ ctrls, ∃ x, t.ctrl? c = some x ∧ nsid ∈ x.attached ∧ nsid ∈ x.changedNs)
    ∧ (∀ (cap : Cap) (nsid pi : Nat) (lbaf : BitVec 8) (first : Bool) (k : Ctrl) (s : State) (nsx : Nat) (n : NsS), AdminOk s cap k → s.nsOf k.inst nsid = some (nsx, n) →
        KV.get? s.media.nss nsx = some n → lbaf.toNat ≤ 3 → pi ≤ 3 → (pi = 0 ∨ lbaf.toNat ≠ 0) → n.sanitizing = false → KV.get? s.sec.erases k.inst = none →
        (s.startedOn [nsx] = false →
          Yields (.formatNvm cap nsid lbaf 0 pi first) s fun t =>
            Completed t cap ⟨0, 0, false⟩ 0 ∧ KV.get? t.media.nss nsx = some { n with lbaf := lbaf.toNat, piType := pi, piFirst := first })
        ∧ Yields (.formatNvm cap nsid lbaf 2 pi first) s fun t =>
            KV.get? t.media.nss nsx = some { n with sanitizing := true }
              ∧ ∃ e, KV.get? t.sec.erases k.inst = some e ∧ e.step = 1 ∧ e.nsxs = [nsx] ∧ e.purge = false ∧ ∃ c, e.waiter = .ctx c ∧ (t.ctx? c).isSome = true)
    ∧ (∀ (cap : Cap) (k : Ctrl) (s : State), AdminOk s cap k → KV.get? s.sec.erases k.inst = none → KV.risingFrom 0 s.media.nss = true →
        Yields (.sanitize cap 4 false) s fun t =>
          Answered t cap ⟨0, 0, false⟩ 0 ∧ (∀ nsx n, KV.get? s.media.nss nsx = some n → KV.get? t.media.nss nsx = some { n with sanitizing := n.sanitizing || decide (n.inst = k.inst) })
            ∧ ∃ e, KV.get? t.sec.erases k.inst = some e ∧ e.step = 1 ∧ e.nsxs = (s.nssOf k.inst).map Prod.fst ∧ e.purge = false)
    ∧ (∀ (i : Fin 256) (e : Erase) (s : State), KV.get? s.sec.erases i.val = some e → s.serving = true → e.step = 1 → s.startedOn e.nsxs = false →
        Yields (.cryptoEraseStepDone i) s fun t => KV.get? t.sec.erases i.val = some { e with step := 2 } ∧ t.media = s.media ∧ t.cmd = s.cmd ∧ t.out = s.out)
    ∧ (∀ (i : Fin 256) (e : Erase) (s : State), KV.get? s.sec.erases i.val = some e → s.serving = true → e.step = 2 → s.sec.trngFailed = false →
        Yields (.cryptoEraseStepDone i) s fun t =>
          KV.get? t.sec.erases i.val = some { e with step := 3, bands := s.bandsWith e.nsxs, total := (s.bandsWith e.nsxs).length }
            ∧ t.sec.keyDraws = s.sec.keyDraws + e.nsxs.length
            ∧ ∀ nsx ∈ e.nsxs, ∀ n, KV.get? s.media.nss nsx = some n → ∃ n', KV.get? t.media.nss nsx = some n' ∧ s.sec.keyDraws < n'.keyGen)
    ∧ ∀ (i : Fin 256) (e : Erase) (s : State), KV.get? s.sec.erases i.val = some e → s.serving = true → e.step = 4 → s.bandsLeft e = [] → e.purge = false → e.waiter = .nobody →
        Yields (.cryptoEraseStepDone i) s fun t =>
          KV.get? t.sec.erases i.val = none ∧ KV.get? t.sec.sanitized i.val = some 1
            ∧ ∀ nsx ∈ e.nsxs, ∀ n, KV.get? s.media.nss nsx = some n → KV.get? t.media.nss nsx = some { n with sanitizing := false }

/-- Firmware (R136, R431 to R433): pieces of a bundle are staged as they come; committing the bundle of a slot makes it pending; at the drain limit what has not started its commit ends; after the swap the slot is active, or, where it
failed, the commit fails and admission resumes.
Readings of the model: log entry 79. -/
def Obligations.FirmwareUpdate : Prop :=
  (∀ (cap : Cap) (off : Nat) (data : List Byte) (k : Ctrl) (s : State), AdminOk s cap k → k.inst = 0 → off % 4096 = 0 → data.length % 4096 = 0 → 0 < data.length →
      data.length ≤ 2 ^ 21 → off + data.length ≤ 2 ^ 26 →
      Yields (.firmwareImageDownload cap off data.length data) s fun t =>
        Completed t cap ⟨0, 0, false⟩ 0 ∧ t.fw.staging = s.fw.staging.writeBytes off data ∧ t.fw.slot1 = s.fw.slot1 ∧ t.fw.slot2 = s.fw.slot2 ∧ t.media = s.media
          ∧ t.ctx? s.cmd.nextCtx = none ∧ ∀ j, j < data.length / 4096 → off / 4096 + j ∈ t.fw.pieces)
    ∧ (∀ (cap : Cap) (off declared : Nat) (data : List Byte) (k : Ctrl) (s : State), AdminOk s cap k → k.inst = 0 →
        off % 4096 ≠ 0 ∨ declared % 4096 ≠ 0 ∨ declared = 0 ∨ 2 ^ 26 < off + declared →
        Yields (.firmwareImageDownload cap off declared data) s fun t => OnlyCompletion s t ∧ Completed t cap ⟨0, 0x02, true⟩ 0)
    ∧ (∀ (cap : Cap) (slot : BitVec 3) (b : Bundle) (k : Ctrl) (s : State), AdminOk s cap k → k.inst = 0 → s.serving = true → s.slotBundle slot.toNat = some b → s.bundlePasses b = true →
        Yields (.firmwareCommit cap 2 slot) s fun t =>
          Completed t cap ⟨0, 0, false⟩ 0 ∧ t.fw = { s.fw with pendingSlot := slot.toNat } ∧ OnlyCompletion { s with fw := t.fw } t)
    ∧ (∀ (cap : Cap) (action slot : BitVec 3) (k : Ctrl) (s : State), AdminOk s cap k → k.inst = 0 → s.serving = true → action.toNat ≤ 3 → slot.toNat ∉ [1, 2] →
        Yields (.firmwareCommit cap action slot) s fun t => OnlyCompletion s t ∧ Completed t cap ⟨1, 0x06, true⟩ 0)
    ∧ (∀ s : State, s.cmd.act = .draining → s.prog.flows = [] →
        Yields .activationDrainLimit s fun t =>
          t.cmd.act = .swapping ∧ t.now = max s.now (s.cmd.actAt + 100000000) ∧ t.fw = s.fw
            ∧ ∀ c x, s.ctx? c = some x → x.state = .admitted ∨ x.state = .issued → t.ctx? c = none)
    ∧ (∀ (s : State) (c : Nat) (slot : Nat) (x : Ctx), s.cmd.act = .swapping → s.cmd.actCmd = some (some c, slot) → s.cmd.heldConnects = [] → s.ctx? c = some x → Current s x →
        (Yields (.imageSwapDone true) s fun t =>
          t.cmd.act = .idle ∧ t.fw.active = slot ∧ t.fw.pendingSlot = 0 ∧ t.fw.trial = true ∧ CommandEnds t c x ⟨0, 0, false⟩
            ∧ ∀ pg, (t.page pg).owner = 0 ∧ (t.page pg).staged = [])
        ∧ Yields (.imageSwapDone false) s fun t =>
          t.cmd.act = .idle ∧ t.fw = s.fw ∧ CommandEnds t c x ⟨1, 0x07, true⟩)

/-! ## The command path and instances -/

/-- The 24 I/O commands (R116 to R118, R121, R124, R137), those that `Instr.ioCap` names: read, write, flush, writeUncorrectable, compare, writeZeroes, datasetManagement, verify, copy, ioManagementReceive, ioManagementSend, store, retrieve, delete, exist, list,
loadProgram, programActivation, executeProgram, memoryRangeSetManagement, memoryRead, memoryWrite, memoryCopy and memoryFill. A command whose queue has room and whose checks pass takes a context, with its cost and the bytes it expects, and
nothing yet comes back; one that a check refuses completes with the check's status and takes none; one that finds no room waits in its queue, whence the oldest is admitted later.
Readings of the model: log entry 72. -/
def Obligations.IoCommandsTakeContexts : Prop :=
  (∀ (op : Instr) (cap : Cap) (k : Ctrl) (q : IoQueue) (s : State) (expected : Nat), IoOk s op cap k q → cap.roundNow = false →
      (s.keepAlive cap.ctrl).precheck k.inst cap.ctrl op = .ok expected → takesData op = false ∨ (capsuleData op = [] ∧ 0 < expected) →
      Yields op s fun t =>
        t.cmd.nextCtx = s.cmd.nextCtx + 1 ∧ (∀ c, c ≠ s.cmd.nextCtx → t.ctx? c = s.ctx? c) ∧ t.ctrl? cap.ctrl = (s.keepAlive cap.ctrl).ctrl? cap.ctrl
          ∧ ∃ x, t.ctx? s.cmd.nextCtx = some x ∧ TakenAs s x op cap k expected)
    ∧ (∀ (op : Instr) (cap : Cap) (k : Ctrl) (q : IoQueue) (s : State) (st : Status), IoOk s op cap k q → cap.roundNow = false →
        (s.keepAlive cap.ctrl).precheck k.inst cap.ctrl op = .error st →
        Yields op s fun t => OnlyCompletion s t ∧ Completed t cap st 0 ∧ t.cmd.ctxs = s.cmd.ctxs ∧ t.cmd.nextCtx = s.cmd.nextCtx)
    ∧ (∀ (op : Instr) (cap : Cap) (k : Ctrl) (q : IoQueue) (s : State), op.ioCap = some cap → s.ctrl? cap.ctrl = some k → cap.qid ≠ 0 → KV.get? k.queues cap.qid = some q →
        s.cmd.drainStopped = false → k.resetting = false → (s.instOf k.inst).resetting = false → s.cmd.act = .idle → q.waiting ≠ [] ∨ s.hasRoom cap.ctrl cap.qid k q = false →
        Yields op s fun t =>
          t.out = s.out ∧ t.cmd.ctxs = s.cmd.ctxs ∧ { t with cmd := s.cmd } = s
            ∧ ∃ k', t.ctrl? cap.ctrl = some k' ∧ KV.get? k'.queues cap.qid = some { q with waiting := q.waiting ++ [op] })
    ∧ (∀ (op : Instr) (cap : Cap) (k : Ctrl) (q : IoQueue) (rest : List Instr) (s : State) (expected : Nat), op.ioCap = some cap → s.ctrl? cap.ctrl = some k →
        cap.qid ≠ 0 → KV.get? k.queues cap.qid = some q → q.waiting = op :: rest → s.cmd.act = .idle → s.hasRoom cap.ctrl cap.qid k q = true →
        (∀ e ∈ s.cmd.ctxs, e.2.ctrl = cap.ctrl → e.2.qid = cap.qid → e.2.cid ≠ cap.cid) →
        (s.modCtrl cap.ctrl fun k => { k with queues := KV.adjust k.queues cap.qid fun q => { q with waiting := rest } }).precheck k.inst cap.ctrl op = .ok expected →
        takesData op = false →
        Yields (.commandAdmit cap.ctrl cap.qid none) s fun t =>
          (∃ k', t.ctrl? cap.ctrl = some k' ∧ KV.get? k'.queues cap.qid = some { q with waiting := rest })
            ∧ ∃ x, t.ctx? s.cmd.nextCtx = some x ∧ TakenAs s x op cap k expected)
    ∧ ∀ (c qid : Nat) (k : Ctrl) (s : State), s.ctrl? c = some k →
        Yields (.commandAdmit c qid (some true)) s fun t => ∃ k', t.ctrl? c = some k' ∧ k'.closing = true ∧ k'.resetting = true ∧ k'.queues = []

/-- Write data that comes with its command (R113, R127, R133): more than the command declares ends it with LENGTH_OVERRUN and counts the excess; less waits for the rest until the transfer times out; all of it is whole at once: a Compare, a Load Program and a
Memory Write hold it until they are issued, a Write holds its stored form. -/
def Obligations.InCapsuleData : Prop :=
  ∀ (op : Instr) (cap : Cap) (k : Ctrl) (q : IoQueue) (s : State) (expected : Nat) (d : List Byte), IoOk s op cap k q → cap.roundNow = false →
    (s.keepAlive cap.ctrl).precheck k.inst cap.ctrl op = .ok expected → takesData op = true → d = capsuleData op →
    (expected < d.length →
      Yields op s fun t => Completed t cap St.overrun 0 ∧ t.ctx? s.cmd.nextCtx = none ∧ (∀ c, c ≠ s.cmd.nextCtx → t.ctx? c = s.ctx? c)
        ∧ t.cfgAt Pg.CMD Fd.CMD_CNT_COUNT 5 = (s.cfgAt Pg.CMD Fd.CMD_CNT_COUNT 5 + (d.length - expected)) % 2 ^ 32)
    ∧ (0 < d.length → d.length < expected →
      Yields op s fun t => t.out = s.out ∧ (∀ c, c ≠ s.cmd.nextCtx → t.ctx? c = s.ctx? c)
        ∧ ∃ x, t.ctx? s.cmd.nextCtx = some x ∧ TakenAs s { x with got := [] } op cap k expected ∧ x.got = d ∧ x.asked = d.length ∧ x.landed = false
          ∧ x.xferDue = some (s.now + 1000000 * s.cfg Pg.CMD Fd.CMD_XFER_TIMEOUT_MS))
    ∧ (d.length = expected →
      ((∃ c r sl prp, op = .compare c r sl prp d) ∨ (∃ c i n, op = .loadProgram c i n d) ∨ (∃ c rsid off n, op = .memoryWrite c rsid off n d) →
        Yields op s fun t => t.out = s.out ∧ (∀ c, c ≠ s.cmd.nextCtx → t.ctx? c = s.ctx? c)
          ∧ ∃ x, t.ctx? s.cmd.nextCtx = some x ∧ TakenAs s { x with got := [] } op cap k expected ∧ x.got = d ∧ x.landed = true ∧ x.xferDue = none ∧ x.dataAt = some s.cmd.nextData)
      ∧ ∀ c r fua sl fdp prp nsx n l, op = .write c r fua sl fdp prp d → s.nsOf k.inst r.nsid = some (nsx, n) → n.storeForm r.pi r.nlb d = .ok l →
        Yields op s fun t => ∃ x, t.ctx? s.cmd.nextCtx = some x ∧ x.op = op ∧ x.state = .admitted ∧ x.got = l ∧ x.dataAt = some s.cmd.nextData ∧ x.xferDue = none)

/-- What an issued command does that needs no media: Memory Read, Write and Fill (R121), a range set's definition (R147), the reclaim unit handles (R190) and a deallocation hint without deallocate. `startOp` is the operation that a
round performs on a command it issues. And the events of the command path (R114, R125, R133, R135): a round without a command to issue counts and lets the new queue classes take effect; timers and lost connections end associations;
a transfer that times out ends its command with LENGTH_UNDERRUN.
Readings of the model: log entries 73, 83. -/
def Obligations.CommandPathEvents : Prop :=
  (∀ (c : Nat) (x : Ctx) (cap : Cap) (s : State), s.ctx? c = some x → Current s x →
      (∀ rsid off len, x.op = .memoryRead cap rsid off len →
        CommandEnds (s.startOp c) c x ⟨0, 0, false⟩ ∧ .data x.ctrl x.qid x.cid (s.slmRead x.inst rsid.toNat off len) ∈ (s.startOp c).out ∧ (s.startOp c).prog = s.prog)
      ∧ (∀ rsid off n l, x.op = .memoryWrite cap rsid off n l → off + x.got.length ≤ 2 ^ 40 →
        CommandEnds (s.startOp c) c x ⟨0, 0, false⟩ ∧ (s.startOp c).slmRead x.inst rsid.toNat off x.got.length = x.got
          ∧ ∀ i r o, (i, r, o) ∉ (List.range x.got.length).map (fun j => (x.inst, rsid.toNat, off + j)) → r < 2 ^ 16 → o < 2 ^ 40 →
            (s.startOp c).slmRead i r o 1 = s.slmRead i r o 1)
      ∧ (∀ rsid off len v, x.op = .memoryFill cap rsid off len v → off + len ≤ 2 ^ 40 →
        CommandEnds (s.startOp c) c x ⟨0, 0, false⟩ ∧ (s.startOp c).slmRead x.inst rsid.toNat off len = List.replicate len v)
      ∧ (∀ rsid len, x.op = .memoryRangeSetManagement cap rsid (some len) → rsid ≠ 0xFFFF → len ≠ 0 → KV.get? s.prog.mrs (mrsKey x.inst rsid.toNat) = none →
        s.slmLacks x.inst len = false →
        CommandEnds (s.startOp c) c x ⟨0, 0, false⟩ ∧ KV.get? (s.startOp c).prog.mrs (mrsKey x.inst rsid.toNat) = some len)
      ∧ (∀ nsid hs nsx n, x.op = .ioManagementSend cap nsid hs → s.nsOf x.inst nsid = some (nsx, n) → KV.get? s.media.nss nsx = some n →
        CommandEnds (s.startOp c) c x ⟨0, 0, false⟩ ∧ ∃ n', KV.get? (s.startOp c).media.nss nsx = some n' ∧ (∀ h ∈ hs, h ∈ n'.pendingHandles) ∧ { n' with pendingHandles := n.pendingHandles } = n)
      ∧ (∀ nsid l, x.op = .datasetManagement cap nsid false l → CommandEnds (s.startOp c) c x ⟨0, 0, false⟩ ∧ (s.startOp c).media = s.media))
    ∧ (∀ s : State, s.serving = true → s.inst.applyDue = false → (∀ e ∈ s.cmd.ctxs, e.2.qid ≠ 0 → e.2.state ≠ .admitted) →
        Yields .arbRound s fun t =>
          t.cmd.round = s.cmd.round + 1 ∧ Counted s t Pg.ARB Fd.ARB_ROUNDS_COUNT 0 ∧ t.cmd.ctxs = s.cmd.ctxs ∧ t.out = s.out ∧ t.media = s.media
            ∧ ∀ c k, s.ctrl? c = some k → ∃ k', t.ctrl? c = some k' ∧ ∀ q x, KV.get? k.queues q = some x → KV.get? k'.queues q = some { x with cls := x.clsNext })
    ∧ (∀ (c d : Nat) (k : Ctrl) (s : State), Awake s → s.ctrl? c = some k → k.kaDue = some d → s.cmd.act = .idle →
        Yields (.keepAliveExpiry c) s fun t =>
          t.now = max s.now d ∧ Logged s t Pg.CMD 0x0504 .info ∧ t.conn? k.conn = none ∧ ∃ k', t.ctrl? c = some k' ∧ k'.closing = true ∧ k'.resetting = true ∧ k'.queues = [])
    ∧ (∀ (n : Nat) (c : Conn) (s : State), s.conn? n = some c →
        Yields (.connectionLoss n) s fun t =>
          t.conn? n = none ∧ t.now = s.now ∧ ∀ i k, c.ctrl = some i → s.ctrl? i = some k → ∃ k', t.ctrl? i = some k' ∧ k'.closing = true ∧ k'.queues = [])
    ∧ (∀ (c d : Nat) (x : Ctx) (s : State), s.ctx? c = some x → x.xferDue = some d → s.cmd.act = .idle → Current s x →
        Yields (.transferTimeout c) s fun t => t.now = max s.now d ∧ CommandEnds t c x ⟨7, 0x80, false⟩ ∧ c ∈ t.cmd.retired)
    ∧ (∀ (c d : Nat) (x : Ctx) (s : State), s.ctx? c = some x → x.resetDue = some d → x.state = .issued → (∀ f ∈ s.prog.flows, f.2.ctx ≠ c) →
        Yields (.resetCutTimeout c) s fun t => t.now = max s.now d ∧ t.ctx? c = none ∧ c ∈ t.cmd.retired)
    ∧ ∀ (c : Nat) (k : Ctrl) (s : State), s.ctrl? c = some k → k.resetting = true → (∀ e ∈ s.cmd.ctxs, e.2.ctrl ≠ c) →
        Yields (.controllerResetDone c) s fun t =>
          if k.closing then t.ctrl? c = none else ∃ k', t.ctrl? c = some k' ∧ k'.resetting = false ∧ k'.rdy = false ∧ k'.epoch = k.epoch

/-- Instances (R143, R144, R152, R156 to R161): a reset takes a new generation and ends the instance's associations, one asked for during a reset is held; a purge starts an erase of a disabled instance; mailbox messages are rung, acknowledged and sent;
the reset's last step and the end of a window breach.
Readings of the model: log entry 84. -/
def Obligations.InstanceResetsAndMailboxes : Prop :=
  (∀ (who : Fin 256) (i : Fin 256) (s : State), Reached s (.tenant who) (Pg.INST i.val) Fd.INST_RESET_GO.off → i.val ≠ 0 →
      ((s.instOf i.val).resetting = false →
        Yields (.instanceReset (.tenant who) i) s fun t =>
          (t.instOf i.val).resetting = true ∧ t.gen i.val = nextGen (s.gen i.val) ∧ ∀ c k, t.ctrl? c = some k → k.inst = i.val → k.disc = false → k.closing = true)
      ∧ ((s.instOf i.val).resetting = true →
        Yields (.instanceReset (.tenant who) i) s fun t =>
          t.instOf i.val = { s.instOf i.val with resetHeld := some ((s.instOf i.val).resetHeld.getD (Path.tenant who).num) } ∧ t.cmd = s.cmd ∧ t.log = s.log))
    ∧ (∀ (path : Path) (i : Fin 256) (s : State), Reached s path Pg.INSTM Fd.INSTM_ACTION_GO.off → i.val ≠ 0 → s.enabled i.val = false → s.enableBit i.val = false →
        s.purging i.val = false →
        Yields (.instancePurge path i) s fun t =>
          i.val ∈ t.inst.acting ∧ t.inst.result = 0
            ∧ ∃ e, KV.get? t.sec.erases i.val = some e ∧ e.step = 1 ∧ e.purge = true ∧ e.nsxs = (s.nssOf i.val).map Prod.fst)
    ∧ (∀ (who : Fin 256) (i : Fin 256) (s : State), Reached s (.tenant who) (Pg.INST i.val) Fd.INST_T2M_DOORBELL_RING.off → i.val ≠ 0 →
        ((s.instOf i.val).t2mPending = false →
          Yields (.t2mRing (.tenant who) i) s fun t =>
            t.instOf i.val = { s.instOf i.val with t2mPending := true, t2mAcked := false, t2mLost := false, t2mSeq := ((s.instOf i.val).t2mSeq + 1) % 2 ^ 16 }
              ∧ t.media = s.media ∧ t.cmd.ctxs = s.cmd.ctxs)
        ∧ ((s.instOf i.val).t2mPending = true →
          Yields (.t2mRing (.tenant who) i) s fun t =>
            t.inst = s.inst ∧ ErrorRecorded (s.tickPage (Pg.INST i.val)) t (Pg.INST i.val) 0x100 (errInfo (.tenant who) Fd.INST_T2M_DOORBELL_RING.off)))
    ∧ (∀ (path : Path) (i : Fin 256) (s : State), Reached s path Pg.INSTM Fd.INSTM_MBI_ACK_GO.off → (s.instOf i.val).t2mPending = true →
        Yields (.mbiAck path i) s fun t =>
          t.instOf i.val = { s.instOf i.val with t2mPending := false, t2mAcked := true } ∧ (∀ j, j ≠ i.val → t.instOf j = s.instOf j)
            ∧ { t with ctl := s.ctl, inst := s.inst } = s ∧ (t.page (Pg.INST i.val)).evRaw.testBit 9 = true)
    ∧ (∀ (path : Path) (i : Nat) (s : State), Reached s path Pg.INSTM Fd.INSTM_MBO_SEND_GO.off → i = s.cfg Pg.INSTM Fd.INSTM_MBO_SEL_INDEX → i ≠ 0 → s.enabled i = true →
        (16 ≤ (s.instOf i).queue.length → Yields (.mboSend path) s fun t => t.inst = { s.inst with mboResult := 1 })
        ∧ ((s.instOf i).queue = [] →
          Yields (.mboSend path) s fun t => t.inst.mboResult = 0 ∧
            ∃ l, l = ((List.range 64).flatMap fun n => leBytes 4 (s.cfgAt Pg.INSTM Fd.INSTM_MBO_DATA_DATA n))
              ∧ if (s.instOf i).m2tFull then (t.instOf i).queue = [⟨false, 0, 0, l⟩] ∧ (t.instOf i).m2tData = (s.instOf i).m2tData
                else (t.instOf i).m2tFull = true ∧ (t.instOf i).m2tSource = false ∧ (t.instOf i).m2tData = l ∧ (t.instOf i).queue = []
                  ∧ (t.instOf i).m2tSeq = ((s.instOf i).m2tSeq + 1) % 2 ^ 16))
    ∧ (∀ (path : Path) (i : Fin 256) (s : State), Reached s path (Pg.INST i.val) Fd.INST_M2T_ACK_ACK.off →
        (Yields (.m2tAck path i) s fun t =>
          (t.instOf i.val).m2tFull = decide ((s.instOf i.val).queue ≠ []) ∧ (t.instOf i.val).queue = (s.instOf i.val).queue.drop 1 ∧ t.media = s.media)
        ∧ Yields (.m2tClearLost path i) s fun t => t.instOf i.val = { s.instOf i.val with m2tLost := false } ∧ { t with ctl := s.ctl, inst := s.inst } = s)
    ∧ (∀ (i : Fin 256) (d : Nat) (s : State), (s.instOf i.val).windowDue = some d → s.mode.mode ≠ .holdup →
        Yields (.windowBreachEnd i) s fun t => t.now = max s.now d ∧ (t.instOf i.val).windowDue = none ∧ t.media = s.media ∧ t.cmd.ctxs = s.cmd.ctxs)
    ∧ ∀ (i : Fin 256) (s : State), (s.instOf i.val).resetting = true → (s.instOf i.val).resetHeld = none → (s.instOf i.val).disableHeld = false →
        (∀ e ∈ s.cmd.ctxs, e.2.inst ≠ i.val) → s.cmd.heldConnects = [] →
        Yields (.instanceResetDone i) s fun t =>
          (t.instOf i.val).resetting = false ∧ t.gen i.val = s.gen i.val ∧ (t.page (Pg.INST i.val)).evRaw.testBit 10 = true ∧ i.val ∉ t.inst.acting
            ∧ ∀ c k, t.ctrl? c = some k → k.inst = i.val → k.disc = false → k.closing = false

/-! ## Media -/

/-- The write path (R18, R123, R168, R171, R177, R179, R183, R189, R205, R231, R383, R384): a merge keeps the bytes that the write does not cover; a map commit points the entry at
the write buffer and is journaled; a frame is stored compressed where that saves a unit; a new band takes blocks of 34 lanes in service; a row closes early for a write that waits and
for age; the last row of a frame re-points its grain at the media, and a program failure closes the band at its row.
Readings of the model: log entries 4, 83, 87. -/
def Obligations.WritePath : Prop :=
  (∀ (c g id : Nat) (v : Version) (x : Ctx) (n : NsS) (old : List Byte) (s : State),
      (s.versionsOf c).find? (fun e => e.2.grain = g && e.2.state = .landed && ! e.2.whole) = some (id, v) → KV.get? s.media.versions id = some v →
      s.ctx? c = some x → x.state = .issued → KV.get? s.media.nss v.nsx = some n → grainKey v.nsx g ∉ s.map.locked → s.earlierWrite c v.nsx g = false →
      s.committedBytes n v.nsx g = some old →
      Yields (.grainMerge c g true) s fun t =>
        grainKey v.nsx g ∈ t.map.locked ∧ { t with media := { t.media with versions := s.media.versions }, map := { t.map with locked := s.map.locked } } = s
          ∧ (∀ k, k ≠ id → KV.get? t.media.versions k = KV.get? s.media.versions k)
          ∧ ∃ v', KV.get? t.media.versions id = some v' ∧ v'.whole = true ∧ { v' with whole := v.whole, data := v.data } = v
            ∧ ∀ j, v'.data.getD j 0 =
                if (v.first - g * n.grain) * n.sector ≤ j ∧ j < (v.first - g * n.grain) * n.sector + v.data.length
                then v.data.getD (j - (v.first - g * n.grain) * n.sector) 0 else old.getD j 0)
    ∧ (∀ (c id : Nat) (v : Version) (x : Ctx) (k : Nat) (n : NsS) (cap : Cap) (r : NvmRange) (fua sl : Bool) (fdp : Fdp) (prp : Bool) (d : List Byte) (s : State),
        s.ctx? c = some x → x.state = .issued → x.waitSlc = [] → x.op = .write cap r fua sl fdp prp d → s.nsOf x.inst r.nsid = some (k, n) →
        s.nextLanded c = [(id, v)] → KV.get? s.media.versions id = some v → v.whole = true → s.earlierWrite c v.nsx v.grain = false →
        (s.lookup v.nsx (v.grain / 512) .demand).1 = true →
        Yields (.mapCommit c) s fun t =>
          t.entryOf v.nsx v.grain = entBuffer true (s.streamFor (n.classOf fdp) v.nsx v.grain) (frameUnits v.data.length) v.prim v.nsx v.grain
            ∧ Journaled s t 0x01 v.grain (t.entryOf v.nsx v.grain) ∧ t.fence = s.fence ∧ t.kw = s.kw
            ∧ ∀ m g, grainKey m g ≠ grainKey v.nsx v.grain → t.entryOf m g = s.entryOf m g)
    ∧ (∀ (id : Nat) (v : Version) (s : State), KV.get? s.media.versions id = some v → v.state = .committed →
        Yields (.compressionDone id false false) s fun t =>
          t.map.map = s.map.map ∧ t.out = s.out
            ∧ ∃ v', KV.get? t.media.versions id = some v' ∧ (v'.state = .compressed ∨ v'.state = .placed) ∧ v'.data = v.data ∧ v'.units = frameUnits v'.payload.length
              ∧ (v'.raw = true → v'.payload = v.data) ∧ (s.cfgB (Pg.CMP v.home) Fd.CMP_INLINE_ENABLE = false → v'.raw = true)
              ∧ (v'.raw = false → frameUnits v'.payload.length < frameUnits v.data.length
                  ∧ v'.payload = compressed 0 (s.cfg (Pg.CMP v.home) Fd.CMP_INLINE_LEVEL) 0 v.data))
    ∧ (∀ (id : Nat) (v : Version) (s : State), Awake s → KV.get? s.media.versions id = some v → v.state = .committed → v.reruns = 0 →
        s.cfgB (Pg.CMP v.home) Fd.CMP_INLINE_ENABLE = true →
        Yields (.compressionDone id true false) s fun t =>
          KV.get? t.media.versions id = some { v with reruns := 1 } ∧ Logged s t (Pg.CMP v.home) 0x0F01 .absorbed ∧ t.map.map = s.map.map)
    ∧ (∀ (st : Fin 7) (slc : Bool) (s : State), Calm s → s.isUp Dom.FABRIC = true → (s.openBands st.val slc).length < s.openLimit st.val slc →
        (slc = true ∨ s.media.level ≠ 3 ∨ st.val = 4) → (s.bandLanes s.media.nextBand st.val slc).length = 34 →
        Yields (.bandOpen st slc) s fun t =>
          t.media.nextBand = s.media.nextBand + 1 ∧ Journaled s t 0x10 s.media.nextBand (st.val + 8 * slc.toNat)
            ∧ ∃ b, KV.get? t.media.bands s.media.nextBand = some b ∧ b.state = .open_ ∧ b.stream = st.val ∧ b.slc = slc ∧ b.nextRow = 0 ∧ b.frames = []
              ∧ (∀ l ∈ b.members, (t.blockRec l).state = .member ∧ l / 131072 < 64 ∧ l / 131072 ∉ s.fence.lanes)
              ∧ (b.members.map (· / 131072)).Sublist (s.bandLanes s.media.nextBand st.val slc))
    ∧ (∀ (n : Nat) (b : Band) (s : State), KV.get? s.media.bands n = some b → b.state = .open_ → b.programming = false → b.nextRow < bandRows b.slc →
        ((∃ f ∈ b.frames, f.inRow b.nextRow = true) →
          Yields (.rowCloseIdleExpiry n) s fun t =>
            t.map = s.map ∧ t.out = s.out
              ∧ (∃ f ∈ b.frames, f.inRow b.nextRow = true ∧ t.now = max s.now (f.placedAt + 1000000 * s.cfg Pg.MEDIA Fd.MEDIA_ROW_CLOSE_IDLE_MS)
                  ∧ ∀ g ∈ b.frames, g.inRow b.nextRow = true → f.placedAt ≤ g.placedAt)
              ∧ ∃ b', KV.get? t.media.bands n = some b' ∧ b'.programming = true ∧ b'.frames = b.frames ∧ b'.nextRow = b.nextRow ∧ ∀ u ∈ b'.fill, (b.nextRow + 1) * 64 ≤ u)
        ∧ ((∃ f ∈ b.frames, f.inRow b.nextRow = true ∧ ∃ i w, f.version = some i ∧ KV.get? s.media.versions i = some w ∧ w.waitSlc = true) →
          Yields (.rowCloseWaitExpiry n) s fun t =>
            t.map = s.map ∧ t.out = s.out
              ∧ (∃ f ∈ b.frames, f.inRow b.nextRow = true ∧ t.now = max s.now (f.placedAt + 1000 * s.cfg Pg.MEDIA Fd.MEDIA_ROW_CLOSE_WAIT_US))
              ∧ ∃ b', KV.get? t.media.bands n = some b' ∧ b'.programming = true ∧ b'.frames = b.frames ∧ b'.nextRow = b.nextRow))
    ∧ (∀ (n id : Nat) (b : Band) (f : MFrame) (v : Version) (s : State), KV.get? s.media.bands n = some b → b.state = .open_ → b.programming = true →
        b.frames.filter (fun f => f.pages.2 = b.nextRow) = [f] → f.kind = 0 → f.version = some id → KV.get? s.media.versions id = some v →
        entState (s.entryOf v.nsx v.grain) = 1 → entHandle (s.entryOf v.nsx v.grain) = v.prim → s.hold.flush = none → s.mat.zap = [] → id < s.media.nextVersion →
        Yields (.rowProgramDone n none) s fun t =>
          t.entryOf v.nsx v.grain = s.entryAt n f ∧ KV.get? t.media.versions id = none ∧ t.fence = s.fence
            ∧ ∃ b', KV.get? t.media.bands n = some b' ∧ b.nextRow < b'.nextRow)
    ∧ ∀ (n : Nat) (b : Band) (m : Fin 34) (s : State), Awake s → KV.risingFrom 0 s.media.bands = true → KV.get? s.media.bands n = some b → b.state = .open_ → b.programming = true →
        Yields (.rowProgramDone n (some m)) s fun t =>
          (t.blockRec (b.members.getD m.val 0)).state = .retirePending ∧ Logged s t Pg.MEDIA 0x0705 .absorbed
            ∧ ∃ b', KV.get? t.media.bands n = some b' ∧ b'.state ≠ .open_ ∧ ∀ f ∈ b'.frames, f.pages.2 < b.nextRow

/-- Reads and their escalation, rebuilds, folds and the parity check (R17, R24, R170, R178, R180 to R182, R185, R186, R194, R240): each step that fails leads to the next; a page recovered at
a step hands its block to patrol; a frame that fails its check is read again by reconstruction; a read that fails at step 4 completes as an unrecovered read error and takes the module to PRESERVE.
Readings of the model: log entry 88. -/
def Obligations.ReadEscalationAndRebuild : Prop :=
  (∀ (id m : Nat) (x : MRead) (s : State), KV.get? s.media.reads id = some x → x.step = 1 → x.who ≠ .patrol →
      Yields (.pageReadDone id (.ok m)) s fun t => KV.get? t.media.reads id = some { x with step := 6 } ∧ { t with media := { t.media with reads := s.media.reads } } = s)
    ∧ (∀ (id : Nat) (x : MRead) (s : State), KV.get? s.media.reads id = some x → x.step = 1 → x.who ≠ .patrol → x.loc s < 8388608 →
        Yields (.pageReadDone id .fail) s fun t =>
          KV.get? t.media.reads id = some { x with step := 2 } ∧ Counted s t (x.lanePage s) Fd.LANE_CNT_COUNT 2 ∧ Counted s t Pg.MEDIA Fd.MEDIA_CNT_COUNT 5 ∧ t.map = s.map)
    ∧ (∀ (id m : Nat) (x : MRead) (s : State), KV.get? s.media.reads id = some x → x.step = 1 → x.who = .patrol →
        Yields (.pageReadDone id (.ok m)) s fun t =>
          KV.get? t.media.reads id = none ∧ t.map = s.map ∧ (t.blockRec (x.loc s)).margin = min m 100
            ∧ (t.blockRec (x.loc s)).refresh = ((s.blockRec (x.loc s)).refresh || decide (min m 100 < s.cfg Pg.MEDIA Fd.MEDIA_PATROL_CTRL_MARGIN_REFRESH)))
    ∧ (∀ (id : Nat) (x : MRead) (s : State), KV.get? s.media.reads id = some x → x.who ≠ .patrol → x.step = 2 ∨ x.step = 3 →
        Yields (.escalationStepDone id true) s fun t =>
          KV.get? t.media.reads id = some { x with step := 6 } ∧ x.loc s ∈ t.media.patrolHead ∧ t.map = s.map ∧ t.media.bands = s.media.bands)
    ∧ (∀ (id : Nat) (x : MRead) (b : Band) (s : State), KV.get? s.media.reads id = some x → KV.get? s.media.bands x.band = some b → x.loc s < 8388608 →
        (x.step = 2 → Yields (.escalationStepDone id false) s fun t =>
          KV.get? t.media.reads id = some { x with step := 3 }
            ∧ t.cfgAt (x.lanePage s) Fd.LANE_CNT_COUNT 3 = (s.cfgAt (x.lanePage s) Fd.LANE_CNT_COUNT 3 + 7) % 2 ^ 32)
        ∧ (x.step = 3 → Yields (.escalationStepDone id false) s fun t =>
          KV.get? t.media.reads id = some { x with step := 4 } ∧ Counted s t (x.lanePage s) Fd.LANE_CNT_COUNT 4
            ∧ ∃ b', KV.get? t.media.bands x.band = some b' ∧ (x.member, x.row) ∈ b'.badPages ∧ { b' with badPages := b.badPages } = b)
        ∧ (x.step = 4 → x.who ≠ .patrol → s.rowLost x.band b x.row ≤ 2 → Yields (.escalationStepDone id true) s fun t =>
          KV.get? t.media.reads id = some { x with step := 7 } ∧ x.loc s ∈ t.media.patrolHead ∧ Counted s t Pg.MEDIA Fd.MEDIA_CNT_COUNT 6
            ∧ Counted s t Pg.PAR Fd.PAR_CNT_COUNT 0)
        ∧ ∀ (c p : Nat) (y : Ctx), Awake s → x.step = 4 → x.who = .ctx c p → s.ctx? c = some y → Current s y → y.state = .issued → y.pendReads = 1 → y.waitSeg = [] →
          y.failed = none → Yields (.escalationStepDone id false) s fun t =>
            KV.get? t.media.reads id = none ∧ CommandEnds t c y ⟨2, 0x81, true⟩ ∧ Logged s t Pg.MEDIA 0x0701 .critical ∧ t.mode.preserveCause.testBit 1 = true)
    ∧ (∀ (id c p : Nat) (x : MRead) (y : Ctx) (s : State), KV.get? s.media.reads id = some x → x.step = 6 ∨ x.step = 7 → x.who = .ctx c p → s.ctx? c = some y → 2 ≤ y.pendReads →
        Yields (.inlineInflateDone id true) s fun t =>
          KV.get? t.media.reads id = none ∧ t.ctx? c = some { y with pendReads := y.pendReads - 1, parts := KV.put y.parts p x.sent } ∧ t.media.bands = s.media.bands)
    ∧ (∀ (id : Nat) (x : MRead) (s : State), KV.get? s.media.reads id = some x → x.step = 6 →
        Yields (.inlineInflateDone id false) s fun t => KV.get? t.media.reads id = some { x with step := 4, second := true } ∧ t.cmd = s.cmd ∧ t.out = s.out)
    ∧ (∀ (n : Nat) (m : Fin 34) (loc : Nat) (b : Band) (s : State), KV.get? s.media.bands n = some b → s.rebuildBand = some n →
        s.memberLost b m.val = true ∨ (∃ p ∈ b.badPages, p.1 = m.val) → s.rebuildTarget b = some loc →
        Yields (.memberRebuildCommit n m) s fun t =>
          Journaled s t 0x16 (64 * n + m.val) (mediaLoc loc) ∧ (t.page Pg.PAR).evRaw.testBit 10 = true ∧ loc / 131072 ∉ s.fence.lanes
            ∧ (∀ l ∈ b.members, l / 131072 ≠ loc / 131072)
            ∧ ∃ b', KV.get? t.media.bands n = some b' ∧ b'.members = b.members.set m.val loc ∧ b'.frames = b.frames ∧ b'.state = b.state
              ∧ m.val ∉ b'.unreadable ∧ ∀ p ∈ b'.badPages, p.1 ≠ m.val)
    ∧ (∀ (n : Nat) (b : Band) (s : State), KV.risingFrom 0 s.media.bands = true → KV.get? s.media.bands n = some b → s.foldVictim = some n → s.inHoldup = false →
        Yields (.foldStart n) s fun t =>
          t.map.map = s.map.map ∧ t.media.versions = s.media.versions ∧ t.out = s.out
            ∧ ∃ b', KV.get? t.media.bands n = some b' ∧ b'.frames = b.frames ∧ b'.state = if b.valid = 0 then .erasable else .folding)
    ∧ (∀ (path : Path) (b : Band) (s : State), Reached s path Pg.PAR Fd.PAR_CHECK_GO_GO.off → s.media.checkBusy = false →
        KV.get? s.media.bands ((s.tickPage Pg.PAR).cfg Pg.PAR Fd.PAR_CHECK_BAND_BAND) = some b → b.state = .closed →
        Yields (.checkGo path) s fun t => OnlyCtl { s with media := { s.media with checkBusy := true, checkMis := false, checkRow := 0 } } t)
    ∧ ∀ (row : Option (Fin 4096)) (s : State), s.media.checkBusy = true →
        Yields (.parityCheckDone row) s fun t =>
          (t.page Pg.PAR).evRaw.testBit 11 = true ∧ OnlyCtl { s with media := t.media } t
            ∧ match row with
              | none => t.media = { s.media with checkBusy := false }
              | some r => t.media = { s.media with checkBusy := false, checkMis := true, checkRow := r.val } ∧ Counted s t Pg.PAR Fd.PAR_CNT_COUNT 4

/-- The map cache (R200, R203, R206 to R209, R211, R213, R215, R218): a fill puts its line into the reserved way; a hint of the manager starts a fill; an old dirty line is written back; a
checkpoint begins, and counts once it is durable, whereupon older records of the journal go; a drained cache is disabled, or formed anew with half its sets.
Readings of the model: log entry 91. -/
def Obligations.MapCache : Prop :=
  (∀ (quad : Quad) (nsx seg w : Nat) (m : Miss) (s : State), Calm s → (s.cache quad.ix).waiting = [] → (s.cache quad.ix).hints = [] →
      (s.cache quad.ix).misses.find? (fun m => m.nsx = nsx && m.seg = seg) = some m → m.way = some w → w < ((s.cache quad.ix).set m.set).ways.length →
      Yields (.mapFillDone quad nsx seg true) s fun t =>
        t.map.map = s.map.map ∧ (∀ x ∈ (t.cache quad.ix).misses, ¬ (x.nsx = nsx ∧ x.seg = seg))
          ∧ KV.getD 0 (t.cache quad.ix).cnt 2 = (KV.getD 0 (s.cache quad.ix).cnt 2 + 1) % 2 ^ 32
          ∧ ∃ x, ((t.cache quad.ix).set m.set).ways[w]? = some x ∧ x.valid = true ∧ x.nsx = nsx ∧ x.seg = seg ∧ x.dirty = false ∧ (x.pref = true ↔ ∃ i, m.kind = .hint i))
    ∧ (∀ (path : Path) (s : State) (w nsx seg wy : Nat) (n : NsS), Reached s path Pg.MAPC Fd.MAPC_HINT_GO_GO.off →
        w = (s.tickPage Pg.MAPC).cfg Pg.MAPC Fd.MAPC_HINT_LO_WORD + 2 ^ 32 * (s.tickPage Pg.MAPC).cfg Pg.MAPC Fd.MAPC_HINT_HI_WORD →
        bitsOf w 63 60 = 1 → bitsOf w 59 48 = nsx → bitsOf w 47 8 = seg → w % 256 = 0 → KV.get? s.media.nss nsx = some n → seg < s.nsSegs nsx →
        (s.cache (s.homeSeg nsx seg)).enabled = true → s.lineThere (s.homeSeg nsx seg) nsx seg = false → s.hintFills (s.homeSeg nsx seg) 0 < 16 →
        (s.cache (s.homeSeg nsx seg)).misses.length < 256 → s.segOnFlash nsx seg = true →
        ((s.cache (s.homeSeg nsx seg)).set ((s.cache (s.homeSeg nsx seg)).setOf nsx seg)).victim = some wy →
        (((s.cache (s.homeSeg nsx seg)).set ((s.cache (s.homeSeg nsx seg)).setOf nsx seg)).ways.getD wy .empty).dirty = false →
        Yields (.hintGo path) s fun t =>
          t.map.map = s.map.map ∧ t.out = s.out ∧ KV.getD 0 (t.cache (s.homeSeg nsx seg)).cnt 6 = (KV.getD 0 (s.cache (s.homeSeg nsx seg)).cnt 6 + 1) % 2 ^ 32
            ∧ (t.cache (s.homeSeg nsx seg)).misses
                = (s.cache (s.homeSeg nsx seg)).misses ++ [⟨seg, nsx, (s.cache (s.homeSeg nsx seg)).setOf nsx seg, some wy, .hint 0, 1⟩])
    ∧ (∀ (path : Path) (s : State), Reached s path Pg.MAPC Fd.MAPC_HINT_GO_GO.off →
        (bitsOf ((s.tickPage Pg.MAPC).cfg Pg.MAPC Fd.MAPC_HINT_HI_WORD) 31 28 = 0 ∨ 3 < bitsOf ((s.tickPage Pg.MAPC).cfg Pg.MAPC Fd.MAPC_HINT_HI_WORD) 31 28) →
        Yields (.hintGo path) s fun t =>
          OnlyCtl s t ∧ ErrorRecorded (s.tickPage Pg.MAPC) t Pg.MAPC 0x0100 (bitsOf ((s.tickPage Pg.MAPC).cfg Pg.MAPC Fd.MAPC_HINT_HI_WORD) 31 28))
    ∧ (∀ (quad : Quad) (nsx seg w : Nat) (x : Way) (s : State),
        ((s.cache quad.ix).set ((s.cache quad.ix).setOf nsx seg)).find nsx seg = some w →
        ((s.cache quad.ix).set ((s.cache quad.ix).setOf nsx seg)).ways[w]? = some x → x.dirty = true → x.wb = false →
        Yields (.dirtyLineAgeExpiry quad nsx seg) s fun t =>
          t.now = max s.now (x.dirtyAt + 1000000000 * s.cfg Pg.MAPC Fd.MAPC_CLEAN_AGE_S) ∧ t.map.map = s.map.map
            ∧ ((t.cache quad.ix).set ((s.cache quad.ix).setOf nsx seg)).ways[w]? = some { x with wb := true }
            ∧ ∃ b ∈ (t.cache quad.ix).wbs, b.nsx = nsx ∧ b.seg = seg ∧ b.seq = s.map.seq ∧ b.entries = s.segEntries nsx seg)
    ∧ (∀ s : State, s.isUp Dom.FABRIC = true → s.map.ckptRunning = none →
        Yields .checkpointIntervalExpiry s fun t =>
          t.now = max s.now s.map.ckptDue ∧ { t with map := s.map, now := s.now } = s ∧ t.map.map = s.map.map
            ∧ ∃ k, t.map.ckptRunning = some k ∧ k.no = s.map.ckptNo + 1 ∧ k.seq = s.map.seq ∧ k.replayFrom = s.replayFrom ∧ k.dir = s.map.dir
              ∧ ∀ c, s.map.ckpt = some c → k.area ≠ c.area % 2)
    ∧ (∀ (k : Ckpt) (s : State), s.map.ckptRunning = some k →
        Yields (.checkpointDone true) s fun t =>
          t.map.ckpt = some k ∧ t.map.ckptRunning = none ∧ t.map.map = s.map.map ∧ (t.page Pg.MAPC).evRaw.testBit 10 = true
            ∧ (∀ r ∈ s.map.journal, k.replayFrom ≤ r.seq → r ∈ t.map.journal) ∧ ∀ r ∈ t.map.journal, r.seq ≤ s.map.seq → k.replayFrom ≤ r.seq)
    ∧ (∀ (k : Ckpt) (s : State), Awake s → s.map.ckptRunning = some k →
        Yields (.checkpointDone false) s fun t =>
          (∃ k', t.map = { s.map with ckptRunning := some k' } ∧ { k' with area := k.area } = k ∧ k'.area ≠ k.area % 2) ∧ Logged s t Pg.MAPC 0x0801 .absorbed)
    ∧ (∀ (quad : Quad) (s : State), Awake s → (s.cache quad.ix).draining = true → (s.cache quad.ix).resizing = false → (s.cache quad.ix).drained = true →
        Yields (.mapCacheDrainDone quad) s fun t =>
          t.cache quad.ix = { s.cache quad.ix with sets := [], draining := false, enabled := false } ∧ (∀ q, q ≠ quad.ix → t.cache q = s.cache q)
            ∧ (t.page Pg.MAPC).evRaw.testBit 9 = true ∧ Logged s t Pg.MAPC 0x0803 .notice ∧ t.map.map = s.map.map)
    ∧ ∀ (quad : Quad) (s : State), Awake s → (s.cache quad.ix).resizing = true → (s.cache quad.ix).drained = true →
        Yields (.mapCacheResize quad) s fun t =>
          (t.cache quad.ix).sets = [] ∧ (t.cache quad.ix).resized = true ∧ (t.cache quad.ix).resizing = false ∧ (∀ q, q ≠ quad.ix → t.cache q = s.cache q)
            ∧ (t.page Pg.MAPC).evRaw.testBit 12 = true ∧ Logged s t Pg.MAPC 0x0802 .info ∧ t.map.map = s.map.map

/-- Reclaim, erases, patrol and retention (R221, R224, R225, R228, R239, R242, R243, R251): the level changes after 100 ms across a threshold; a victim's frames stay until their copies are programmed;
an erase wears the block and is journaled, and the band record goes with its last member; a patrol reads a programmed row; the retention clock counts whole hours.
Readings of the model: log entries 89, 90. -/
def Obligations.ReclaimPatrolAndRetention : Prop :=
  (∀ (l at_ : Nat) (s : State), Awake s → s.media.levelSince = some (l, at_) → s.levelFor s.availBands = l → l ≠ s.media.level →
      Yields .reclaimLevelChange s fun t =>
        t.media.level = l ∧ t.media.levelSince = none ∧ t.now = max s.now (at_ + 100000000) ∧ (s.media.level = 2 ∨ l = 2 → Logged s t Pg.MEDIA 0x0903 .notice))
    ∧ (∀ (n : Nat) (wl : Bool) (b : Band) (s : State), KV.risingFrom 0 s.media.bands = true → s.inHoldup = false → s.isUp Dom.FABRIC = true →
        s.pickVictim = some (n, wl) → KV.get? s.media.bands n = some b →
        Yields .gcVictimSelect s fun t =>
          t.map.map = s.map.map ∧ t.media.victimValid = b.permille ∧ t.out = s.out
            ∧ ∃ b', KV.get? t.media.bands n = some b' ∧ b'.frames = b.frames ∧ b'.state = if b.valid = 0 then .erasable else .folding)
    ∧ (∀ (n : Nat) (m : Fin 34) (b : Band) (s : State), Calm s → KV.get? s.media.bands n = some b → b.state = .erasable → s.bandHeld n = false → s.inHoldup = false →
        m.val ∉ b.erased → (∀ i, i < b.members.length → s.blockState (b.members.getD i 0) = .erasable) →
        (s.blockRec (b.members.getD m.val 0)).wear + 32 < 32 * s.cfg Pg.MEDIA Fd.MEDIA_WL_CTRL_RETIRE_WEAR → (s.blockRec (b.members.getD m.val 0)).firstRefresh < 2 →
        Yields (.blockEraseDone n m true) s fun t =>
          (t.blockRec (b.members.getD m.val 0)).wear
              = (s.blockRec (b.members.getD m.val 0)).wear + (if (s.blockRec (b.members.getD m.val 0)).slc then 1 else 32)
            ∧ (∃ v, Journaled s t 0x14 (mediaLoc (b.members.getD m.val 0)) v) ∧ Counted s t Pg.MEDIA Fd.MEDIA_GC_CNT_COUNT 2
            ∧ KV.get? t.media.bands n = if b.members.length ≤ b.erased.length + 1 then none else some { b with erased := insNat m.val b.erased })
    ∧ (∀ (lane : Fin 64) (die : Fin 16) (plane : Fin 4) (block : Fin 2048) (loc n m : Nat) (b : Band) (s : State),
        loc = ((lane.val * 16 + die.val) * 4 + plane.val) * 2048 + block.val → s.bandOf loc = some (n, m) → KV.get? s.media.bands n = some b → b.nextRow ≠ 0 →
        (∀ r ∈ s.media.reads, ¬ (r.2.who = .patrol ∧ r.2.band = n ∧ r.2.member = m)) →
        (s.blockState loc = .member ∨ s.blockState loc = .erasable ∨ s.blockState loc = .retirePending) → b.members.getD m 0 = loc →
        Yields (.patrolDue lane die plane block) s fun t =>
          t.map = s.map ∧ t.media.bands = s.media.bands ∧ (s.patrolNow loc = true → t.now = s.now)
            ∧ t.cfgAt (Pg.LANE (lane.val / 16) (lane.val % 16)) Fd.LANE_CNT_COUNT 0
                = (s.cfgAt (Pg.LANE (lane.val / 16) (lane.val % 16)) Fd.LANE_CNT_COUNT 0 + b.nextRow) % 2 ^ 32
            ∧ ∃ r, KV.get? t.media.reads s.media.nextRead = some r ∧ r.who = .patrol ∧ r.band = n ∧ r.member = m ∧ r.row < b.nextRow ∧ r.step = 1)
    ∧ (∀ s : State, Awake s → s.media.catchup = true →
        Yields .catchupPatrolEnd s fun t =>
          t.media = { s.media with catchup := false, catchupDone := 100 } ∧ t.map = s.map ∧ t.now = s.now ∧ Logged s t Pg.MEDIA 0x0905 .info)
    ∧ ∀ s : State, s.mode.mode ≠ .off →
        Yields .retentionClockSave s fun t =>
          t.now = max s.now (s.media.retAt + 3600000000000)
            ∧ { t with now := s.now, media := { t.media with retHours := s.media.retHours, retAt := s.media.retAt }, time := { t.time with lastReal := s.time.lastReal } } = s
            ∧ (∃ h, 1 ≤ h ∧ t.media.retHours = s.media.retHours + h ∧ t.media.retAt = s.media.retAt + 3600000000000 * h ∧ t.media.retAt ≤ t.now
                ∧ t.now < t.media.retAt + 3600000000000)
            ∧ t.time.lastReal = if s.time.source = .aon then s.time.lastReal else some t.timeNs

/-! ## Invocations, tokens, tasks and buffers -/

/-- An invocation's flow and its tokens (R204, R282 to R296): it opens at the lowest free flow of its instance with the fields of its descriptor, or ends with the status of the check that it
fails; a walker sends a READ token, a VOID for an unmapped grain or an error; BASE reaches the walkers; a read grain goes to the source port; a token is stored, held or dropped; a partial
match times out; results are placed in sequence order; a segment closes after 1 ms; an error is counted and put into the ring.
Readings of the model: log entries 92, 93, 95. -/
def Obligations.FlowsAndTokens : Prop :=
  (∀ (c f k : Nat) (x : Ctx) (n : NsS) (cap : Cap) (ix : Fin 16) (d : ExecDesc) (bytes : Nat) (s : State), c ∈ s.prog.pendOpen → s.ctx? c = some x →
      x.op = .executeProgram cap ix d bytes → s.execCheck x.inst ix.val d bytes = .ok (k, n) → s.pickFlow x.inst = some f →
      Yields (.flowOpen c) s fun t =>
        { t with prog := s.prog } = s ∧ c ∉ t.prog.pendOpen ∧ (∀ g, g ≠ f → t.flow? g = s.flow? g)
          ∧ ∃ fl, t.flow? f = some fl ∧ fl.ctx = c ∧ fl.inst = x.inst ∧ fl.gen = x.gen ∧ fl.prog = ix.val ∧ fl.d = d ∧ fl.nsx = k ∧ fl.grain0 = d.inSlba / n.grain
            ∧ fl.count = d.inNlb / n.grain ∧ fl.base = d.startSeq ∧ fl.placed = d.startSeq ∧ fl.window = [] ∧ fl.errors = 0
            ∧ fl.waitUs = if d.waitUs = 0 then s.cfg (Pg.TSK (flowHome f)) Fd.TSK_WAIT_DEFAULT_US else d.waitUs)
    ∧ (∀ (c : Nat) (x : Ctx) (st : Status) (cap : Cap) (ix : Fin 16) (d : ExecDesc) (bytes : Nat) (s : State), c ∈ s.prog.pendOpen → s.ctx? c = some x → Current s x →
        x.op = .executeProgram cap ix d bytes → s.execCheck x.inst ix.val d bytes = .error st →
        Yields (.flowOpen c) s fun t => CommandEnds t c x st ∧ t.prog.flows = s.prog.flows)
    ∧ (∀ (flow : Fin 16384) (quad : Quad) (f : Flow) (p : Prog) (seq e : Nat) (s : State), s.flow? flow.val = some f → f.endWith = none → s.progOf f = some p →
        f.walked.getD quad.ix 0 ≤ seq → seq < min f.count (f.known.getD quad.ix 0 + 4096) → s.home f.nsx (f.grain0 + seq) = quad.ix →
        (∀ k, f.walked.getD quad.ix 0 ≤ k → k < seq → s.home f.nsx (f.grain0 + k) ≠ quad.ix) → seq ≠ f.d.startSeq → (f.grain0 + seq) % 512 ≠ 0 →
        (s.lookup f.nsx ((f.grain0 + seq) / 512) .scan).1 = true → e = s.entryOf f.nsx (f.grain0 + seq) → entTag e = mapTag f.nsx (f.grain0 + seq) →
        Yields (.walkerGrain flow quad) s fun t =>
          t.map.map = s.map.map ∧ t.media = s.media ∧ (∃ f', t.flow? flow.val = some f' ∧ f'.walked = f.walked.set quad.ix (seq + 1) ∧ f'.base = f.base ∧ f'.placed = f.placed)
            ∧ ∃ l, t.prog.flight = s.prog.flight ++ l ∧
              if entState e = 0 ∧ f.d.readUnmapped = false then ∃ a, l = [a] ∧ a.kind = 3 ∧ a.port = portRelease ∧ a.flow = flow.val ∧ a.seq = seq
              else if entState e = 3 then ∃ a b, l = [a, b] ∧ a.kind = 4 ∧ a.port = portError ∧ a.err = 0x0281 ∧ a.seq = seq ∧ b.kind = 3 ∧ b.port = portRelease ∧ b.seq = seq
              else ∃ a, l = [a] ∧ a.kind = 1 ∧ a.port = p.image.source ∧ a.flow = flow.val ∧ a.seq = seq ∧ a.value = BitVec.ofNat 64 e)
    ∧ (∀ (flow : Fin 16384) (f : Flow) (s : State), s.flow? flow.val = some f → f.since ≠ 0 →
        Yields (.baseBroadcast flow) s fun t =>
          t.flow? flow.val = some { f with since := 0, known := List.replicate 4 f.base } ∧ { t with prog := { t.prog with flows := s.prog.flows } } = s)
    ∧ (∀ (quad : Quad) (flow : Fin 16384) (seq : Nat) (tk : Token) (f : Flow) (n : NsS) (s : State),
        s.prog.flight.find? (fun t => t.kind = 1 && t.flow = flow.val && t.seq = seq) = some tk → s.readQuad tk = quad.ix → s.flow? flow.val = some f →
        tk.gen = s.gen tk.inst → KV.get? s.media.nss f.nsx = some n →
        (s.bufAlloc quad.ix f.inst 0 n.grainBytes = none →
          Yields (.readTokenReceive quad flow seq) s fun t =>
            t.prog.flight = s.prog.flight.erase tk ∧ (t.pool quad.ix).waits = (s.pool quad.ix).waits ++ [⟨f.inst, 0, n.grainBytes, .scan flow.val seq⟩]
              ∧ Counted s t (Pg.BUF quad.ix) Fd.BUF_CNT_COUNT 3)
        ∧ ∀ (h i : Nat) (u : State) (v : Version) (p : Prog), s.bufAlloc quad.ix f.inst 0 n.grainBytes = some (h, u) → KV.get? f.sent seq = some tk →
          entState tk.value.toNat = 1 → s.bufVersion f.nsx (tk.aux.toNat % 2 ^ 40) tk.value.toNat = some (i, v) → s.progOf f = some p →
          Yields (.readTokenReceive quad flow seq) s fun t =>
            (∃ a, t.prog.flight = s.prog.flight.erase tk ++ [a] ∧ a.kind = 2 ∧ a.buf = true ∧ a.port = p.image.source ∧ a.flow = flow.val ∧ a.seq = seq
              ∧ a.value = BitVec.ofNat 64 h ∧ a.aux = BitVec.ofNat 64 v.data.length)
            ∧ ∃ b, KV.get? t.buf.bufs (h / 4096) = some b ∧ b.data = v.data)
    ∧ (∀ (quad : Quad) (tk : Token) (f : Flow) (s : State), tk ∈ s.prog.flight → tk.kind ≠ 1 → tk.port < 0x3FD → Storable s quad.ix f tk →
        s.tokenQuad f tk.flow tk.port (s.seqQuad f tk.seq) = quad.ix →
        ((s.grantEntry quad.ix tk).1 = true → NodeWaits s quad.ix f tk →
          Yields (.tokenArrive quad tk) s fun t =>
            t.prog.flight = s.prog.flight.erase tk ∧ KV.get? (t.disp quad.ix).entries (tokenKey tk.flow tk.seq tk.port) = some ⟨tk, false, s.now⟩ ∧ t.buf = s.buf ∧ t.kw = s.kw)
        ∧ ((s.grantEntry quad.ix tk).1 = false →
          Yields (.tokenArrive quad tk) s fun t =>
            t.prog.flight = s.prog.flight.erase tk ∧ (t.disp quad.ix).held = (s.disp quad.ix).held ++ [tk] ∧ (t.disp quad.ix).entries = (s.disp quad.ix).entries
              ∧ Counted s t (Pg.TSK quad.ix) Fd.TSK_CNT_COUNT 7))
    ∧ (∀ (quad : Quad) (tk : Token) (f : Flow) (s : State), (s.disp quad.ix).held.find? (fun t => (s.grantEntry quad.ix t).1) = some tk → Storable s quad.ix f tk →
        NodeWaits s quad.ix f tk →
        Yields (.heldTokenGrant quad) s fun t =>
          (t.disp quad.ix).held = (s.disp quad.ix).held.erase tk ∧ KV.get? (t.disp quad.ix).entries (tokenKey tk.flow tk.seq tk.port) = some ⟨tk, false, s.now⟩
            ∧ t.prog.flight = s.prog.flight)
    ∧ (∀ (quad : Quad) (flow : Fin 16384) (seq node : Nat) (f : Flow) (n : Node) (s : State), Awake s → s.flow? flow.val = some f → s.nodeOf f node = some n →
        (∃ k, k < n.inputs ∧ (KV.get? (s.disp quad.ix).entries (tokenKey flow.val seq (4 * node + k))).isSome = true) →
        (∃ k, k < n.inputs ∧ KV.get? (s.disp quad.ix).entries (tokenKey flow.val seq (4 * node + k)) = none) →
        (∀ k e, k < n.inputs → KV.get? (s.disp quad.ix).entries (tokenKey flow.val seq (4 * node + k)) = some e → e.fired = false) →
        Yields (.partialMatchTimeout quad flow seq node) s fun t =>
          (∃ k e, k < n.inputs ∧ KV.get? (s.disp quad.ix).entries (tokenKey flow.val seq (4 * node + k)) = some e ∧ t.now = max s.now (e.at_ + 1000 * f.waitUs)
              ∧ ∀ k' e', k' < n.inputs → KV.get? (s.disp quad.ix).entries (tokenKey flow.val seq (4 * node + k')) = some e' → e.at_ ≤ e'.at_)
            ∧ (∀ k, k < n.inputs → KV.get? (t.disp quad.ix).entries (tokenKey flow.val seq (4 * node + k)) = none)
            ∧ KV.get? (t.disp quad.ix).tombs (tokenKey flow.val seq (4 * node)) = some f.inst ∧ Logged s t (Pg.TSK quad.ix) 0x0B04 .info
            ∧ ∃ a b, t.prog.flight = s.prog.flight ++ [a, b] ∧ a.kind = 4 ∧ a.err = 0x0785 ∧ a.port = portError ∧ a.seq = seq ∧ b.kind = 3 ∧ b.port = portRelease ∧ b.seq = seq)
    ∧ (∀ (tk : Token) (f : Flow) (x : Ctx) (s : State), tk ∈ s.prog.flight → tk.port = portRelease → s.flow? tk.flow = some f → tk.gen = s.gen tk.inst →
        (∀ e ∈ s.prog.flows, e.2.segWait = []) → f.endWith = none → f.placed ≤ tk.seq → tk.seq < f.base + 4096 → tk.seq < f.count → KV.get? f.window tk.seq = none →
        KV.get? f.window f.placed = none →
        (f.placed < tk.seq →
          Yields (.resultArrive tk) s fun t =>
            t.flow? tk.flow = some { f with window := KV.put f.window tk.seq tk } ∧ t.prog.flight = s.prog.flight.erase tk ∧ t.out = s.out)
        ∧ (tk.seq = f.placed → f.window = [] → f.placed + 1 < f.count → tk.kind = 2 → tk.buf = false → f.d.outKind = 0 → s.ctx? f.ctx = some x → Current s x →
          f.outUsed + 48 ≤ s.outSpace f →
          Yields (.resultArrive tk) s fun t =>
            .data x.ctrl x.qid x.cid (outRecord tk.seq 2 (leBytes 8 tk.value.toNat ++ leBytes 8 tk.aux.toNat)) ∈ t.out
              ∧ ∃ f', t.flow? tk.flow = some f' ∧ f'.placed = f.placed + 1 ∧ f'.base = f.placed + 1 ∧ f'.outUsed = f.outUsed + 32 ∧ f'.window = []))
    ∧ (∀ (quad : Quad) (flow : Fin 16384) (seq : Nat) (f : Flow) (s : State), s.flow? flow.val = some f → seq < f.base →
        Yields (.retireMessage quad flow seq) s fun t =>
          (∀ e ∈ (t.disp quad.ix).entries, ¬ (keyFlow e.1 = flow.val ∧ keySeq e.1 = seq)) ∧ (∀ e ∈ (t.disp quad.ix).tombs, ¬ (keyFlow e.1 = flow.val ∧ keySeq e.1 = seq))
            ∧ (∀ e ∈ (s.disp quad.ix).entries, ¬ (keyFlow e.1 = flow.val ∧ keySeq e.1 = seq) → e ∈ (t.disp quad.ix).entries) ∧ t.prog.flows = s.prog.flows)
    ∧ (∀ (flow : Fin 16384) (f : Flow) (at_ nsx : Nat) (ns : NsS) (s : State), s.flow? flow.val = some f → f.segAt = some at_ → f.seg ≠ [] → f.seg.length ≤ 2 ^ 30 →
        f.endWith = none → s.nsOf f.inst f.d.outNsid = some (nsx, ns) →
        Yields (.outputSegmentTimer flow) s fun t =>
          t.now = max s.now (at_ + 1000000)
            ∧ ∃ f', t.flow? flow.val = some f' ∧ f'.seg = [] ∧ f'.segAt = none ∧ f'.placed = f.placed ∧ f.outUsed ≤ f'.outUsed ∧ (f'.outUsed + f.seg.length - f.outUsed) % 4096 = 0)
    ∧ ∀ (tk : Token) (f : Flow) (s : State), tk ∈ s.prog.flight → tk.port = portError → s.flow? tk.flow = some f → tk.gen = s.gen tk.inst → f.d.stopOnError = false →
        f.d.errMrs ≠ 0xFFFF → f.errUsed + 32 ≤ f.d.errLen →
        Yields (.errorTokenArrive tk) s fun t =>
          t.prog.flight = s.prog.flight.erase tk ∧ t.slmRead f.inst f.d.errMrs.toNat f.errUsed 32 = tokenBytes tk
            ∧ t.flow? tk.flow = some { f with errors := f.errors + 1, firstErr := if f.errors = 0 then tk.err else f.firstErr, errUsed := f.errUsed + 32 }

/-- Tasks, their watchdog, buffers and the cluster's L2 (R293, R298, R299, R306, R307, R311 to R313, R319, R326, R345): a ready task starts on a core at its entry; the first expiry of the watchdog
holds the core for a test and queues the task again, the second is an exception; a freed buffer is zeroed before it is free; counts of references go up and down, and a bad or a freed handle is an error.
Readings of the model: log entries 93, 94, 97. -/
def Obligations.TasksAndBuffers : Prop :=
  (∀ (quad : Quad) (tk : Task) (k : Nat) (f : Flow) (p : Prog) (n : Node) (s : State), (s.disp quad.ix).ready = [tk] → tk.prio < 4 → (s.disp quad.ix).cores.last = tk.inst →
      0 < KV.getD 0 (s.disp quad.ix).cores.credit tk.inst → s.pickCore quad.ix tk = some k → s.flow? tk.flow = some f → s.progOf f = some p → s.nodeOf f tk.node = some n →
      (∀ e ∈ (s.disp quad.ix).entries, e.2.fired = true) →
      Yields (.taskDispatch quad) s fun t =>
        (t.disp quad.ix).ready = [] ∧ Counted s t (cluPage (64 * quad.ix + k)) Fd.CLU_CNT_COUNT 0 ∧ (∀ c, c ≠ 64 * quad.ix + k → t.core c = s.core c)
          ∧ ∃ r, (t.core (64 * quad.ix + k)).run = some r ∧ r.task = tk ∧ r.node = n ∧ r.pc = n.entry ∧ r.started = s.now ∧ r.stallAt = none ∧ r.rep = false ∧ r.ldepth = 0
            ∧ r.code = p.image.code ∧ r.slots = [] ∧ r.sends = [] ∧ (∀ i : Fin 32, r.rg i = 0))
    ∧ (∀ (core : CoreId) (r : TaskRun) (f : Flow) (s : State), Awake s → (s.core core.key).run = some r → r.stallAt = none → r.task.expiries = 0 →
        s.flow? r.task.flow = some f → r.task.attempt + 1 < s.cfg (Pg.TSK core.quad.ix) Fd.TSK_REEXEC_LIMIT →
        Yields (.taskWatchdogExpiry core) s fun t =>
          t.now = max s.now (r.started + r.stalled + 1000 * r.node.budgetUs) ∧ (t.core core.key).run = none ∧ (t.core core.key).testing = true
            ∧ (t.disp core.quad.ix).ready = { r.task with expiries := 1, attempt := r.task.attempt + 1 } :: (s.disp core.quad.ix).ready
            ∧ Counted s t (Pg.TSK core.quad.ix) Fd.TSK_CNT_COUNT 1 ∧ Logged s t (Pg.TSK core.quad.ix) 0x0B01 .absorbed)
    ∧ (∀ (core : CoreId) (r : TaskRun) (f : Flow) (s : State), (s.core core.key).run = some r → r.stallAt = none → r.task.expiries ≠ 0 → s.flow? r.task.flow = some f →
        Yields (.taskWatchdogExpiry core) s fun t =>
          t.now = max s.now (r.started + r.stalled + 1000 * r.node.budgetUs) ∧ (t.core core.key).run = none ∧ (t.core core.key).excCode = Exc.WATCHDOG
            ∧ (t.core core.key).excPc = r.pc ∧ (t.disp core.quad.ix).ready = (s.disp core.quad.ix).ready)
    ∧ (∀ (h : BitVec 41) (b : Buf) (s : State), KV.get? s.buf.bufs (h.toNat / 4096) = some b → b.zeroing = true → (s.pool (keyQuad (h.toNat / 4096))).waits = [] →
        Yields (.bufferZeroed h) s fun t =>
          { t with buf := { t.buf with bufs := s.buf.bufs } } = s ∧ (∀ k, k ≠ h.toNat / 4096 → KV.get? t.buf.bufs k = KV.get? s.buf.bufs k)
            ∧ KV.get? t.buf.bufs (h.toNat / 4096) = if b.refs = 0 then none else some { b with zeroing := false, idle := true })
    ∧ (∀ (h : BitVec 41) (b : Buf) (s : State), KV.get? s.buf.bufs (h.toNat / 4096) = some b → s.validHandle h.toNat = true →
        (b.refs < 255 → Yields (.referenceIncrement h) s fun t =>
          KV.get? t.buf.bufs (h.toNat / 4096) = some { b with refs := b.refs + 1 } ∧ { t with buf := { t.buf with bufs := s.buf.bufs } } = s)
        ∧ (255 ≤ b.refs → b.idle = false → Yields (.referenceIncrement h) s fun t =>
          KV.get? t.buf.bufs (h.toNat / 4096) = some b ∧ ErrorRecorded s t (Pg.BUF (keyQuad (h.toNat / 4096))) 0x0101 (h.toNat % 2 ^ 32)
            ∧ Counted s t (Pg.BUF (keyQuad (h.toNat / 4096))) Fd.BUF_CNT_COUNT 6)
        ∧ (2 ≤ b.refs → Yields (.referenceDecrement h) s fun t =>
          KV.get? t.buf.bufs (h.toNat / 4096) = some { b with refs := b.refs - 1 } ∧ { t with buf := { t.buf with bufs := s.buf.bufs } } = s)
        ∧ (b.refs = 1 → Yields (.referenceDecrement h) s fun t =>
          (∀ k, k ≠ h.toNat / 4096 → KV.get? t.buf.bufs k = KV.get? s.buf.bufs k) ∧ Counted s t (Pg.BUF (keyQuad (h.toNat / 4096))) Fd.BUF_CNT_COUNT 4
            ∧ KV.get? t.buf.bufs (h.toNat / 4096)
                = if keyPool (h.toNat / 4096) = 2 then none else some { b with refs := 0, zeroing := true, idle := false, data := [] })
        ∧ (b.refs = 0 → Awake s → Yields (.referenceDecrement h) s fun t =>
          t.buf = s.buf ∧ ErrorRecorded s t (Pg.BUF (keyQuad (h.toNat / 4096))) 0x0100 (h.toNat % 2 ^ 32)
            ∧ Counted s t (Pg.BUF (keyQuad (h.toNat / 4096))) Fd.BUF_CNT_COUNT 5 ∧ Logged s t (Pg.BUF (keyQuad (h.toNat / 4096))) 0x0C01 .notice))
    ∧ (∀ (h : BitVec 41) (s : State), s.validHandle h.toNat = false →
        (Yields (.referenceIncrement h) s fun t => OnlyCtl s t ∧ ErrorRecorded s t (Pg.BUF (keyQuad (h.toNat / 4096))) 0x0102 (h.toNat % 2 ^ 32))
        ∧ Yields (.referenceDecrement h) s fun t => OnlyCtl s t ∧ ErrorRecorded s t (Pg.BUF (keyQuad (h.toNat / 4096))) 0x0102 (h.toNat % 2 ^ 32))
    ∧ (∀ (quad : Quad) (at_ : Nat) (s : State), Awake s → (s.pool quad.ix).fullSince = some at_ → (s.pool quad.ix).fullLogged = false →
        Yields (.writePoolFullTimeout quad) s fun t =>
          t.now = max s.now (at_ + 1000000000) ∧ t.pool quad.ix = { s.pool quad.ix with fullLogged := true } ∧ Logged s t (Pg.BUF quad.ix) 0x0C04 .notice ∧ t.buf.bufs = s.buf.bufs)
    ∧ ∀ (quad : Quad) (cl : Fin 4) (s : State), Awake s → (s.cluster quad.ix cl.val).draining = true →
        Yields (.l2DrainDone quad cl) s fun t =>
          t.cluster quad.ix cl.val = { s.cluster quad.ix cl.val with draining := false, enabled := false, sets := [], evb := [] }
            ∧ (t.page (Pg.CLU quad.ix cl.val)).evRaw.testBit 11 = true ∧ Logged s t (Pg.CLU quad.ix cl.val) 0x0D04 .notice ∧ t.kw.cores = s.kw.cores

/-! ## Engines and the index -/

/-- Engine tasks (R280, R298, R300, R355, R359, R360, R369, R381, R383, R386, R387, R389, R397 to R399): each result goes out as a token with its buffer, each failure as an ERROR token; a unit that a check finds faulty is fenced and
its task queued again; the probe runs on one section and keeps 64 entries at most; a section whose reload fails is broken. And the index slots of Exist, Delete and Store (R363, R364).
Readings of the model: log entries 4, 94, 97, 98, 99. -/
def Obligations.EnginesAndIndex : Prop :=
  (∀ (t : TaskRef) (e : EngItem) (f : Flow) (n : Node) (k : Token) (s : State), ItemDone s t 1 e f n k →
      (∀ x, KV.get? (s.mat! t.quad.ix).sections (64 * f.inst + 4 * f.prog + n.entry % 4) = some x → x.broken = true) →
      Yields (.matchTaskDone t) s fun u => ItemFailed s u t.quad.ix e 0x078B)
    ∧ (∀ (t : TaskRef) (e : EngItem) (f : Flow) (n : Node) (k : Token) (x : Section) (l : List Byte) (h : Nat) (w s : State), ItemDone s t 1 e f n k →
        KV.get? (s.mat! t.quad.ix).sections (64 * f.inst + 4 * f.prog + n.entry % 4) = some x → x.broken = false → bitsOf n.entry 7 4 ≠ 3 →
        l = matchRecord x.bytes (bitsOf n.entry 7 4) (s.cfg (Pg.MAT t.quad.ix) Fd.MAT_LIMIT_MAX_ENTRIES) (scanAll x.bytes (s.scanData f k)).1 →
        s.bufAlloc t.quad.ix e.task.inst 1 l.length = some (h, w) → OtherBuffer k h →
        Yields (.matchTaskDone t) s fun u =>
          ResultIn s u t.quad.ix e n h l ∧ Counted s u (Pg.MAT t.quad.ix) Fd.MAT_CNT_COUNT 0 ∧ u.mat = s.mat ∧ l.length = 16 + 8 * ((l.length - 16) / 8)
            ∧ (l.getD 8 0).toNat = bitsOf n.entry 7 4)
    ∧ (∀ (t : TaskRef) (e : EngItem) (f : Flow) (n : Node) (k : Token) (s : State), ItemDone s t 2 e f n k →
        ((inflateOf (n.entry % 16) (if k.buf then k.aux.toNat / 2 ^ 32 else 0) (s.tokenData k)).1 ≠ 0 →
          Yields (.inflateTaskDone t) s fun u =>
            ItemFailed s u t.quad.ix e (0x700 + (inflateOf (n.entry % 16) (if k.buf then k.aux.toNat / 2 ^ 32 else 0) (s.tokenData k)).1)
              ∧ (u.page (Pg.CMP t.quad.ix)).evRaw.testBit 11 = true)
        ∧ ∀ (h : Nat) (w : State) (l : List Byte), inflateOf (n.entry % 16) (if k.buf then k.aux.toNat / 2 ^ 32 else 0) (s.tokenData k) = (0, l) →
          s.bufAlloc t.quad.ix e.task.inst 2 (inflateSize (n.entry % 16) (if k.buf then k.aux.toNat / 2 ^ 32 else 0) (s.tokenData k)) = some (h, w) → OtherBuffer k h →
          Yields (.inflateTaskDone t) s fun u => ResultIn s u t.quad.ix e n h l ∧ Counted s u (Pg.CMP t.quad.ix) Fd.CMP_CNT_COUNT 3)
    ∧ (∀ (t : TaskRef) (e : EngItem) (f : Flow) (n : Node) (k : Token) (a h : Nat) (w : State) (l : List Byte) (s : State), ItemDone s t 3 e f n k →
        a = (if k.buf then k.aux.toNat / 2 ^ 32 else 0) →
        l = compressed (n.entry % 16) (bitsOf n.entry 7 4) (bitsOf n.entry 10 8 + 8 * (if a < (s.tokenData k).length then a else 0)) (s.tokenData k) → l.length ≤ 2 ^ 20 →
        s.bufAlloc t.quad.ix e.task.inst 2 (min (2 ^ 20) (cmpBound (s.tokenData k).length a)) = some (h, w) → OtherBuffer k h →
        Yields (.deflateTaskDone t false) s fun u => ResultIn s u t.quad.ix e n h l ∧ Counted s u (Pg.CMP t.quad.ix) Fd.CMP_CNT_COUNT 3)
    ∧ (∀ (t : TaskRef) (e : EngItem) (f : Flow) (n : Node) (k : Token) (s : State), Awake s → ItemDone s t 3 e f n k → s.fence.unitFenced t.quad.ix .compressor t.unit.val = false →
        Yields (.deflateTaskDone t true) s fun u =>
          u.fence = { s.fence with units := insNat (unitKey t.quad.ix .compressor t.unit.val) s.fence.units } ∧ Logged s u (Pg.CMP t.quad.ix) 0x0F01 .absorbed
            ∧ Requeued s u t.quad.ix e)
    ∧ (∀ (quad : Quad) (dir : CmpDir) (unit : Fin 4) (e : EngItem) (kind : Nat) (s : State), kind = (match dir with | .compress => 3 | .decompress => 2) →
        ((s.disp quad.ix).engine.filter fun x => x.kind = kind).find? (fun x => x.unit = some unit.val) = some e →
        ((s.disp quad.ix).engine.filter fun x => x.kind = kind && x.suspended).length < 16 →
        ((s.disp quad.ix).engine.filter fun x => x.kind = kind && x.suspended && x.task.inst = e.task.inst).length < s.cfg (Pg.CMP quad.ix) Fd.CMP_YIELD_MAX_SUSP →
        Yields (.taskItemYield quad dir unit) s fun u =>
          (u.disp quad.ix).engine = (s.disp quad.ix).engine.filter (· ≠ e) ++ [{ e with unit := none, suspended := true }] ∧ Counted s u (Pg.CMP quad.ix) Fd.CMP_CNT_COUNT 4
            ∧ u.prog.flight = s.prog.flight)
    ∧ (∀ (path : Path) (quad : Quad) (s : State), Reached s path (Pg.MAT quad.ix) Fd.MAT_PROBE_GO_GO.off → (s.mat! quad.ix).probeBusy = false →
        (((s.tickPage (Pg.MAT quad.ix)).probeSection quad.ix).isSome = true → Yields (.probeGo path quad) s fun u =>
          OnlyCtl { s with mat := u.mat } u ∧ u.mat! quad.ix = { s.mat! quad.ix with probeBusy := true, probe := [], probeAt := 0, probeOver := false }
            ∧ ∀ q, q ≠ quad.ix → u.mat! q = s.mat! q)
        ∧ (((s.tickPage (Pg.MAT quad.ix)).probeSection quad.ix) = none → Yields (.probeGo path quad) s fun u =>
          OnlyCtl s u ∧ ∃ i, ErrorRecorded (s.tickPage (Pg.MAT quad.ix)) u (Pg.MAT quad.ix) 0x0100 i)
        ∧ Yields (.probeStep path quad) s fun u =>
          OnlyCtl { s with mat := u.mat } u
            ∧ u.mat! quad.ix = { s.mat! quad.ix with probeAt := min (s.mat! quad.ix).probe.length ((s.mat! quad.ix).probeAt + 1) })
    ∧ (∀ (quad : Quad) (s : State), (s.mat! quad.ix).probeBusy = true →
        Yields (.probeDone quad) s fun u =>
          OnlyCtl { s with mat := u.mat } u ∧ (u.mat! quad.ix).probeBusy = false ∧ (u.mat! quad.ix).probe.length ≤ 64 ∧ (u.mat! quad.ix).probeAt = 0
            ∧ (u.page (Pg.MAT quad.ix)).evRaw.testBit 11 = true ∧ (u.mat! quad.ix).sections = (s.mat! quad.ix).sections)
    ∧ (∀ (quad : Quad) (inst : Fin 256) (prog : Fin 16) (sect : Fin 4) (ok : Bool) (x : Section) (s : State), Awake s →
        KV.get? (s.mat! quad.ix).sections (64 * inst.val + 4 * prog.val + sect.val) = some x →
        Yields (.sectionReloadDone quad inst prog sect ok) s fun u =>
          KV.get? (u.mat! quad.ix).sections (64 * inst.val + 4 * prog.val + sect.val) = some { x with broken := ! ok }
            ∧ (u.page (Pg.MAT quad.ix)).evRaw.testBit 10 = true ∧ Logged s u (Pg.MAT quad.ix) (if ok then 0x0E01 else 0x0E02) (if ok then .absorbed else .degraded))
    ∧ (∀ (t : TaskRef) (eqFault neqFault : Bool) (e : EngItem) (f : Flow) (n : Node) (k : Token) (c h : Nat) (x : DigCtx) (w s : State), ItemDone s t 4 e f n k →
        s.unitCtx t.quad.ix t.unit.val = some (c, x) → x.direct = false → x.flow = t.flow → x.seq = t.seq → x.node = t.node → n.entry.testBit 5 = false →
        (s.digQ t.quad.ix).waits = [] → s.bufAlloc t.quad.ix e.task.inst 3 80 = some (h, w) → OtherBuffer k h →
        Yields (.digestTaskDone t eqFault neqFault) s fun u =>
          ∃ l, ResultIn s u t.quad.ix e n h l ∧ l.length = 80 ∧ l.drop 16 = sliceB (x.result x.msg) 0 64 ∧ l.getD 0 0 = BitVec.ofNat 8 x.alg ∧ leNat ((l.drop 4).take 4) = x.msg.length % 2 ^ 32
            ∧ KV.get? (u.digQ t.quad.ix).ctxs c = none ∧ Counted s u (Pg.DIG t.quad.ix) Fd.DIG_CNT_COUNT 0)
    ∧ (∀ (t : TaskRef) (eqFault neqFault : Bool) (e : EngItem) (f : Flow) (n : Node) (k : Token) (c : Nat) (x : DigCtx) (s : State), Awake s → ItemDone s t 4 e f n k →
        s.unitCtx t.quad.ix t.unit.val = some (c, x) → x.direct = false → x.flow = t.flow → x.seq = t.seq → x.node = t.node → n.entry.testBit 5 = true → n.entry.testBit 4 = false →
        digLen x.alg ≤ x.msg.length → eqFault ≠ neqFault → s.fence.unitFenced t.quad.ix .digest t.unit.val = false →
        Yields (.digestTaskDone t eqFault neqFault) s fun u =>
          u.fence = { s.fence with units := insNat (unitKey t.quad.ix .digest t.unit.val) s.fence.units } ∧ Logged s u (Pg.DIG t.quad.ix) 0x1001 .absorbed ∧ Requeued s u t.quad.ix e)
    ∧ (∀ (quad : Quad) (unit : Fin 4) (c k i : Nat) (x : DigCtx) (d : Drr) (s : State), KV.get? (s.digQ quad.ix).onUnit unit.val = some c →
        ((s.digQ quad.ix).ctxs.filter fun y => (! y.2.direct || (s.digQ quad.ix).req.any (·.due.isNone)) && ! (s.digQ quad.ix).onUnit.any fun u => u.2 = y.1) = [(k, x)] →
        x.inst = i → d = KV.getD .init (s.disp quad.ix).eng 4 → d.last = i → 0 < KV.getD 0 d.credit i →
        Yields (.digestUnitSwitch quad unit) s fun u =>
          KV.get? (u.digQ quad.ix).onUnit unit.val = some k ∧ Counted s u (Pg.DIG quad.ix) Fd.DIG_CNT_COUNT 2
            ∧ ∃ d', KV.get? (u.disp quad.ix).eng 4 = some d' ∧ KV.getD 0 d'.credit i = KV.getD 0 d.credit i - s.cfg (Pg.DIG quad.ix) Fd.DIG_SCHED_BLOCKS)
    ∧ (∀ (c k nsid : Nat) (x : Ctx) (n : NsS) (cap : Cap) (key : List Byte) (s : State), s.ctx? c = some x → Current s x → x.op = .exist cap nsid key →
        s.nsOf x.inst nsid = some (k, n) → (s.mat! (s.indexQuad k (n.bucketOf k key))).searches.head? = some c →
        Yields (.indexSearchSlot c) s fun t =>
          CommandEnds t c x (if (s.findKey (s.indexQuad k (n.bucketOf k key)) k n key).1.isSome then ⟨0, 0, false⟩ else ⟨0, 0x87, true⟩) ∧ t.mat.kv = s.mat.kv
            ∧ (t.mat! (s.indexQuad k (n.bucketOf k key))).searches = (s.mat! (s.indexQuad k (n.bucketOf k key))).searches.tail)
    ∧ (∀ (c k nsid : Nat) (x : Ctx) (n : NsS) (cap : Cap) (key : List Byte) (slot : Nat) (o : KvSlot) (s : State), s.ctx? c = some x → Current s x → x.op = .delete cap nsid key →
        s.nsOf x.inst nsid = some (k, n) → (s.mat! (s.indexQuad k (n.bucketOf k key))).updates.head? = some c →
        (s.findKey (s.indexQuad k (n.bucketOf k key)) k n key).1 = some (slot, o) →
        Yields (.indexUpdateSlot c) s fun t =>
          CommandEnds t c x ⟨0, 0, false⟩ ∧ KV.get? t.mat.kv (kvKey k (n.bucketOf k key) slot) = none ∧ Journaled s t 0x1D (indexKey (n.bucketOf k key) slot key.length) 0
            ∧ ∀ j, j ≠ kvKey k (n.bucketOf k key) slot → KV.get? t.mat.kv j = KV.get? s.mat.kv j)
    ∧ ∀ (c k nsid declared : Nat) (x : Ctx) (n : NsS) (cap : Cap) (key data : List Byte) (noOver must : Bool) (slot : Nat) (s : State), s.ctx? c = some x →
        x.op = .store cap nsid key noOver must declared data → s.nsOf x.inst nsid = some (k, n) →
        (s.mat! (s.indexQuad k (n.bucketOf k key))).updates.head? = some c → (s.findKey (s.indexQuad k (n.bucketOf k key)) k n key).1 = none → must = false →
        s.keyCount k < n.grains → s.emptySlot k (n.bucketOf k key) = some slot →
        Yields (.indexUpdateSlot c) s fun t =>
          KV.get? t.mat.kv (kvKey k (n.bucketOf k key) slot) = some ⟨key, n.keyHash k key % 2 ^ 16, x.aux - 1, declared⟩
            ∧ Journaled s t 0x1C (indexKey (n.bucketOf k key) slot key.length) ((x.aux - 1) * 2 ^ 21 + declared)
            ∧ (t.mat! (s.indexQuad k (n.bucketOf k key))).updates = (s.mat! (s.indexQuad k (n.bucketOf k key))).updates.tail

/-- Direct digest requests and the key store (R395, R396, R400, R401, R404 to R406, R416): OPEN and ONESHOT take a context with their key; UPDATE, FINAL and ONESHOT add bytes to the message; a request without a
compare shows its result, HKDF writes a derived key; CLOSE, the idle limit and the wait limit end what they end; each key operation changes its slot alone, and a slot that is not EMPTY is not filled.
Readings of the model: log entries 4, 100, 101. -/
def Obligations.DigestsAndKeys : Prop :=
  (∀ (path : Path) (quad : Quad) (cmd : Word) (c : Nat) (s : State), DigestFree s path quad.ix → (s.digQ quad.ix).session = none → (s.digQ quad.ix).freeCtx 0 = some c →
      bitsOf cmd.toNat 7 4 ≤ 6 → (cmd.toNat.testBit 8 = true → bitsOf cmd.toNat 7 4 ≤ 4 ∧ (s.keySlot (bitsOf cmd.toNat 21 12)).usable 1 0 0 = true) →
      (Yields (.digOpen path quad cmd) s fun t =>
        DigestEnded t quad.ix 4 ∧ (t.digQ quad.ix).session = some c
          ∧ ∃ x, KV.get? (t.digQ quad.ix).ctxs c = some x ∧ x.direct = true ∧ x.inst = 0 ∧ x.alg = bitsOf cmd.toNat 7 4 ∧ x.hmac = cmd.toNat.testBit 8 ∧ x.msg = []
            ∧ x.key = if cmd.toNat.testBit 8 then (s.keySlot (bitsOf cmd.toNat 21 12)).key else [])
      ∧ (bitsOf cmd.toNat 30 22 ≤ 256 → (cmd.toNat.testBit 9 = true → bitsOf cmd.toNat 30 22 ≤ 192) →
        Yields (.digOneshot path quad cmd) s fun t =>
          t.digResult quad.ix = 8 ∧ (t.digQ quad.ix).session = some c ∧ (∃ r, (t.digQ quad.ix).req = some r ∧ r.op = 4 ∧ r.due = none)
            ∧ ∃ x, KV.get? (t.digQ quad.ix).ctxs c = some x ∧ x.direct = true ∧ x.alg = bitsOf cmd.toNat 7 4
              ∧ x.msg = ((s.tickPage (Pg.DIG quad.ix)).regBytes (Pg.DIG quad.ix) Fd.DIG_REQ_DATA_DATA 64).take (bitsOf cmd.toNat 30 22)))
    ∧ (∀ (path : Path) (quad : Quad) (cmd : Word) (c : Nat) (x : DigCtx) (s : State), DigestFree s path quad.ix → (s.digQ quad.ix).session = some c →
        KV.get? (s.digQ quad.ix).ctxs c = some x → bitsOf cmd.toNat 30 22 ≤ 256 → (cmd.toNat.testBit 9 = true → bitsOf cmd.toNat 30 22 ≤ 192) →
        ∀ e ∈ [(2, Instr.digUpdate path quad cmd), (3, .digFinal path quad cmd)],
          Yields e.2 s fun t =>
            t.digResult quad.ix = 8 ∧ (∃ r, (t.digQ quad.ix).req = some r ∧ r.op = e.1 ∧ r.due = none) ∧ OnlyCtl { s with dig := t.dig } t
              ∧ ∃ y, KV.get? (t.digQ quad.ix).ctxs c = some y ∧ { y with msg := x.msg, since := x.since } = x
                ∧ y.msg = x.msg ++ ((s.tickPage (Pg.DIG quad.ix)).regBytes (Pg.DIG quad.ix) Fd.DIG_REQ_DATA_DATA 64).take (bitsOf cmd.toNat 30 22))
    ∧ (∀ (path : Path) (quad : Quad) (cmd : Word) (s : State), DigestFree s path quad.ix → (s.digQ quad.ix).session = none →
        ∀ e ∈ [Instr.digUpdate path quad cmd, .digFinal path quad cmd], bitsOf cmd.toNat 30 22 ≤ 256 → (cmd.toNat.testBit 9 = true → bitsOf cmd.toNat 30 22 ≤ 192) →
          Yields e s fun t => DigestEnded t quad.ix (4 + 16 * 4) ∧ OnlyCtl { s with dig := t.dig } t ∧ (t.digQ quad.ix).ctxs = (s.digQ quad.ix).ctxs)
    ∧ (∀ (path : Path) (quad : Quad) (cmd : Word) (s : State), DigestFree s path quad.ix →
        (bitsOf cmd.toNat 7 4 ≤ 1 → bitsOf ((s.tickPage (Pg.DIG quad.ix)).live (Pg.DIG quad.ix * 4096 + Fd.DIG_REQ_HKDF_SALT_LEN.off)) 7 0 ≤ 128 →
          bitsOf ((s.tickPage (Pg.DIG quad.ix)).live (Pg.DIG quad.ix * 4096 + Fd.DIG_REQ_HKDF_SALT_LEN.off)) 15 8 ≤ 128 →
          (s.keySlot (bitsOf cmd.toNat 21 12)).usable 1 1 0 = true →
          Yields (.digHkdf path quad cmd) s fun t =>
            t.digResult quad.ix = 8 ∧ (t.digQ quad.ix).ctxs = (s.digQ quad.ix).ctxs ∧ ∃ r, (t.digQ quad.ix).req = some r ∧ r.op = 5 ∧ r.cmd = reqWord 5 cmd)
        ∧ (NoItemWaits s quad.ix → Yields (.digClose path quad cmd) s fun t => DigestEnded t quad.ix 4 ∧ (t.digQ quad.ix).session = none))
    ∧ (∀ (quad : Quad) (r : DigReq) (c d : Nat) (s : State), (s.digQ quad.ix).req = some r → r.due = some d → (s.digQ quad.ix).freeCtx 0 = some c →
        NoItemWaits s quad.ix → digDirect ∈ (s.digQ quad.ix).waits →
        Yields (.digestContextGrant quad) s fun t =>
          (t.digQ quad.ix).session = some c ∧ ∃ x, KV.get? (t.digQ quad.ix).ctxs c = some x ∧ x.direct = true ∧ x.inst = 0)
    ∧ (∀ (quad : Quad) (r : DigReq) (d : Nat) (s : State), (s.digQ quad.ix).req = some r → r.due = some d → NoItemWaits s quad.ix →
        Yields (.engineBusyTimeout quad) s fun t =>
          t.now = max s.now d ∧ DigestEnded t quad.ix (4 + 16 * 1) ∧ Counted s t (Pg.DIG quad.ix) Fd.DIG_CNT_COUNT 3 ∧ (t.page (Pg.DIG quad.ix)).evRaw.testBit 12 = true)
    ∧ (∀ (quad : Quad) (r : DigReq) (c : Nat) (x : DigCtx) (u : Nat) (s : State), (s.digQ quad.ix).req = some r → r.due = none → (s.digQ quad.ix).session = some c →
        KV.get? (s.digQ quad.ix).ctxs c = some x → (u, c) ∈ (s.digQ quad.ix).onUnit → NoItemWaits s quad.ix →
        (r.op = 2 → Yields (.digestRequestDone quad false false) s fun t => DigestEnded t quad.ix 4 ∧ (t.digQ quad.ix).session = some c)
        ∧ (r.op = 3 ∨ r.op = 4 → r.compare = false → r.derive = false → Yields (.digestRequestDone quad false false) s fun t =>
          DigestEnded t quad.ix (4 + 256 * digLen x.alg) ∧ (t.digQ quad.ix).session = none
            ∧ ∀ k, k < 16 → t.cfgAt (Pg.DIG quad.ix) Fd.DIG_RESULT_DATA_DATA k = u32 (x.result x.msg) (4 * k))
        ∧ (r.op = 3 ∨ r.op = 4 → r.compare = true → r.derive = false → Yields (.digestRequestDone quad false false) s fun t =>
          DigestEnded t quad.ix ((if x.result x.msg = sliceB r.data 192 (digLen x.alg) then 1 else 2) + 4 + 256 * digLen x.alg)
            ∧ ∀ k, k < 16 → t.cfgAt (Pg.DIG quad.ix) Fd.DIG_RESULT_DATA_DATA k = 0))
    ∧ (∀ (quad : Quad) (r : DigReq) (eq neq : Bool) (s : State), Awake s → (s.digQ quad.ix).req = some r → r.due = none → r.op = 5 → s.targetOk r (bitsOf r.target 23 16) = true →
        Yields (.digestRequestDone quad eq neq) s fun t =>
          DigestEnded t quad.ix (4 + 256 * bitsOf r.target 23 16) ∧ Logged s t Pg.SEC 0x1003 .info ∧ Counted s t (Pg.DIG quad.ix) Fd.DIG_CNT_COUNT 5
            ∧ ∃ k, OnlyKey s t (r.target % 1024) k ∧ k.origin = 5 ∧ k.type = bitsOf r.target 12 10 ∧ k.owner = r.acl % 256 ∧ k.perm = bitsOf r.acl 15 8
              ∧ k.key = hkdf (bitsOf r.cmd 7 4) (s.keySlot r.slot).key (sliceB r.data 0 (bitsOf r.hkdf 7 0)) (sliceB r.data 128 (bitsOf r.hkdf 15 8)) (bitsOf r.target 23 16))
    ∧ (∀ (quad : Quad) (c : Nat) (s : State), (s.digQ quad.ix).session = some c → (s.digQ quad.ix).req = none → NoItemWaits s quad.ix →
        Yields (.sessionIdleTimeout quad) s fun t =>
          t.now = max s.now ((s.digQ quad.ix).idleAt + 1000000000 * s.cfg (Pg.DIG quad.ix) Fd.DIG_REQ_CTRL_IDLE_S) ∧ (t.digQ quad.ix).session = none
            ∧ (t.digQ quad.ix).idleClosed = true ∧ Counted s t (Pg.DIG quad.ix) Fd.DIG_CNT_COUNT 7)
    ∧ (∀ (path : Path) (u s : State), Awake s → Reached s path Pg.SEC Fd.SEC_KEY_OP_OP.off → u = s.tickPage Pg.SEC → KeyAttrOk u →
        ((u.secAttr Fd.SEC_KEY_ATTR_TYPE = 4 → Config.onCurve ((u.regBytes Pg.SEC Fd.SEC_KEY_DATA_DATA 34).take (u.secAttr Fd.SEC_KEY_ATTR_LEN)) = true) →
          Yields (.keyLoad path) s fun t =>
            KeyEnded t 0 ∧ Logged s t Pg.SEC 0x1003 .info
              ∧ OnlyKey s t (u.cfg Pg.SEC Fd.SEC_KEY_SEL_SLOT) (u.newKey 2 ((u.regBytes Pg.SEC Fd.SEC_KEY_DATA_DATA 34).take (u.secAttr Fd.SEC_KEY_ATTR_LEN))))
        ∧ (∀ wrap : BitVec 10, (u.keySlot wrap.toNat).usable 2 2 0 = true →
          Yields (.keyLoadWrapped path wrap) s fun t =>
            match Config.keyUnwrap (u.keySlot wrap.toNat).key ((u.regBytes Pg.SEC Fd.SEC_KEY_DATA_DATA 34).take (u.secAttr Fd.SEC_KEY_ATTR_LEN + 8)) with
            | none => KeyEnded t 3 ∧ OnlyCtl s t
            | some key =>
              if u.secAttr Fd.SEC_KEY_ATTR_TYPE = 4 ∧ Config.onCurve key = false then KeyEnded t 6 ∧ OnlyCtl s t
              else KeyEnded t 0 ∧ Logged s t Pg.SEC 0x1003 .info ∧ OnlyKey s t (u.cfg Pg.SEC Fd.SEC_KEY_SEL_SLOT) (u.newKey 3 key))
        ∧ (u.secAttr Fd.SEC_KEY_ATTR_TYPE ≠ 4 → s.sec.trngFailed = false →
          Yields (.keyGenerate path true) s fun t =>
            KeyEnded t 0 ∧ Logged s t Pg.SEC 0x1003 .info
              ∧ ∃ key, key.length = u.secAttr Fd.SEC_KEY_ATTR_LEN ∧ OnlyKey s t (u.cfg Pg.SEC Fd.SEC_KEY_SEL_SLOT) (u.newKey 4 key)))
    ∧ (∀ (path : Path) (u s : State), Reached s path Pg.SEC Fd.SEC_KEY_OP_OP.off → u = s.tickPage Pg.SEC → 16 ≤ u.cfg Pg.SEC Fd.SEC_KEY_SEL_SLOT →
        (Awake s → Yields (.keyDestroy path) s fun t =>
          KeyEnded t 0 ∧ Logged s t Pg.SEC 0x1003 .info ∧ OnlyKey s t (u.cfg Pg.SEC Fd.SEC_KEY_SEL_SLOT) .empty)
        ∧ ((u.keySlot (u.cfg Pg.SEC Fd.SEC_KEY_SEL_SLOT)).type ≠ 0 → u.secAttr Fd.SEC_KEY_ATTR_TYPE ≤ 3 →
          ∀ i ∈ [Instr.keyLoad path, .keyLoadWrapped path 0, .keyGenerate path true], Yields i s fun t => KeyEnded t 1 ∧ OnlyCtl s t))
    ∧ ∀ s : State, Awake s → s.isUp Dom.SEC = true → s.sec.trngFailed = false →
        Yields .trngHealthFailure s fun t => t.sec = { s.sec with trngFailed := true } ∧ Logged s t Pg.SEC 0x1006 .critical

/-! ## The management bus -/

/-- While the MP answers the bus, every message is answered (R415, R420, R427 to R429); in OFF, in HOLD-UP and while the MP restarts no message has an effect.
Readings of the model: log entries 54, 55. -/
def Obligations.ManagementBus : Prop :=
  (∀ (eid : BitVec 8) (s : State), s.busUp = true →
      Yields (.mctpSetEndpointId eid) s fun t =>
        if eid = 0 ∨ eid = 0xFF then t = { s with out := .mctpCtl 2 [] :: s.out }
        else t = { s with out := .mctpCtl 0 [0, eid, 0] :: s.out, mctp := { s.mctp with eid := eid.toNat } })
    ∧ (∀ s : State, s.busUp = true →
        (Yields .mctpGetEndpointId s fun t => t = { s with out := .mctpCtl 0 [BitVec.ofNat 8 s.mctp.eid, 0, 0] :: s.out })
        ∧ (Yields .mctpGetMessageTypeSupport s fun t => t = { s with out := .mctpCtl 0 [2, 0x04, 0x7F] :: s.out })
        ∧ Yields .mctpGetVendorMessageSupport s fun t =>
          { t with out := s.out, free := s.free } = s ∧ ∃ l, t.out = .mctpCtl 0 l :: s.out ∧ l.length = 8 ∧ beNat ((l.drop 2).take 4) = 57931)
    ∧ (∀ (m : BitVec 8) (s : State), s.busUp = true →
        Yields (.mctpGetVersionSupport m) s fun t =>
          { t with out := s.out, free := s.free } = s
            ∧ ∃ c l, t.out = .mctpCtl c l :: s.out ∧ c = if m = 0 ∨ m = 4 ∨ m = 0x7F ∨ m = 0xFF then 0 else 0x80)
    ∧ (∀ (d : BitVec 8) (s : State), s.busUp = true →
        Yields (.miReadDataStructure d) s fun t =>
          { t with out := s.out, free := s.free } = s
            ∧ ∃ c l, t.out = .mctpCtl c l :: s.out ∧ (c = 0 ↔ d.toNat < 5)
              ∧ (d = 2 → l = leBytes 2 s.cmd.ctrls.length ++ s.cmd.ctrls.flatMap fun k => leBytes 2 k.1))
    ∧ (∀ (clear : Bool) (first : Nat) (s : State), s.busUp = true →
        (Yields (.miSubsystemHealthPoll clear) s fun t => { t with out := s.out, free := s.free } = s ∧ ∃ l, t.out = .mctpCtl 0 l :: s.out ∧ l.length = 8)
        ∧ Yields (.miControllerHealthPoll first) s fun t =>
          { t with out := s.out, free := s.free } = s
            ∧ ∃ l, t.out = .mctpCtl 0 l :: s.out ∧ l.length = 16 * (s.cmd.ctrls.filter fun c => decide (first ≤ c.1)).length)
    ∧ (∀ (id : BitVec 8) (v : Nat) (s : State), s.busUp = true →
        (Yields (.miConfigurationGet id) s fun t =>
          t = { s with out := (if id = 1 then .mctpCtl 0 (leBytes 3 (if s.mctp.smbusKhz = 400 then 2 else 1))
                else if id = 3 then .mctpCtl 0 (leBytes 3 s.mctp.mtu) else .mctpCtl 4 []) :: s.out })
        ∧ Yields (.miConfigurationSet id v) s fun t =>
          if id = 1 ∧ (v = 1 ∨ v = 2) then t = { s with out := .mctpCtl 0 [] :: s.out, mctp := { s.mctp with smbusKhz := if v = 2 then 400 else 100 } }
          else if id = 3 ∧ v = 64 then t = { s with out := .mctpCtl 0 [] :: s.out, mctp := { s.mctp with mtu := 64 } }
          else t = { s with out := .mctpCtl 4 [] :: s.out })
    ∧ (∀ (tag : Byte) (a : BitVec 26) (n : BitVec 11) (s : State), s.busUp = true →
        (accessOk .manager a (pageOf a) (offOf a) n.toNat = false ∨ 12 < n.toNat →
          (Yields (.mctpControlRead tag a n) s fun t => t = { s with out := .mctp tag 1 [] :: s.out })
          ∧ ∀ (l : List Word) (c : Bool), Yields (.mctpControlWrite tag a n l c) s fun t => t = { s with out := .mctp tag 1 [] :: s.out })
        ∧ (accessOk .manager a (pageOf a) (offOf a) n.toNat = true → n.toNat ≤ 12 →
          Yields (.mctpControlRead tag a n) s fun t =>
            t.out = .mctp tag 0 (((s.tickPage (pageOf a)).readWords .manager (pageOf a) (offOf a) n.toNat).1.flatMap fun v => leBytes 4 v)
                :: ((s.tickPage (pageOf a)).readWords .manager (pageOf a) (offOf a) n.toNat).2.out)
        ∧ ∀ (l : List Word) (pt off : Nat) (f : Field), accessOk .manager a (pageOf a) (offOf a) n.toNat = true → n = 1 → pt = pageType (pageOf a) → off = offOf a →
          off < 0x400 → s.inHoldup = false → NoAction (pageOf a) off → (∀ g ∈ RegMap.at pt off, g.acc = .rw) → f ∈ RegMap.at pt off →
          (s.tickPage (pageOf a)).unitState (pageOf a) = 0 →
          Yields (.mctpControlWrite tag a n l false) s fun t => OnlyCtl { s with out := t.out } t ∧ ∃ d, t.out = .mctp tag 0 d :: s.out ∧ d.length = 4)
    ∧ (∀ (tag : Byte) (l : List Byte) (s : State), s.busUp = true →
        Yields (.mctpAttestNonce tag l) s fun t =>
          t = if l.length = 32 then { s with out := .mctp tag 0 [] :: s.out, mctp := { s.mctp with nonce := some l } } else { s with out := .mctp tag 1 [] :: s.out })
    ∧ (∀ (tag : Byte) (off : Nat) (s : State), s.busUp = true →
        (∀ l, s.mctp.nonce = some l → Yields (.mctpAttestReport tag 0) s fun t =>
          t = { s with out := .mctp tag 0 (sliceB (s.attestReport 0 l) 0 32) :: s.out, mctp := { s.mctp with nonce := none, report := s.attestReport 0 l } })
        ∧ (s.mctp.nonce = none → Yields (.mctpAttestReport tag 0) s fun t => t = { s with out := .mctp tag 1 [] :: s.out })
        ∧ (off ≠ 0 → Yields (.mctpAttestReport tag off) s fun t =>
          t = { s with out := (if off % 32 ≠ 0 ∨ 608 ≤ off ∨ s.mctp.report = [] then .mctp tag 1 [] else .mctp tag 0 (sliceB s.mctp.report off 32)) :: s.out }))
    ∧ (∀ (tag : Byte) (first : BitVec 32) (n : Nat) (s : State), s.busUp = true →
        Yields (.mctpLogRead tag first n) s fun t =>
          t = { s with out := (if n = 0 ∨ 48 < n then .mctp tag 1 [] else .mctp tag 0 ((List.range n).flatMap fun k => s.logEntry (first.toNat + k))) :: s.out })
    ∧ (∀ (tag : Byte) (ns : Dword) (s : State), s.busUp = true →
        (s.time.ptpLocked = true → Yields (.mctpTimeSet tag ns) s fun t => t = { s with out := .mctp tag 0 [] :: s.out })
        ∧ (s.time.ptpLocked = false → 0 ≤ (s.now : Int) + s.time.base →
          Yields (.mctpTimeSet tag ns) s fun t => t.timeNs = ns.toNat ∧ t.now = s.now ∧ .mctp tag 0 [] ∈ t.out))
    ∧ (∀ (tag : Byte) (first n : Nat) (s : State), s.busUp = true →
        Yields (.mctpSensorRead tag first n) s fun t =>
          t = { s with out := (if n = 0 ∨ 12 < n ∨ 128 < first + n then .mctp tag 1 [] else .mctp tag 0 ((List.range n).flatMap fun k => leBytes 4 (s.sensorWord (first + k)))) :: s.out })
    ∧ ∀ (i : Instr) (s : State), s.busUp = false →
        i ∈ [Instr.mctpGetEndpointId, .mctpGetMessageTypeSupport, .mctpGetVendorMessageSupport] ∨ (∃ e, i = .mctpSetEndpointId e) ∨ (∃ tag ns, i = .mctpTimeSet tag ns)
          ∨ (∃ tag a n, i = .mctpControlRead tag a n) ∨ (∃ tag a n l c, i = .mctpControlWrite tag a n l c) ∨ (∃ tag l, i = .mctpAttestNonce tag l) →
        exec i s = .next s
end

