-- ==== Sys2Proof/Laws/Tables.lean ====
section
/-! SUPPORT. Reading a table after a change of it, and the canonical forms that the changes keep. -/

namespace Sys2Proof.Laws

open Sys2Proof

variable {α : Type}

/-! ## Reading after a change -/

@[simp] theorem get?_put_same (m : List (Nat × α)) (a : Nat) (v : α) : KV.get? (KV.put m a v) a = some v := by
  induction m with
  | nil => simp [KV.put, KV.get?]
  | cons e m ih =>
    obtain ⟨k, w⟩ := e
    simp only [KV.put]
    split
    · simp [KV.get?]
    · split
      · simp [KV.get?]
      · simp_all [KV.get?]

theorem get?_put_other (m : List (Nat × α)) {a b : Nat} (v : α) (h : b ≠ a) : KV.get? (KV.put m a v) b = KV.get? m b := by
  induction m with
  | nil => simp [KV.put, KV.get?, h]
  | cons e m ih =>
    obtain ⟨k, w⟩ := e
    simp only [KV.put]
    split
    · simp [KV.get?, h]
    · split
      · subst_vars; simp [KV.get?, h]
      · simp [KV.get?, ih]

theorem get?_put (m : List (Nat × α)) (a b : Nat) (v : α) :
    KV.get? (KV.put m a v) b = if b = a then some v else KV.get? m b := by
  split
  · subst_vars; simp
  · exact get?_put_other m v ‹_›

theorem get?_adjust (m : List (Nat × α)) (a b : Nat) (f : α → α) :
    KV.get? (KV.adjust m a f) b = if b = a then (KV.get? m b).map f else KV.get? m b := by
  induction m with
  | nil => simp [KV.adjust, KV.get?]
  | cons e m ih =>
    obtain ⟨k, w⟩ := e
    simp only [KV.adjust]
    by_cases h : a = k
    · subst h; simp only [if_pos, KV.get?]; split <;> simp_all
    · simp only [if_neg h, KV.get?, ih]
      by_cases hb : b = k
      · subst hb; simp [Ne.symm h]
      · simp [hb]

@[simp] theorem getD_put_same (d : α) (m : List (Nat × α)) (a : Nat) (v : α) : KV.getD d (KV.put m a v) a = v := by
  simp [KV.getD]

theorem getD_put_other (d : α) (m : List (Nat × α)) {a b : Nat} (v : α) (h : b ≠ a) :
    KV.getD d (KV.put m a v) b = KV.getD d m b := by
  simp [KV.getD, get?_put_other m v h]

@[simp] theorem getD_modify_same (d : α) (m : List (Nat × α)) (a : Nat) (f : α → α) :
    KV.getD d (KV.modify d m a f) a = f (KV.getD d m a) := by
  simp [KV.modify]

theorem getD_modify_other (d : α) (m : List (Nat × α)) {a b : Nat} (f : α → α) (h : b ≠ a) :
    KV.getD d (KV.modify d m a f) b = KV.getD d m b := by
  simp [KV.modify, getD_put_other d m _ h]

theorem get?_del (m : List (Nat × α)) (a b : Nat) : KV.get? (KV.del m a) b = if b = a then none else KV.get? m b := by
  induction m with
  | nil => simp [KV.del, KV.get?]
  | cons e m ih =>
    obtain ⟨k, w⟩ := e
    simp only [KV.del]
    by_cases h : a = k
    · subst h; rw [if_pos rfl, ih, KV.get?]; split <;> rfl
    · rw [if_neg h]; simp only [KV.get?, ih]
      by_cases hb : b = k
      · subst hb; simp [Ne.symm h]
      · simp [hb]

/-- A write is read back, and no other key changes. -/
theorem getD_set [DecidableEq α] (d : α) (m : List (Nat × α)) (a b : Nat) (v : α) :
    KV.getD d (KV.set d m a v) b = if b = a then v else KV.getD d m b := by
  simp only [KV.set, KV.getD]
  split
  · subst_vars; rw [get?_del]; split <;> rfl
  · rw [get?_put]; split <;> rfl

theorem getD_set_other [DecidableEq α] {d : α} {m : List (Nat × α)} {a b : Nat} (v : α) (h : b ≠ a) :
    KV.getD d (KV.set d m a v) b = KV.getD d m b := by
  rw [getD_set, if_neg h]

/-! ## Rising keys -/

theorem risingFrom_mono {lo lo' : Nat} {m : List (Nat × α)} (h : lo' ≤ lo) (hm : KV.risingFrom lo m = true) :
    KV.risingFrom lo' m = true := by
  cases m with
  | nil => rfl
  | cons e m =>
    obtain ⟨k, w⟩ := e
    simp only [KV.risingFrom, Bool.and_eq_true, decide_eq_true_eq] at *
    exact ⟨by omega, hm.2⟩

theorem get?_below {lo b : Nat} {m : List (Nat × α)} (hm : KV.risingFrom lo m = true) (hb : b < lo) :
    KV.get? m b = none := by
  induction m generalizing lo with
  | nil => rfl
  | cons e m ih =>
    obtain ⟨k, w⟩ := e
    simp [KV.risingFrom] at hm
    have : b ≠ k := by omega
    simp [KV.get?, this, ih hm.2 (by omega)]

theorem risingFrom_put {lo : Nat} {m : List (Nat × α)} {a : Nat} {v : α} (ha : lo ≤ a) (hm : KV.risingFrom lo m = true) :
    KV.risingFrom lo (KV.put m a v) = true := by
  induction m generalizing lo with
  | nil => simp [KV.put, KV.risingFrom, ha]
  | cons e m ih =>
    obtain ⟨k, w⟩ := e
    simp [KV.risingFrom] at hm
    simp only [KV.put]
    split
    · simp [KV.risingFrom, ha, hm.2]; omega
    · split
      · subst_vars; simp [KV.risingFrom, ha, hm.2]
      · simp only [KV.risingFrom, Bool.and_eq_true, decide_eq_true_eq]
        exact ⟨hm.1, ih (by omega) hm.2⟩

theorem risingFrom_del {lo : Nat} {m : List (Nat × α)} {a : Nat} (hm : KV.risingFrom lo m = true) :
    KV.risingFrom lo (KV.del m a) = true := by
  induction m generalizing lo with
  | nil => rfl
  | cons e m ih =>
    obtain ⟨k, w⟩ := e
    simp [KV.risingFrom] at hm
    simp only [KV.del]
    split
    · exact ih (risingFrom_mono (by omega) hm.2)
    · simp only [KV.risingFrom, Bool.and_eq_true, decide_eq_true_eq]
      exact ⟨hm.1, ih hm.2⟩

theorem noDefault_put [DecidableEq α] {d v : α} {m : List (Nat × α)} {a : Nat} (hv : v ≠ d) (hm : KV.noDefault d m = true) :
    KV.noDefault d (KV.put m a v) = true := by
  induction m with
  | nil => simp [KV.put, KV.noDefault, hv]
  | cons e m ih =>
    obtain ⟨k, w⟩ := e
    simp only [KV.noDefault, List.all_cons, Bool.and_eq_true] at hm ih ⊢
    simp only [KV.put]
    split
    · simp only [List.all_cons, Bool.and_eq_true, decide_eq_true_eq]
      exact ⟨hv, by simpa using hm.1, hm.2⟩
    · split
      · simp only [List.all_cons, Bool.and_eq_true, decide_eq_true_eq]
        exact ⟨hv, hm.2⟩
      · simp only [List.all_cons, Bool.and_eq_true]
        exact ⟨hm.1, ih hm.2⟩

theorem noDefault_del [DecidableEq α] {d : α} {m : List (Nat × α)} {a : Nat} (hm : KV.noDefault d m = true) :
    KV.noDefault d (KV.del m a) = true := by
  induction m with
  | nil => rfl
  | cons e m ih =>
    obtain ⟨k, w⟩ := e
    simp only [KV.noDefault, List.all_cons, Bool.and_eq_true] at hm ih ⊢
    simp only [KV.del]
    split
    · exact ih hm.2
    · simp only [List.all_cons, Bool.and_eq_true]
      exact ⟨hm.1, ih hm.2⟩

/-- Every write of a table keeps its canonical form. -/
theorem wf_set [DecidableEq α] {d : α} {m : List (Nat × α)} {a : Nat} {v : α} (hm : KV.wf d m = true) :
    KV.wf d (KV.set d m a v) = true := by
  simp only [KV.wf, Bool.and_eq_true] at hm ⊢
  simp only [KV.set]
  split
  · exact ⟨risingFrom_del hm.1, noDefault_del hm.2⟩
  · exact ⟨risingFrom_put (Nat.zero_le a) hm.1, noDefault_put ‹_› hm.2⟩

/-! ## Memories of bytes -/

theorem mem_wf_write {m : Mem} (a : Nat) (v : Byte) (h : m.wf = true) : (m.write a v).wf = true := wf_set h

theorem mem_wf_writeBytes {m : Mem} (a : Nat) (bs : List Byte) (h : m.wf = true) : (m.writeBytes a bs).wf = true := by
  induction bs generalizing m a with
  | nil => exact h
  | cons b bs ih => exact ih (a + 1) (mem_wf_write a b h)

theorem mem_read_write (m : Mem) (a b : Nat) (v : Byte) :
    (m.write a v).read b = if b = a then v else m.read b := getD_set 0 m a b v

theorem mem_read_write_other {m : Mem} {a b : Nat} (v : Byte) (h : b ≠ a) : (m.write a v).read b = m.read b :=
  getD_set_other v h

/-- A store changes no byte outside the bytes it names. -/
theorem mem_read_writeBytes_other {m : Mem} (a : Nat) (bs : List Byte) {b : Nat} (h : b < a ∨ a + bs.length ≤ b) :
    (m.writeBytes a bs).read b = m.read b := by
  induction bs generalizing m a with
  | nil => rfl
  | cons x bs ih =>
    simp only [List.length_cons] at h
    rw [Mem.writeBytes, ih (a + 1) (by omega), mem_read_write_other x (by omega)]

/-- A store is read back. -/
theorem mem_read_writeBytes (m : Mem) (a : Nat) (bs : List Byte) (k : Nat) (hk : k < bs.length) :
    (m.writeBytes a bs).read (a + k) = bs[k] := by
  induction bs generalizing m a k with
  | nil => simp at hk
  | cons x bs ih =>
    rw [Mem.writeBytes]
    cases k with
    | zero =>
      rw [mem_read_writeBytes_other (a + 1) bs (by omega)]
      simp [mem_read_write]
    | succ k =>
      have := ih (m.write a x) (a + 1) k (by simpa using hk)
      simpa [Nat.add_assoc, Nat.add_comm 1 k] using this

/-! ## Bit fields -/

theorem bitsOf_lt (w hi lo : Nat) : bitsOf w hi lo < 2 ^ (hi + 1 - lo) := Nat.mod_lt _ (Nat.two_pow_pos _)

end Sys2Proof.Laws
end

