-- ==== Sys2Proof/Laws/State.lean ====
section
/-! SUPPORT. Each part of the state after each change of one part. -/

namespace Sys2Proof.Laws

open Sys2Proof Machine

variable (s : State)

@[simp] theorem modCtl_pending (f : CtlSt → CtlSt) : (s.modCtl f).pending = s.pending := rfl
@[simp] theorem modCtl_now (f : CtlSt → CtlSt) : (s.modCtl f).now = s.now := rfl
@[simp] theorem modCtl_free (f : CtlSt → CtlSt) : (s.modCtl f).free = s.free := rfl
@[simp] theorem modCtl_out (f : CtlSt → CtlSt) : (s.modCtl f).out = s.out := rfl
@[simp] theorem modCtl_ctl (f : CtlSt → CtlSt) : (s.modCtl f).ctl = f s.ctl := rfl
@[simp] theorem modCtl_mode (f : CtlSt → CtlSt) : (s.modCtl f).mode = s.mode := rfl
@[simp] theorem modCtl_fence (f : CtlSt → CtlSt) : (s.modCtl f).fence = s.fence := rfl
@[simp] theorem modCtl_log (f : CtlSt → CtlSt) : (s.modCtl f).log = s.log := rfl
@[simp] theorem modCtl_time (f : CtlSt → CtlSt) : (s.modCtl f).time = s.time := rfl
@[simp] theorem modCtl_pwr (f : CtlSt → CtlSt) : (s.modCtl f).pwr = s.pwr := rfl
@[simp] theorem modCtl_sens (f : CtlSt → CtlSt) : (s.modCtl f).sens = s.sens := rfl
@[simp] theorem modCtl_fw (f : CtlSt → CtlSt) : (s.modCtl f).fw = s.fw := rfl
@[simp] theorem modCtl_mctp (f : CtlSt → CtlSt) : (s.modCtl f).mctp = s.mctp := rfl
@[simp] theorem modCtl_net (f : CtlSt → CtlSt) : (s.modCtl f).net = s.net := rfl
@[simp] theorem modCtl_cmd (f : CtlSt → CtlSt) : (s.modCtl f).cmd = s.cmd := rfl
@[simp] theorem modCtl_inst (f : CtlSt → CtlSt) : (s.modCtl f).inst = s.inst := rfl
@[simp] theorem modCtl_buf (f : CtlSt → CtlSt) : (s.modCtl f).buf = s.buf := rfl
@[simp] theorem modCtl_map (f : CtlSt → CtlSt) : (s.modCtl f).map = s.map := rfl
@[simp] theorem modCtl_media (f : CtlSt → CtlSt) : (s.modCtl f).media = s.media := rfl
@[simp] theorem modCtl_hold (f : CtlSt → CtlSt) : (s.modCtl f).hold = s.hold := rfl
@[simp] theorem modCtl_prog (f : CtlSt → CtlSt) : (s.modCtl f).prog = s.prog := rfl
@[simp] theorem modCtl_kw (f : CtlSt → CtlSt) : (s.modCtl f).kw = s.kw := rfl
@[simp] theorem modCtl_mat (f : CtlSt → CtlSt) : (s.modCtl f).mat = s.mat := rfl
@[simp] theorem modCtl_cmp (f : CtlSt → CtlSt) : (s.modCtl f).cmp = s.cmp := rfl
@[simp] theorem modCtl_dig (f : CtlSt → CtlSt) : (s.modCtl f).dig = s.dig := rfl
@[simp] theorem modCtl_sec (f : CtlSt → CtlSt) : (s.modCtl f).sec = s.sec := rfl
@[simp] theorem modCtl_test (f : CtlSt → CtlSt) : (s.modCtl f).test = s.test := rfl

@[simp] theorem modMode_pending (f : ModeSt → ModeSt) : (s.modMode f).pending = s.pending := rfl
@[simp] theorem modMode_now (f : ModeSt → ModeSt) : (s.modMode f).now = s.now := rfl
@[simp] theorem modMode_free (f : ModeSt → ModeSt) : (s.modMode f).free = s.free := rfl
@[simp] theorem modMode_out (f : ModeSt → ModeSt) : (s.modMode f).out = s.out := rfl
@[simp] theorem modMode_ctl (f : ModeSt → ModeSt) : (s.modMode f).ctl = s.ctl := rfl
@[simp] theorem modMode_mode (f : ModeSt → ModeSt) : (s.modMode f).mode = f s.mode := rfl
@[simp] theorem modMode_fence (f : ModeSt → ModeSt) : (s.modMode f).fence = s.fence := rfl
@[simp] theorem modMode_log (f : ModeSt → ModeSt) : (s.modMode f).log = s.log := rfl
@[simp] theorem modMode_time (f : ModeSt → ModeSt) : (s.modMode f).time = s.time := rfl
@[simp] theorem modMode_pwr (f : ModeSt → ModeSt) : (s.modMode f).pwr = s.pwr := rfl
@[simp] theorem modMode_sens (f : ModeSt → ModeSt) : (s.modMode f).sens = s.sens := rfl
@[simp] theorem modMode_fw (f : ModeSt → ModeSt) : (s.modMode f).fw = s.fw := rfl
@[simp] theorem modMode_mctp (f : ModeSt → ModeSt) : (s.modMode f).mctp = s.mctp := rfl
@[simp] theorem modMode_net (f : ModeSt → ModeSt) : (s.modMode f).net = s.net := rfl
@[simp] theorem modMode_cmd (f : ModeSt → ModeSt) : (s.modMode f).cmd = s.cmd := rfl
@[simp] theorem modMode_inst (f : ModeSt → ModeSt) : (s.modMode f).inst = s.inst := rfl
@[simp] theorem modMode_buf (f : ModeSt → ModeSt) : (s.modMode f).buf = s.buf := rfl
@[simp] theorem modMode_map (f : ModeSt → ModeSt) : (s.modMode f).map = s.map := rfl
@[simp] theorem modMode_media (f : ModeSt → ModeSt) : (s.modMode f).media = s.media := rfl
@[simp] theorem modMode_hold (f : ModeSt → ModeSt) : (s.modMode f).hold = s.hold := rfl
@[simp] theorem modMode_prog (f : ModeSt → ModeSt) : (s.modMode f).prog = s.prog := rfl
@[simp] theorem modMode_kw (f : ModeSt → ModeSt) : (s.modMode f).kw = s.kw := rfl
@[simp] theorem modMode_mat (f : ModeSt → ModeSt) : (s.modMode f).mat = s.mat := rfl
@[simp] theorem modMode_cmp (f : ModeSt → ModeSt) : (s.modMode f).cmp = s.cmp := rfl
@[simp] theorem modMode_dig (f : ModeSt → ModeSt) : (s.modMode f).dig = s.dig := rfl
@[simp] theorem modMode_sec (f : ModeSt → ModeSt) : (s.modMode f).sec = s.sec := rfl
@[simp] theorem modMode_test (f : ModeSt → ModeSt) : (s.modMode f).test = s.test := rfl

@[simp] theorem modFence_pending (f : FenceRec → FenceRec) : (s.modFence f).pending = s.pending := rfl
@[simp] theorem modFence_now (f : FenceRec → FenceRec) : (s.modFence f).now = s.now := rfl
@[simp] theorem modFence_free (f : FenceRec → FenceRec) : (s.modFence f).free = s.free := rfl
@[simp] theorem modFence_out (f : FenceRec → FenceRec) : (s.modFence f).out = s.out := rfl
@[simp] theorem modFence_ctl (f : FenceRec → FenceRec) : (s.modFence f).ctl = s.ctl := rfl
@[simp] theorem modFence_mode (f : FenceRec → FenceRec) : (s.modFence f).mode = s.mode := rfl
@[simp] theorem modFence_fence (f : FenceRec → FenceRec) : (s.modFence f).fence = f s.fence := rfl
@[simp] theorem modFence_log (f : FenceRec → FenceRec) : (s.modFence f).log = s.log := rfl
@[simp] theorem modFence_time (f : FenceRec → FenceRec) : (s.modFence f).time = s.time := rfl
@[simp] theorem modFence_pwr (f : FenceRec → FenceRec) : (s.modFence f).pwr = s.pwr := rfl
@[simp] theorem modFence_sens (f : FenceRec → FenceRec) : (s.modFence f).sens = s.sens := rfl
@[simp] theorem modFence_fw (f : FenceRec → FenceRec) : (s.modFence f).fw = s.fw := rfl
@[simp] theorem modFence_mctp (f : FenceRec → FenceRec) : (s.modFence f).mctp = s.mctp := rfl
@[simp] theorem modFence_net (f : FenceRec → FenceRec) : (s.modFence f).net = s.net := rfl
@[simp] theorem modFence_cmd (f : FenceRec → FenceRec) : (s.modFence f).cmd = s.cmd := rfl
@[simp] theorem modFence_inst (f : FenceRec → FenceRec) : (s.modFence f).inst = s.inst := rfl
@[simp] theorem modFence_buf (f : FenceRec → FenceRec) : (s.modFence f).buf = s.buf := rfl
@[simp] theorem modFence_map (f : FenceRec → FenceRec) : (s.modFence f).map = s.map := rfl
@[simp] theorem modFence_media (f : FenceRec → FenceRec) : (s.modFence f).media = s.media := rfl
@[simp] theorem modFence_hold (f : FenceRec → FenceRec) : (s.modFence f).hold = s.hold := rfl
@[simp] theorem modFence_prog (f : FenceRec → FenceRec) : (s.modFence f).prog = s.prog := rfl
@[simp] theorem modFence_kw (f : FenceRec → FenceRec) : (s.modFence f).kw = s.kw := rfl
@[simp] theorem modFence_mat (f : FenceRec → FenceRec) : (s.modFence f).mat = s.mat := rfl
@[simp] theorem modFence_cmp (f : FenceRec → FenceRec) : (s.modFence f).cmp = s.cmp := rfl
@[simp] theorem modFence_dig (f : FenceRec → FenceRec) : (s.modFence f).dig = s.dig := rfl
@[simp] theorem modFence_sec (f : FenceRec → FenceRec) : (s.modFence f).sec = s.sec := rfl
@[simp] theorem modFence_test (f : FenceRec → FenceRec) : (s.modFence f).test = s.test := rfl

@[simp] theorem modLog_pending (f : LogSt → LogSt) : (s.modLog f).pending = s.pending := rfl
@[simp] theorem modLog_now (f : LogSt → LogSt) : (s.modLog f).now = s.now := rfl
@[simp] theorem modLog_free (f : LogSt → LogSt) : (s.modLog f).free = s.free := rfl
@[simp] theorem modLog_out (f : LogSt → LogSt) : (s.modLog f).out = s.out := rfl
@[simp] theorem modLog_ctl (f : LogSt → LogSt) : (s.modLog f).ctl = s.ctl := rfl
@[simp] theorem modLog_mode (f : LogSt → LogSt) : (s.modLog f).mode = s.mode := rfl
@[simp] theorem modLog_fence (f : LogSt → LogSt) : (s.modLog f).fence = s.fence := rfl
@[simp] theorem modLog_log (f : LogSt → LogSt) : (s.modLog f).log = f s.log := rfl
@[simp] theorem modLog_time (f : LogSt → LogSt) : (s.modLog f).time = s.time := rfl
@[simp] theorem modLog_pwr (f : LogSt → LogSt) : (s.modLog f).pwr = s.pwr := rfl
@[simp] theorem modLog_sens (f : LogSt → LogSt) : (s.modLog f).sens = s.sens := rfl
@[simp] theorem modLog_fw (f : LogSt → LogSt) : (s.modLog f).fw = s.fw := rfl
@[simp] theorem modLog_mctp (f : LogSt → LogSt) : (s.modLog f).mctp = s.mctp := rfl
@[simp] theorem modLog_net (f : LogSt → LogSt) : (s.modLog f).net = s.net := rfl
@[simp] theorem modLog_cmd (f : LogSt → LogSt) : (s.modLog f).cmd = s.cmd := rfl
@[simp] theorem modLog_inst (f : LogSt → LogSt) : (s.modLog f).inst = s.inst := rfl
@[simp] theorem modLog_buf (f : LogSt → LogSt) : (s.modLog f).buf = s.buf := rfl
@[simp] theorem modLog_map (f : LogSt → LogSt) : (s.modLog f).map = s.map := rfl
@[simp] theorem modLog_media (f : LogSt → LogSt) : (s.modLog f).media = s.media := rfl
@[simp] theorem modLog_hold (f : LogSt → LogSt) : (s.modLog f).hold = s.hold := rfl
@[simp] theorem modLog_prog (f : LogSt → LogSt) : (s.modLog f).prog = s.prog := rfl
@[simp] theorem modLog_kw (f : LogSt → LogSt) : (s.modLog f).kw = s.kw := rfl
@[simp] theorem modLog_mat (f : LogSt → LogSt) : (s.modLog f).mat = s.mat := rfl
@[simp] theorem modLog_cmp (f : LogSt → LogSt) : (s.modLog f).cmp = s.cmp := rfl
@[simp] theorem modLog_dig (f : LogSt → LogSt) : (s.modLog f).dig = s.dig := rfl
@[simp] theorem modLog_sec (f : LogSt → LogSt) : (s.modLog f).sec = s.sec := rfl
@[simp] theorem modLog_test (f : LogSt → LogSt) : (s.modLog f).test = s.test := rfl

@[simp] theorem modTime_pending (f : TimeSt → TimeSt) : (s.modTime f).pending = s.pending := rfl
@[simp] theorem modTime_now (f : TimeSt → TimeSt) : (s.modTime f).now = s.now := rfl
@[simp] theorem modTime_free (f : TimeSt → TimeSt) : (s.modTime f).free = s.free := rfl
@[simp] theorem modTime_out (f : TimeSt → TimeSt) : (s.modTime f).out = s.out := rfl
@[simp] theorem modTime_ctl (f : TimeSt → TimeSt) : (s.modTime f).ctl = s.ctl := rfl
@[simp] theorem modTime_mode (f : TimeSt → TimeSt) : (s.modTime f).mode = s.mode := rfl
@[simp] theorem modTime_fence (f : TimeSt → TimeSt) : (s.modTime f).fence = s.fence := rfl
@[simp] theorem modTime_log (f : TimeSt → TimeSt) : (s.modTime f).log = s.log := rfl
@[simp] theorem modTime_time (f : TimeSt → TimeSt) : (s.modTime f).time = f s.time := rfl
@[simp] theorem modTime_pwr (f : TimeSt → TimeSt) : (s.modTime f).pwr = s.pwr := rfl
@[simp] theorem modTime_sens (f : TimeSt → TimeSt) : (s.modTime f).sens = s.sens := rfl
@[simp] theorem modTime_fw (f : TimeSt → TimeSt) : (s.modTime f).fw = s.fw := rfl
@[simp] theorem modTime_mctp (f : TimeSt → TimeSt) : (s.modTime f).mctp = s.mctp := rfl
@[simp] theorem modTime_net (f : TimeSt → TimeSt) : (s.modTime f).net = s.net := rfl
@[simp] theorem modTime_cmd (f : TimeSt → TimeSt) : (s.modTime f).cmd = s.cmd := rfl
@[simp] theorem modTime_inst (f : TimeSt → TimeSt) : (s.modTime f).inst = s.inst := rfl
@[simp] theorem modTime_buf (f : TimeSt → TimeSt) : (s.modTime f).buf = s.buf := rfl
@[simp] theorem modTime_map (f : TimeSt → TimeSt) : (s.modTime f).map = s.map := rfl
@[simp] theorem modTime_media (f : TimeSt → TimeSt) : (s.modTime f).media = s.media := rfl
@[simp] theorem modTime_hold (f : TimeSt → TimeSt) : (s.modTime f).hold = s.hold := rfl
@[simp] theorem modTime_prog (f : TimeSt → TimeSt) : (s.modTime f).prog = s.prog := rfl
@[simp] theorem modTime_kw (f : TimeSt → TimeSt) : (s.modTime f).kw = s.kw := rfl
@[simp] theorem modTime_mat (f : TimeSt → TimeSt) : (s.modTime f).mat = s.mat := rfl
@[simp] theorem modTime_cmp (f : TimeSt → TimeSt) : (s.modTime f).cmp = s.cmp := rfl
@[simp] theorem modTime_dig (f : TimeSt → TimeSt) : (s.modTime f).dig = s.dig := rfl
@[simp] theorem modTime_sec (f : TimeSt → TimeSt) : (s.modTime f).sec = s.sec := rfl
@[simp] theorem modTime_test (f : TimeSt → TimeSt) : (s.modTime f).test = s.test := rfl

@[simp] theorem modPwr_pending (f : PowerSt → PowerSt) : (s.modPwr f).pending = s.pending := rfl
@[simp] theorem modPwr_now (f : PowerSt → PowerSt) : (s.modPwr f).now = s.now := rfl
@[simp] theorem modPwr_free (f : PowerSt → PowerSt) : (s.modPwr f).free = s.free := rfl
@[simp] theorem modPwr_out (f : PowerSt → PowerSt) : (s.modPwr f).out = s.out := rfl
@[simp] theorem modPwr_ctl (f : PowerSt → PowerSt) : (s.modPwr f).ctl = s.ctl := rfl
@[simp] theorem modPwr_mode (f : PowerSt → PowerSt) : (s.modPwr f).mode = s.mode := rfl
@[simp] theorem modPwr_fence (f : PowerSt → PowerSt) : (s.modPwr f).fence = s.fence := rfl
@[simp] theorem modPwr_log (f : PowerSt → PowerSt) : (s.modPwr f).log = s.log := rfl
@[simp] theorem modPwr_time (f : PowerSt → PowerSt) : (s.modPwr f).time = s.time := rfl
@[simp] theorem modPwr_pwr (f : PowerSt → PowerSt) : (s.modPwr f).pwr = f s.pwr := rfl
@[simp] theorem modPwr_sens (f : PowerSt → PowerSt) : (s.modPwr f).sens = s.sens := rfl
@[simp] theorem modPwr_fw (f : PowerSt → PowerSt) : (s.modPwr f).fw = s.fw := rfl
@[simp] theorem modPwr_mctp (f : PowerSt → PowerSt) : (s.modPwr f).mctp = s.mctp := rfl
@[simp] theorem modPwr_net (f : PowerSt → PowerSt) : (s.modPwr f).net = s.net := rfl
@[simp] theorem modPwr_cmd (f : PowerSt → PowerSt) : (s.modPwr f).cmd = s.cmd := rfl
@[simp] theorem modPwr_inst (f : PowerSt → PowerSt) : (s.modPwr f).inst = s.inst := rfl
@[simp] theorem modPwr_buf (f : PowerSt → PowerSt) : (s.modPwr f).buf = s.buf := rfl
@[simp] theorem modPwr_map (f : PowerSt → PowerSt) : (s.modPwr f).map = s.map := rfl
@[simp] theorem modPwr_media (f : PowerSt → PowerSt) : (s.modPwr f).media = s.media := rfl
@[simp] theorem modPwr_hold (f : PowerSt → PowerSt) : (s.modPwr f).hold = s.hold := rfl
@[simp] theorem modPwr_prog (f : PowerSt → PowerSt) : (s.modPwr f).prog = s.prog := rfl
@[simp] theorem modPwr_kw (f : PowerSt → PowerSt) : (s.modPwr f).kw = s.kw := rfl
@[simp] theorem modPwr_mat (f : PowerSt → PowerSt) : (s.modPwr f).mat = s.mat := rfl
@[simp] theorem modPwr_cmp (f : PowerSt → PowerSt) : (s.modPwr f).cmp = s.cmp := rfl
@[simp] theorem modPwr_dig (f : PowerSt → PowerSt) : (s.modPwr f).dig = s.dig := rfl
@[simp] theorem modPwr_sec (f : PowerSt → PowerSt) : (s.modPwr f).sec = s.sec := rfl
@[simp] theorem modPwr_test (f : PowerSt → PowerSt) : (s.modPwr f).test = s.test := rfl

@[simp] theorem modSens_pending (f : SensSt → SensSt) : (s.modSens f).pending = s.pending := rfl
@[simp] theorem modSens_now (f : SensSt → SensSt) : (s.modSens f).now = s.now := rfl
@[simp] theorem modSens_free (f : SensSt → SensSt) : (s.modSens f).free = s.free := rfl
@[simp] theorem modSens_out (f : SensSt → SensSt) : (s.modSens f).out = s.out := rfl
@[simp] theorem modSens_ctl (f : SensSt → SensSt) : (s.modSens f).ctl = s.ctl := rfl
@[simp] theorem modSens_mode (f : SensSt → SensSt) : (s.modSens f).mode = s.mode := rfl
@[simp] theorem modSens_fence (f : SensSt → SensSt) : (s.modSens f).fence = s.fence := rfl
@[simp] theorem modSens_log (f : SensSt → SensSt) : (s.modSens f).log = s.log := rfl
@[simp] theorem modSens_time (f : SensSt → SensSt) : (s.modSens f).time = s.time := rfl
@[simp] theorem modSens_pwr (f : SensSt → SensSt) : (s.modSens f).pwr = s.pwr := rfl
@[simp] theorem modSens_sens (f : SensSt → SensSt) : (s.modSens f).sens = f s.sens := rfl
@[simp] theorem modSens_fw (f : SensSt → SensSt) : (s.modSens f).fw = s.fw := rfl
@[simp] theorem modSens_mctp (f : SensSt → SensSt) : (s.modSens f).mctp = s.mctp := rfl
@[simp] theorem modSens_net (f : SensSt → SensSt) : (s.modSens f).net = s.net := rfl
@[simp] theorem modSens_cmd (f : SensSt → SensSt) : (s.modSens f).cmd = s.cmd := rfl
@[simp] theorem modSens_inst (f : SensSt → SensSt) : (s.modSens f).inst = s.inst := rfl
@[simp] theorem modSens_buf (f : SensSt → SensSt) : (s.modSens f).buf = s.buf := rfl
@[simp] theorem modSens_map (f : SensSt → SensSt) : (s.modSens f).map = s.map := rfl
@[simp] theorem modSens_media (f : SensSt → SensSt) : (s.modSens f).media = s.media := rfl
@[simp] theorem modSens_hold (f : SensSt → SensSt) : (s.modSens f).hold = s.hold := rfl
@[simp] theorem modSens_prog (f : SensSt → SensSt) : (s.modSens f).prog = s.prog := rfl
@[simp] theorem modSens_kw (f : SensSt → SensSt) : (s.modSens f).kw = s.kw := rfl
@[simp] theorem modSens_mat (f : SensSt → SensSt) : (s.modSens f).mat = s.mat := rfl
@[simp] theorem modSens_cmp (f : SensSt → SensSt) : (s.modSens f).cmp = s.cmp := rfl
@[simp] theorem modSens_dig (f : SensSt → SensSt) : (s.modSens f).dig = s.dig := rfl
@[simp] theorem modSens_sec (f : SensSt → SensSt) : (s.modSens f).sec = s.sec := rfl
@[simp] theorem modSens_test (f : SensSt → SensSt) : (s.modSens f).test = s.test := rfl

@[simp] theorem modFw_pending (f : FwSt → FwSt) : (s.modFw f).pending = s.pending := rfl
@[simp] theorem modFw_now (f : FwSt → FwSt) : (s.modFw f).now = s.now := rfl
@[simp] theorem modFw_free (f : FwSt → FwSt) : (s.modFw f).free = s.free := rfl
@[simp] theorem modFw_out (f : FwSt → FwSt) : (s.modFw f).out = s.out := rfl
@[simp] theorem modFw_ctl (f : FwSt → FwSt) : (s.modFw f).ctl = s.ctl := rfl
@[simp] theorem modFw_mode (f : FwSt → FwSt) : (s.modFw f).mode = s.mode := rfl
@[simp] theorem modFw_fence (f : FwSt → FwSt) : (s.modFw f).fence = s.fence := rfl
@[simp] theorem modFw_log (f : FwSt → FwSt) : (s.modFw f).log = s.log := rfl
@[simp] theorem modFw_time (f : FwSt → FwSt) : (s.modFw f).time = s.time := rfl
@[simp] theorem modFw_pwr (f : FwSt → FwSt) : (s.modFw f).pwr = s.pwr := rfl
@[simp] theorem modFw_sens (f : FwSt → FwSt) : (s.modFw f).sens = s.sens := rfl
@[simp] theorem modFw_fw (f : FwSt → FwSt) : (s.modFw f).fw = f s.fw := rfl
@[simp] theorem modFw_mctp (f : FwSt → FwSt) : (s.modFw f).mctp = s.mctp := rfl
@[simp] theorem modFw_net (f : FwSt → FwSt) : (s.modFw f).net = s.net := rfl
@[simp] theorem modFw_cmd (f : FwSt → FwSt) : (s.modFw f).cmd = s.cmd := rfl
@[simp] theorem modFw_inst (f : FwSt → FwSt) : (s.modFw f).inst = s.inst := rfl
@[simp] theorem modFw_buf (f : FwSt → FwSt) : (s.modFw f).buf = s.buf := rfl
@[simp] theorem modFw_map (f : FwSt → FwSt) : (s.modFw f).map = s.map := rfl
@[simp] theorem modFw_media (f : FwSt → FwSt) : (s.modFw f).media = s.media := rfl
@[simp] theorem modFw_hold (f : FwSt → FwSt) : (s.modFw f).hold = s.hold := rfl
@[simp] theorem modFw_prog (f : FwSt → FwSt) : (s.modFw f).prog = s.prog := rfl
@[simp] theorem modFw_kw (f : FwSt → FwSt) : (s.modFw f).kw = s.kw := rfl
@[simp] theorem modFw_mat (f : FwSt → FwSt) : (s.modFw f).mat = s.mat := rfl
@[simp] theorem modFw_cmp (f : FwSt → FwSt) : (s.modFw f).cmp = s.cmp := rfl
@[simp] theorem modFw_dig (f : FwSt → FwSt) : (s.modFw f).dig = s.dig := rfl
@[simp] theorem modFw_sec (f : FwSt → FwSt) : (s.modFw f).sec = s.sec := rfl
@[simp] theorem modFw_test (f : FwSt → FwSt) : (s.modFw f).test = s.test := rfl

@[simp] theorem modMctp_pending (f : MctpSt → MctpSt) : (s.modMctp f).pending = s.pending := rfl
@[simp] theorem modMctp_now (f : MctpSt → MctpSt) : (s.modMctp f).now = s.now := rfl
@[simp] theorem modMctp_free (f : MctpSt → MctpSt) : (s.modMctp f).free = s.free := rfl
@[simp] theorem modMctp_out (f : MctpSt → MctpSt) : (s.modMctp f).out = s.out := rfl
@[simp] theorem modMctp_ctl (f : MctpSt → MctpSt) : (s.modMctp f).ctl = s.ctl := rfl
@[simp] theorem modMctp_mode (f : MctpSt → MctpSt) : (s.modMctp f).mode = s.mode := rfl
@[simp] theorem modMctp_fence (f : MctpSt → MctpSt) : (s.modMctp f).fence = s.fence := rfl
@[simp] theorem modMctp_log (f : MctpSt → MctpSt) : (s.modMctp f).log = s.log := rfl
@[simp] theorem modMctp_time (f : MctpSt → MctpSt) : (s.modMctp f).time = s.time := rfl
@[simp] theorem modMctp_pwr (f : MctpSt → MctpSt) : (s.modMctp f).pwr = s.pwr := rfl
@[simp] theorem modMctp_sens (f : MctpSt → MctpSt) : (s.modMctp f).sens = s.sens := rfl
@[simp] theorem modMctp_fw (f : MctpSt → MctpSt) : (s.modMctp f).fw = s.fw := rfl
@[simp] theorem modMctp_mctp (f : MctpSt → MctpSt) : (s.modMctp f).mctp = f s.mctp := rfl
@[simp] theorem modMctp_net (f : MctpSt → MctpSt) : (s.modMctp f).net = s.net := rfl
@[simp] theorem modMctp_cmd (f : MctpSt → MctpSt) : (s.modMctp f).cmd = s.cmd := rfl
@[simp] theorem modMctp_inst (f : MctpSt → MctpSt) : (s.modMctp f).inst = s.inst := rfl
@[simp] theorem modMctp_buf (f : MctpSt → MctpSt) : (s.modMctp f).buf = s.buf := rfl
@[simp] theorem modMctp_map (f : MctpSt → MctpSt) : (s.modMctp f).map = s.map := rfl
@[simp] theorem modMctp_media (f : MctpSt → MctpSt) : (s.modMctp f).media = s.media := rfl
@[simp] theorem modMctp_hold (f : MctpSt → MctpSt) : (s.modMctp f).hold = s.hold := rfl
@[simp] theorem modMctp_prog (f : MctpSt → MctpSt) : (s.modMctp f).prog = s.prog := rfl
@[simp] theorem modMctp_kw (f : MctpSt → MctpSt) : (s.modMctp f).kw = s.kw := rfl
@[simp] theorem modMctp_mat (f : MctpSt → MctpSt) : (s.modMctp f).mat = s.mat := rfl
@[simp] theorem modMctp_cmp (f : MctpSt → MctpSt) : (s.modMctp f).cmp = s.cmp := rfl
@[simp] theorem modMctp_dig (f : MctpSt → MctpSt) : (s.modMctp f).dig = s.dig := rfl
@[simp] theorem modMctp_sec (f : MctpSt → MctpSt) : (s.modMctp f).sec = s.sec := rfl
@[simp] theorem modMctp_test (f : MctpSt → MctpSt) : (s.modMctp f).test = s.test := rfl

@[simp] theorem modNet_pending (f : NetSt → NetSt) : (s.modNet f).pending = s.pending := rfl
@[simp] theorem modNet_now (f : NetSt → NetSt) : (s.modNet f).now = s.now := rfl
@[simp] theorem modNet_free (f : NetSt → NetSt) : (s.modNet f).free = s.free := rfl
@[simp] theorem modNet_out (f : NetSt → NetSt) : (s.modNet f).out = s.out := rfl
@[simp] theorem modNet_ctl (f : NetSt → NetSt) : (s.modNet f).ctl = s.ctl := rfl
@[simp] theorem modNet_mode (f : NetSt → NetSt) : (s.modNet f).mode = s.mode := rfl
@[simp] theorem modNet_fence (f : NetSt → NetSt) : (s.modNet f).fence = s.fence := rfl
@[simp] theorem modNet_log (f : NetSt → NetSt) : (s.modNet f).log = s.log := rfl
@[simp] theorem modNet_time (f : NetSt → NetSt) : (s.modNet f).time = s.time := rfl
@[simp] theorem modNet_pwr (f : NetSt → NetSt) : (s.modNet f).pwr = s.pwr := rfl
@[simp] theorem modNet_sens (f : NetSt → NetSt) : (s.modNet f).sens = s.sens := rfl
@[simp] theorem modNet_fw (f : NetSt → NetSt) : (s.modNet f).fw = s.fw := rfl
@[simp] theorem modNet_mctp (f : NetSt → NetSt) : (s.modNet f).mctp = s.mctp := rfl
@[simp] theorem modNet_net (f : NetSt → NetSt) : (s.modNet f).net = f s.net := rfl
@[simp] theorem modNet_cmd (f : NetSt → NetSt) : (s.modNet f).cmd = s.cmd := rfl
@[simp] theorem modNet_inst (f : NetSt → NetSt) : (s.modNet f).inst = s.inst := rfl
@[simp] theorem modNet_buf (f : NetSt → NetSt) : (s.modNet f).buf = s.buf := rfl
@[simp] theorem modNet_map (f : NetSt → NetSt) : (s.modNet f).map = s.map := rfl
@[simp] theorem modNet_media (f : NetSt → NetSt) : (s.modNet f).media = s.media := rfl
@[simp] theorem modNet_hold (f : NetSt → NetSt) : (s.modNet f).hold = s.hold := rfl
@[simp] theorem modNet_prog (f : NetSt → NetSt) : (s.modNet f).prog = s.prog := rfl
@[simp] theorem modNet_kw (f : NetSt → NetSt) : (s.modNet f).kw = s.kw := rfl
@[simp] theorem modNet_mat (f : NetSt → NetSt) : (s.modNet f).mat = s.mat := rfl
@[simp] theorem modNet_cmp (f : NetSt → NetSt) : (s.modNet f).cmp = s.cmp := rfl
@[simp] theorem modNet_dig (f : NetSt → NetSt) : (s.modNet f).dig = s.dig := rfl
@[simp] theorem modNet_sec (f : NetSt → NetSt) : (s.modNet f).sec = s.sec := rfl
@[simp] theorem modNet_test (f : NetSt → NetSt) : (s.modNet f).test = s.test := rfl

@[simp] theorem modCmd_pending (f : CmdSt → CmdSt) : (s.modCmd f).pending = s.pending := rfl
@[simp] theorem modCmd_now (f : CmdSt → CmdSt) : (s.modCmd f).now = s.now := rfl
@[simp] theorem modCmd_free (f : CmdSt → CmdSt) : (s.modCmd f).free = s.free := rfl
@[simp] theorem modCmd_out (f : CmdSt → CmdSt) : (s.modCmd f).out = s.out := rfl
@[simp] theorem modCmd_ctl (f : CmdSt → CmdSt) : (s.modCmd f).ctl = s.ctl := rfl
@[simp] theorem modCmd_mode (f : CmdSt → CmdSt) : (s.modCmd f).mode = s.mode := rfl
@[simp] theorem modCmd_fence (f : CmdSt → CmdSt) : (s.modCmd f).fence = s.fence := rfl
@[simp] theorem modCmd_log (f : CmdSt → CmdSt) : (s.modCmd f).log = s.log := rfl
@[simp] theorem modCmd_time (f : CmdSt → CmdSt) : (s.modCmd f).time = s.time := rfl
@[simp] theorem modCmd_pwr (f : CmdSt → CmdSt) : (s.modCmd f).pwr = s.pwr := rfl
@[simp] theorem modCmd_sens (f : CmdSt → CmdSt) : (s.modCmd f).sens = s.sens := rfl
@[simp] theorem modCmd_fw (f : CmdSt → CmdSt) : (s.modCmd f).fw = s.fw := rfl
@[simp] theorem modCmd_mctp (f : CmdSt → CmdSt) : (s.modCmd f).mctp = s.mctp := rfl
@[simp] theorem modCmd_net (f : CmdSt → CmdSt) : (s.modCmd f).net = s.net := rfl
@[simp] theorem modCmd_cmd (f : CmdSt → CmdSt) : (s.modCmd f).cmd = f s.cmd := rfl
@[simp] theorem modCmd_inst (f : CmdSt → CmdSt) : (s.modCmd f).inst = s.inst := rfl
@[simp] theorem modCmd_buf (f : CmdSt → CmdSt) : (s.modCmd f).buf = s.buf := rfl
@[simp] theorem modCmd_map (f : CmdSt → CmdSt) : (s.modCmd f).map = s.map := rfl
@[simp] theorem modCmd_media (f : CmdSt → CmdSt) : (s.modCmd f).media = s.media := rfl
@[simp] theorem modCmd_hold (f : CmdSt → CmdSt) : (s.modCmd f).hold = s.hold := rfl
@[simp] theorem modCmd_prog (f : CmdSt → CmdSt) : (s.modCmd f).prog = s.prog := rfl
@[simp] theorem modCmd_kw (f : CmdSt → CmdSt) : (s.modCmd f).kw = s.kw := rfl
@[simp] theorem modCmd_mat (f : CmdSt → CmdSt) : (s.modCmd f).mat = s.mat := rfl
@[simp] theorem modCmd_cmp (f : CmdSt → CmdSt) : (s.modCmd f).cmp = s.cmp := rfl
@[simp] theorem modCmd_dig (f : CmdSt → CmdSt) : (s.modCmd f).dig = s.dig := rfl
@[simp] theorem modCmd_sec (f : CmdSt → CmdSt) : (s.modCmd f).sec = s.sec := rfl
@[simp] theorem modCmd_test (f : CmdSt → CmdSt) : (s.modCmd f).test = s.test := rfl

@[simp] theorem modInst_pending (f : InstSt → InstSt) : (s.modInst f).pending = s.pending := rfl
@[simp] theorem modInst_now (f : InstSt → InstSt) : (s.modInst f).now = s.now := rfl
@[simp] theorem modInst_free (f : InstSt → InstSt) : (s.modInst f).free = s.free := rfl
@[simp] theorem modInst_out (f : InstSt → InstSt) : (s.modInst f).out = s.out := rfl
@[simp] theorem modInst_ctl (f : InstSt → InstSt) : (s.modInst f).ctl = s.ctl := rfl
@[simp] theorem modInst_mode (f : InstSt → InstSt) : (s.modInst f).mode = s.mode := rfl
@[simp] theorem modInst_fence (f : InstSt → InstSt) : (s.modInst f).fence = s.fence := rfl
@[simp] theorem modInst_log (f : InstSt → InstSt) : (s.modInst f).log = s.log := rfl
@[simp] theorem modInst_time (f : InstSt → InstSt) : (s.modInst f).time = s.time := rfl
@[simp] theorem modInst_pwr (f : InstSt → InstSt) : (s.modInst f).pwr = s.pwr := rfl
@[simp] theorem modInst_sens (f : InstSt → InstSt) : (s.modInst f).sens = s.sens := rfl
@[simp] theorem modInst_fw (f : InstSt → InstSt) : (s.modInst f).fw = s.fw := rfl
@[simp] theorem modInst_mctp (f : InstSt → InstSt) : (s.modInst f).mctp = s.mctp := rfl
@[simp] theorem modInst_net (f : InstSt → InstSt) : (s.modInst f).net = s.net := rfl
@[simp] theorem modInst_cmd (f : InstSt → InstSt) : (s.modInst f).cmd = s.cmd := rfl
@[simp] theorem modInst_inst (f : InstSt → InstSt) : (s.modInst f).inst = f s.inst := rfl
@[simp] theorem modInst_buf (f : InstSt → InstSt) : (s.modInst f).buf = s.buf := rfl
@[simp] theorem modInst_map (f : InstSt → InstSt) : (s.modInst f).map = s.map := rfl
@[simp] theorem modInst_media (f : InstSt → InstSt) : (s.modInst f).media = s.media := rfl
@[simp] theorem modInst_hold (f : InstSt → InstSt) : (s.modInst f).hold = s.hold := rfl
@[simp] theorem modInst_prog (f : InstSt → InstSt) : (s.modInst f).prog = s.prog := rfl
@[simp] theorem modInst_kw (f : InstSt → InstSt) : (s.modInst f).kw = s.kw := rfl
@[simp] theorem modInst_mat (f : InstSt → InstSt) : (s.modInst f).mat = s.mat := rfl
@[simp] theorem modInst_cmp (f : InstSt → InstSt) : (s.modInst f).cmp = s.cmp := rfl
@[simp] theorem modInst_dig (f : InstSt → InstSt) : (s.modInst f).dig = s.dig := rfl
@[simp] theorem modInst_sec (f : InstSt → InstSt) : (s.modInst f).sec = s.sec := rfl
@[simp] theorem modInst_test (f : InstSt → InstSt) : (s.modInst f).test = s.test := rfl

@[simp] theorem modBuf_pending (f : BufSt → BufSt) : (s.modBuf f).pending = s.pending := rfl
@[simp] theorem modBuf_now (f : BufSt → BufSt) : (s.modBuf f).now = s.now := rfl
@[simp] theorem modBuf_free (f : BufSt → BufSt) : (s.modBuf f).free = s.free := rfl
@[simp] theorem modBuf_out (f : BufSt → BufSt) : (s.modBuf f).out = s.out := rfl
@[simp] theorem modBuf_ctl (f : BufSt → BufSt) : (s.modBuf f).ctl = s.ctl := rfl
@[simp] theorem modBuf_mode (f : BufSt → BufSt) : (s.modBuf f).mode = s.mode := rfl
@[simp] theorem modBuf_fence (f : BufSt → BufSt) : (s.modBuf f).fence = s.fence := rfl
@[simp] theorem modBuf_log (f : BufSt → BufSt) : (s.modBuf f).log = s.log := rfl
@[simp] theorem modBuf_time (f : BufSt → BufSt) : (s.modBuf f).time = s.time := rfl
@[simp] theorem modBuf_pwr (f : BufSt → BufSt) : (s.modBuf f).pwr = s.pwr := rfl
@[simp] theorem modBuf_sens (f : BufSt → BufSt) : (s.modBuf f).sens = s.sens := rfl
@[simp] theorem modBuf_fw (f : BufSt → BufSt) : (s.modBuf f).fw = s.fw := rfl
@[simp] theorem modBuf_mctp (f : BufSt → BufSt) : (s.modBuf f).mctp = s.mctp := rfl
@[simp] theorem modBuf_net (f : BufSt → BufSt) : (s.modBuf f).net = s.net := rfl
@[simp] theorem modBuf_cmd (f : BufSt → BufSt) : (s.modBuf f).cmd = s.cmd := rfl
@[simp] theorem modBuf_inst (f : BufSt → BufSt) : (s.modBuf f).inst = s.inst := rfl
@[simp] theorem modBuf_buf (f : BufSt → BufSt) : (s.modBuf f).buf = f s.buf := rfl
@[simp] theorem modBuf_map (f : BufSt → BufSt) : (s.modBuf f).map = s.map := rfl
@[simp] theorem modBuf_media (f : BufSt → BufSt) : (s.modBuf f).media = s.media := rfl
@[simp] theorem modBuf_hold (f : BufSt → BufSt) : (s.modBuf f).hold = s.hold := rfl
@[simp] theorem modBuf_prog (f : BufSt → BufSt) : (s.modBuf f).prog = s.prog := rfl
@[simp] theorem modBuf_kw (f : BufSt → BufSt) : (s.modBuf f).kw = s.kw := rfl
@[simp] theorem modBuf_mat (f : BufSt → BufSt) : (s.modBuf f).mat = s.mat := rfl
@[simp] theorem modBuf_cmp (f : BufSt → BufSt) : (s.modBuf f).cmp = s.cmp := rfl
@[simp] theorem modBuf_dig (f : BufSt → BufSt) : (s.modBuf f).dig = s.dig := rfl
@[simp] theorem modBuf_sec (f : BufSt → BufSt) : (s.modBuf f).sec = s.sec := rfl
@[simp] theorem modBuf_test (f : BufSt → BufSt) : (s.modBuf f).test = s.test := rfl

@[simp] theorem modMap_pending (f : MapSt → MapSt) : (s.modMap f).pending = s.pending := rfl
@[simp] theorem modMap_now (f : MapSt → MapSt) : (s.modMap f).now = s.now := rfl
@[simp] theorem modMap_free (f : MapSt → MapSt) : (s.modMap f).free = s.free := rfl
@[simp] theorem modMap_out (f : MapSt → MapSt) : (s.modMap f).out = s.out := rfl
@[simp] theorem modMap_ctl (f : MapSt → MapSt) : (s.modMap f).ctl = s.ctl := rfl
@[simp] theorem modMap_mode (f : MapSt → MapSt) : (s.modMap f).mode = s.mode := rfl
@[simp] theorem modMap_fence (f : MapSt → MapSt) : (s.modMap f).fence = s.fence := rfl
@[simp] theorem modMap_log (f : MapSt → MapSt) : (s.modMap f).log = s.log := rfl
@[simp] theorem modMap_time (f : MapSt → MapSt) : (s.modMap f).time = s.time := rfl
@[simp] theorem modMap_pwr (f : MapSt → MapSt) : (s.modMap f).pwr = s.pwr := rfl
@[simp] theorem modMap_sens (f : MapSt → MapSt) : (s.modMap f).sens = s.sens := rfl
@[simp] theorem modMap_fw (f : MapSt → MapSt) : (s.modMap f).fw = s.fw := rfl
@[simp] theorem modMap_mctp (f : MapSt → MapSt) : (s.modMap f).mctp = s.mctp := rfl
@[simp] theorem modMap_net (f : MapSt → MapSt) : (s.modMap f).net = s.net := rfl
@[simp] theorem modMap_cmd (f : MapSt → MapSt) : (s.modMap f).cmd = s.cmd := rfl
@[simp] theorem modMap_inst (f : MapSt → MapSt) : (s.modMap f).inst = s.inst := rfl
@[simp] theorem modMap_buf (f : MapSt → MapSt) : (s.modMap f).buf = s.buf := rfl
@[simp] theorem modMap_map (f : MapSt → MapSt) : (s.modMap f).map = f s.map := rfl
@[simp] theorem modMap_media (f : MapSt → MapSt) : (s.modMap f).media = s.media := rfl
@[simp] theorem modMap_hold (f : MapSt → MapSt) : (s.modMap f).hold = s.hold := rfl
@[simp] theorem modMap_prog (f : MapSt → MapSt) : (s.modMap f).prog = s.prog := rfl
@[simp] theorem modMap_kw (f : MapSt → MapSt) : (s.modMap f).kw = s.kw := rfl
@[simp] theorem modMap_mat (f : MapSt → MapSt) : (s.modMap f).mat = s.mat := rfl
@[simp] theorem modMap_cmp (f : MapSt → MapSt) : (s.modMap f).cmp = s.cmp := rfl
@[simp] theorem modMap_dig (f : MapSt → MapSt) : (s.modMap f).dig = s.dig := rfl
@[simp] theorem modMap_sec (f : MapSt → MapSt) : (s.modMap f).sec = s.sec := rfl
@[simp] theorem modMap_test (f : MapSt → MapSt) : (s.modMap f).test = s.test := rfl

@[simp] theorem modMedia_pending (f : MediaSt → MediaSt) : (s.modMedia f).pending = s.pending := rfl
@[simp] theorem modMedia_now (f : MediaSt → MediaSt) : (s.modMedia f).now = s.now := rfl
@[simp] theorem modMedia_free (f : MediaSt → MediaSt) : (s.modMedia f).free = s.free := rfl
@[simp] theorem modMedia_out (f : MediaSt → MediaSt) : (s.modMedia f).out = s.out := rfl
@[simp] theorem modMedia_ctl (f : MediaSt → MediaSt) : (s.modMedia f).ctl = s.ctl := rfl
@[simp] theorem modMedia_mode (f : MediaSt → MediaSt) : (s.modMedia f).mode = s.mode := rfl
@[simp] theorem modMedia_fence (f : MediaSt → MediaSt) : (s.modMedia f).fence = s.fence := rfl
@[simp] theorem modMedia_log (f : MediaSt → MediaSt) : (s.modMedia f).log = s.log := rfl
@[simp] theorem modMedia_time (f : MediaSt → MediaSt) : (s.modMedia f).time = s.time := rfl
@[simp] theorem modMedia_pwr (f : MediaSt → MediaSt) : (s.modMedia f).pwr = s.pwr := rfl
@[simp] theorem modMedia_sens (f : MediaSt → MediaSt) : (s.modMedia f).sens = s.sens := rfl
@[simp] theorem modMedia_fw (f : MediaSt → MediaSt) : (s.modMedia f).fw = s.fw := rfl
@[simp] theorem modMedia_mctp (f : MediaSt → MediaSt) : (s.modMedia f).mctp = s.mctp := rfl
@[simp] theorem modMedia_net (f : MediaSt → MediaSt) : (s.modMedia f).net = s.net := rfl
@[simp] theorem modMedia_cmd (f : MediaSt → MediaSt) : (s.modMedia f).cmd = s.cmd := rfl
@[simp] theorem modMedia_inst (f : MediaSt → MediaSt) : (s.modMedia f).inst = s.inst := rfl
@[simp] theorem modMedia_buf (f : MediaSt → MediaSt) : (s.modMedia f).buf = s.buf := rfl
@[simp] theorem modMedia_map (f : MediaSt → MediaSt) : (s.modMedia f).map = s.map := rfl
@[simp] theorem modMedia_media (f : MediaSt → MediaSt) : (s.modMedia f).media = f s.media := rfl
@[simp] theorem modMedia_hold (f : MediaSt → MediaSt) : (s.modMedia f).hold = s.hold := rfl
@[simp] theorem modMedia_prog (f : MediaSt → MediaSt) : (s.modMedia f).prog = s.prog := rfl
@[simp] theorem modMedia_kw (f : MediaSt → MediaSt) : (s.modMedia f).kw = s.kw := rfl
@[simp] theorem modMedia_mat (f : MediaSt → MediaSt) : (s.modMedia f).mat = s.mat := rfl
@[simp] theorem modMedia_cmp (f : MediaSt → MediaSt) : (s.modMedia f).cmp = s.cmp := rfl
@[simp] theorem modMedia_dig (f : MediaSt → MediaSt) : (s.modMedia f).dig = s.dig := rfl
@[simp] theorem modMedia_sec (f : MediaSt → MediaSt) : (s.modMedia f).sec = s.sec := rfl
@[simp] theorem modMedia_test (f : MediaSt → MediaSt) : (s.modMedia f).test = s.test := rfl

@[simp] theorem modHold_pending (f : HoldSt → HoldSt) : (s.modHold f).pending = s.pending := rfl
@[simp] theorem modHold_now (f : HoldSt → HoldSt) : (s.modHold f).now = s.now := rfl
@[simp] theorem modHold_free (f : HoldSt → HoldSt) : (s.modHold f).free = s.free := rfl
@[simp] theorem modHold_out (f : HoldSt → HoldSt) : (s.modHold f).out = s.out := rfl
@[simp] theorem modHold_ctl (f : HoldSt → HoldSt) : (s.modHold f).ctl = s.ctl := rfl
@[simp] theorem modHold_mode (f : HoldSt → HoldSt) : (s.modHold f).mode = s.mode := rfl
@[simp] theorem modHold_fence (f : HoldSt → HoldSt) : (s.modHold f).fence = s.fence := rfl
@[simp] theorem modHold_log (f : HoldSt → HoldSt) : (s.modHold f).log = s.log := rfl
@[simp] theorem modHold_time (f : HoldSt → HoldSt) : (s.modHold f).time = s.time := rfl
@[simp] theorem modHold_pwr (f : HoldSt → HoldSt) : (s.modHold f).pwr = s.pwr := rfl
@[simp] theorem modHold_sens (f : HoldSt → HoldSt) : (s.modHold f).sens = s.sens := rfl
@[simp] theorem modHold_fw (f : HoldSt → HoldSt) : (s.modHold f).fw = s.fw := rfl
@[simp] theorem modHold_mctp (f : HoldSt → HoldSt) : (s.modHold f).mctp = s.mctp := rfl
@[simp] theorem modHold_net (f : HoldSt → HoldSt) : (s.modHold f).net = s.net := rfl
@[simp] theorem modHold_cmd (f : HoldSt → HoldSt) : (s.modHold f).cmd = s.cmd := rfl
@[simp] theorem modHold_inst (f : HoldSt → HoldSt) : (s.modHold f).inst = s.inst := rfl
@[simp] theorem modHold_buf (f : HoldSt → HoldSt) : (s.modHold f).buf = s.buf := rfl
@[simp] theorem modHold_map (f : HoldSt → HoldSt) : (s.modHold f).map = s.map := rfl
@[simp] theorem modHold_media (f : HoldSt → HoldSt) : (s.modHold f).media = s.media := rfl
@[simp] theorem modHold_hold (f : HoldSt → HoldSt) : (s.modHold f).hold = f s.hold := rfl
@[simp] theorem modHold_prog (f : HoldSt → HoldSt) : (s.modHold f).prog = s.prog := rfl
@[simp] theorem modHold_kw (f : HoldSt → HoldSt) : (s.modHold f).kw = s.kw := rfl
@[simp] theorem modHold_mat (f : HoldSt → HoldSt) : (s.modHold f).mat = s.mat := rfl
@[simp] theorem modHold_cmp (f : HoldSt → HoldSt) : (s.modHold f).cmp = s.cmp := rfl
@[simp] theorem modHold_dig (f : HoldSt → HoldSt) : (s.modHold f).dig = s.dig := rfl
@[simp] theorem modHold_sec (f : HoldSt → HoldSt) : (s.modHold f).sec = s.sec := rfl
@[simp] theorem modHold_test (f : HoldSt → HoldSt) : (s.modHold f).test = s.test := rfl

@[simp] theorem modProg_pending (f : ProgSt → ProgSt) : (s.modProg f).pending = s.pending := rfl
@[simp] theorem modProg_now (f : ProgSt → ProgSt) : (s.modProg f).now = s.now := rfl
@[simp] theorem modProg_free (f : ProgSt → ProgSt) : (s.modProg f).free = s.free := rfl
@[simp] theorem modProg_out (f : ProgSt → ProgSt) : (s.modProg f).out = s.out := rfl
@[simp] theorem modProg_ctl (f : ProgSt → ProgSt) : (s.modProg f).ctl = s.ctl := rfl
@[simp] theorem modProg_mode (f : ProgSt → ProgSt) : (s.modProg f).mode = s.mode := rfl
@[simp] theorem modProg_fence (f : ProgSt → ProgSt) : (s.modProg f).fence = s.fence := rfl
@[simp] theorem modProg_log (f : ProgSt → ProgSt) : (s.modProg f).log = s.log := rfl
@[simp] theorem modProg_time (f : ProgSt → ProgSt) : (s.modProg f).time = s.time := rfl
@[simp] theorem modProg_pwr (f : ProgSt → ProgSt) : (s.modProg f).pwr = s.pwr := rfl
@[simp] theorem modProg_sens (f : ProgSt → ProgSt) : (s.modProg f).sens = s.sens := rfl
@[simp] theorem modProg_fw (f : ProgSt → ProgSt) : (s.modProg f).fw = s.fw := rfl
@[simp] theorem modProg_mctp (f : ProgSt → ProgSt) : (s.modProg f).mctp = s.mctp := rfl
@[simp] theorem modProg_net (f : ProgSt → ProgSt) : (s.modProg f).net = s.net := rfl
@[simp] theorem modProg_cmd (f : ProgSt → ProgSt) : (s.modProg f).cmd = s.cmd := rfl
@[simp] theorem modProg_inst (f : ProgSt → ProgSt) : (s.modProg f).inst = s.inst := rfl
@[simp] theorem modProg_buf (f : ProgSt → ProgSt) : (s.modProg f).buf = s.buf := rfl
@[simp] theorem modProg_map (f : ProgSt → ProgSt) : (s.modProg f).map = s.map := rfl
@[simp] theorem modProg_media (f : ProgSt → ProgSt) : (s.modProg f).media = s.media := rfl
@[simp] theorem modProg_hold (f : ProgSt → ProgSt) : (s.modProg f).hold = s.hold := rfl
@[simp] theorem modProg_prog (f : ProgSt → ProgSt) : (s.modProg f).prog = f s.prog := rfl
@[simp] theorem modProg_kw (f : ProgSt → ProgSt) : (s.modProg f).kw = s.kw := rfl
@[simp] theorem modProg_mat (f : ProgSt → ProgSt) : (s.modProg f).mat = s.mat := rfl
@[simp] theorem modProg_cmp (f : ProgSt → ProgSt) : (s.modProg f).cmp = s.cmp := rfl
@[simp] theorem modProg_dig (f : ProgSt → ProgSt) : (s.modProg f).dig = s.dig := rfl
@[simp] theorem modProg_sec (f : ProgSt → ProgSt) : (s.modProg f).sec = s.sec := rfl
@[simp] theorem modProg_test (f : ProgSt → ProgSt) : (s.modProg f).test = s.test := rfl

@[simp] theorem modKw_pending (f : KwSt → KwSt) : (s.modKw f).pending = s.pending := rfl
@[simp] theorem modKw_now (f : KwSt → KwSt) : (s.modKw f).now = s.now := rfl
@[simp] theorem modKw_free (f : KwSt → KwSt) : (s.modKw f).free = s.free := rfl
@[simp] theorem modKw_out (f : KwSt → KwSt) : (s.modKw f).out = s.out := rfl
@[simp] theorem modKw_ctl (f : KwSt → KwSt) : (s.modKw f).ctl = s.ctl := rfl
@[simp] theorem modKw_mode (f : KwSt → KwSt) : (s.modKw f).mode = s.mode := rfl
@[simp] theorem modKw_fence (f : KwSt → KwSt) : (s.modKw f).fence = s.fence := rfl
@[simp] theorem modKw_log (f : KwSt → KwSt) : (s.modKw f).log = s.log := rfl
@[simp] theorem modKw_time (f : KwSt → KwSt) : (s.modKw f).time = s.time := rfl
@[simp] theorem modKw_pwr (f : KwSt → KwSt) : (s.modKw f).pwr = s.pwr := rfl
@[simp] theorem modKw_sens (f : KwSt → KwSt) : (s.modKw f).sens = s.sens := rfl
@[simp] theorem modKw_fw (f : KwSt → KwSt) : (s.modKw f).fw = s.fw := rfl
@[simp] theorem modKw_mctp (f : KwSt → KwSt) : (s.modKw f).mctp = s.mctp := rfl
@[simp] theorem modKw_net (f : KwSt → KwSt) : (s.modKw f).net = s.net := rfl
@[simp] theorem modKw_cmd (f : KwSt → KwSt) : (s.modKw f).cmd = s.cmd := rfl
@[simp] theorem modKw_inst (f : KwSt → KwSt) : (s.modKw f).inst = s.inst := rfl
@[simp] theorem modKw_buf (f : KwSt → KwSt) : (s.modKw f).buf = s.buf := rfl
@[simp] theorem modKw_map (f : KwSt → KwSt) : (s.modKw f).map = s.map := rfl
@[simp] theorem modKw_media (f : KwSt → KwSt) : (s.modKw f).media = s.media := rfl
@[simp] theorem modKw_hold (f : KwSt → KwSt) : (s.modKw f).hold = s.hold := rfl
@[simp] theorem modKw_prog (f : KwSt → KwSt) : (s.modKw f).prog = s.prog := rfl
@[simp] theorem modKw_kw (f : KwSt → KwSt) : (s.modKw f).kw = f s.kw := rfl
@[simp] theorem modKw_mat (f : KwSt → KwSt) : (s.modKw f).mat = s.mat := rfl
@[simp] theorem modKw_cmp (f : KwSt → KwSt) : (s.modKw f).cmp = s.cmp := rfl
@[simp] theorem modKw_dig (f : KwSt → KwSt) : (s.modKw f).dig = s.dig := rfl
@[simp] theorem modKw_sec (f : KwSt → KwSt) : (s.modKw f).sec = s.sec := rfl
@[simp] theorem modKw_test (f : KwSt → KwSt) : (s.modKw f).test = s.test := rfl

@[simp] theorem modMat_pending (f : MatSt → MatSt) : (s.modMat f).pending = s.pending := rfl
@[simp] theorem modMat_now (f : MatSt → MatSt) : (s.modMat f).now = s.now := rfl
@[simp] theorem modMat_free (f : MatSt → MatSt) : (s.modMat f).free = s.free := rfl
@[simp] theorem modMat_out (f : MatSt → MatSt) : (s.modMat f).out = s.out := rfl
@[simp] theorem modMat_ctl (f : MatSt → MatSt) : (s.modMat f).ctl = s.ctl := rfl
@[simp] theorem modMat_mode (f : MatSt → MatSt) : (s.modMat f).mode = s.mode := rfl
@[simp] theorem modMat_fence (f : MatSt → MatSt) : (s.modMat f).fence = s.fence := rfl
@[simp] theorem modMat_log (f : MatSt → MatSt) : (s.modMat f).log = s.log := rfl
@[simp] theorem modMat_time (f : MatSt → MatSt) : (s.modMat f).time = s.time := rfl
@[simp] theorem modMat_pwr (f : MatSt → MatSt) : (s.modMat f).pwr = s.pwr := rfl
@[simp] theorem modMat_sens (f : MatSt → MatSt) : (s.modMat f).sens = s.sens := rfl
@[simp] theorem modMat_fw (f : MatSt → MatSt) : (s.modMat f).fw = s.fw := rfl
@[simp] theorem modMat_mctp (f : MatSt → MatSt) : (s.modMat f).mctp = s.mctp := rfl
@[simp] theorem modMat_net (f : MatSt → MatSt) : (s.modMat f).net = s.net := rfl
@[simp] theorem modMat_cmd (f : MatSt → MatSt) : (s.modMat f).cmd = s.cmd := rfl
@[simp] theorem modMat_inst (f : MatSt → MatSt) : (s.modMat f).inst = s.inst := rfl
@[simp] theorem modMat_buf (f : MatSt → MatSt) : (s.modMat f).buf = s.buf := rfl
@[simp] theorem modMat_map (f : MatSt → MatSt) : (s.modMat f).map = s.map := rfl
@[simp] theorem modMat_media (f : MatSt → MatSt) : (s.modMat f).media = s.media := rfl
@[simp] theorem modMat_hold (f : MatSt → MatSt) : (s.modMat f).hold = s.hold := rfl
@[simp] theorem modMat_prog (f : MatSt → MatSt) : (s.modMat f).prog = s.prog := rfl
@[simp] theorem modMat_kw (f : MatSt → MatSt) : (s.modMat f).kw = s.kw := rfl
@[simp] theorem modMat_mat (f : MatSt → MatSt) : (s.modMat f).mat = f s.mat := rfl
@[simp] theorem modMat_cmp (f : MatSt → MatSt) : (s.modMat f).cmp = s.cmp := rfl
@[simp] theorem modMat_dig (f : MatSt → MatSt) : (s.modMat f).dig = s.dig := rfl
@[simp] theorem modMat_sec (f : MatSt → MatSt) : (s.modMat f).sec = s.sec := rfl
@[simp] theorem modMat_test (f : MatSt → MatSt) : (s.modMat f).test = s.test := rfl

@[simp] theorem modCmp_pending (f : KV CmpS → KV CmpS) : (s.modCmp f).pending = s.pending := rfl
@[simp] theorem modCmp_now (f : KV CmpS → KV CmpS) : (s.modCmp f).now = s.now := rfl
@[simp] theorem modCmp_free (f : KV CmpS → KV CmpS) : (s.modCmp f).free = s.free := rfl
@[simp] theorem modCmp_out (f : KV CmpS → KV CmpS) : (s.modCmp f).out = s.out := rfl
@[simp] theorem modCmp_ctl (f : KV CmpS → KV CmpS) : (s.modCmp f).ctl = s.ctl := rfl
@[simp] theorem modCmp_mode (f : KV CmpS → KV CmpS) : (s.modCmp f).mode = s.mode := rfl
@[simp] theorem modCmp_fence (f : KV CmpS → KV CmpS) : (s.modCmp f).fence = s.fence := rfl
@[simp] theorem modCmp_log (f : KV CmpS → KV CmpS) : (s.modCmp f).log = s.log := rfl
@[simp] theorem modCmp_time (f : KV CmpS → KV CmpS) : (s.modCmp f).time = s.time := rfl
@[simp] theorem modCmp_pwr (f : KV CmpS → KV CmpS) : (s.modCmp f).pwr = s.pwr := rfl
@[simp] theorem modCmp_sens (f : KV CmpS → KV CmpS) : (s.modCmp f).sens = s.sens := rfl
@[simp] theorem modCmp_fw (f : KV CmpS → KV CmpS) : (s.modCmp f).fw = s.fw := rfl
@[simp] theorem modCmp_mctp (f : KV CmpS → KV CmpS) : (s.modCmp f).mctp = s.mctp := rfl
@[simp] theorem modCmp_net (f : KV CmpS → KV CmpS) : (s.modCmp f).net = s.net := rfl
@[simp] theorem modCmp_cmd (f : KV CmpS → KV CmpS) : (s.modCmp f).cmd = s.cmd := rfl
@[simp] theorem modCmp_inst (f : KV CmpS → KV CmpS) : (s.modCmp f).inst = s.inst := rfl
@[simp] theorem modCmp_buf (f : KV CmpS → KV CmpS) : (s.modCmp f).buf = s.buf := rfl
@[simp] theorem modCmp_map (f : KV CmpS → KV CmpS) : (s.modCmp f).map = s.map := rfl
@[simp] theorem modCmp_media (f : KV CmpS → KV CmpS) : (s.modCmp f).media = s.media := rfl
@[simp] theorem modCmp_hold (f : KV CmpS → KV CmpS) : (s.modCmp f).hold = s.hold := rfl
@[simp] theorem modCmp_prog (f : KV CmpS → KV CmpS) : (s.modCmp f).prog = s.prog := rfl
@[simp] theorem modCmp_kw (f : KV CmpS → KV CmpS) : (s.modCmp f).kw = s.kw := rfl
@[simp] theorem modCmp_mat (f : KV CmpS → KV CmpS) : (s.modCmp f).mat = s.mat := rfl
@[simp] theorem modCmp_cmp (f : KV CmpS → KV CmpS) : (s.modCmp f).cmp = f s.cmp := rfl
@[simp] theorem modCmp_dig (f : KV CmpS → KV CmpS) : (s.modCmp f).dig = s.dig := rfl
@[simp] theorem modCmp_sec (f : KV CmpS → KV CmpS) : (s.modCmp f).sec = s.sec := rfl
@[simp] theorem modCmp_test (f : KV CmpS → KV CmpS) : (s.modCmp f).test = s.test := rfl

@[simp] theorem modDig_pending (f : KV DigS → KV DigS) : (s.modDig f).pending = s.pending := rfl
@[simp] theorem modDig_now (f : KV DigS → KV DigS) : (s.modDig f).now = s.now := rfl
@[simp] theorem modDig_free (f : KV DigS → KV DigS) : (s.modDig f).free = s.free := rfl
@[simp] theorem modDig_out (f : KV DigS → KV DigS) : (s.modDig f).out = s.out := rfl
@[simp] theorem modDig_ctl (f : KV DigS → KV DigS) : (s.modDig f).ctl = s.ctl := rfl
@[simp] theorem modDig_mode (f : KV DigS → KV DigS) : (s.modDig f).mode = s.mode := rfl
@[simp] theorem modDig_fence (f : KV DigS → KV DigS) : (s.modDig f).fence = s.fence := rfl
@[simp] theorem modDig_log (f : KV DigS → KV DigS) : (s.modDig f).log = s.log := rfl
@[simp] theorem modDig_time (f : KV DigS → KV DigS) : (s.modDig f).time = s.time := rfl
@[simp] theorem modDig_pwr (f : KV DigS → KV DigS) : (s.modDig f).pwr = s.pwr := rfl
@[simp] theorem modDig_sens (f : KV DigS → KV DigS) : (s.modDig f).sens = s.sens := rfl
@[simp] theorem modDig_fw (f : KV DigS → KV DigS) : (s.modDig f).fw = s.fw := rfl
@[simp] theorem modDig_mctp (f : KV DigS → KV DigS) : (s.modDig f).mctp = s.mctp := rfl
@[simp] theorem modDig_net (f : KV DigS → KV DigS) : (s.modDig f).net = s.net := rfl
@[simp] theorem modDig_cmd (f : KV DigS → KV DigS) : (s.modDig f).cmd = s.cmd := rfl
@[simp] theorem modDig_inst (f : KV DigS → KV DigS) : (s.modDig f).inst = s.inst := rfl
@[simp] theorem modDig_buf (f : KV DigS → KV DigS) : (s.modDig f).buf = s.buf := rfl
@[simp] theorem modDig_map (f : KV DigS → KV DigS) : (s.modDig f).map = s.map := rfl
@[simp] theorem modDig_media (f : KV DigS → KV DigS) : (s.modDig f).media = s.media := rfl
@[simp] theorem modDig_hold (f : KV DigS → KV DigS) : (s.modDig f).hold = s.hold := rfl
@[simp] theorem modDig_prog (f : KV DigS → KV DigS) : (s.modDig f).prog = s.prog := rfl
@[simp] theorem modDig_kw (f : KV DigS → KV DigS) : (s.modDig f).kw = s.kw := rfl
@[simp] theorem modDig_mat (f : KV DigS → KV DigS) : (s.modDig f).mat = s.mat := rfl
@[simp] theorem modDig_cmp (f : KV DigS → KV DigS) : (s.modDig f).cmp = s.cmp := rfl
@[simp] theorem modDig_dig (f : KV DigS → KV DigS) : (s.modDig f).dig = f s.dig := rfl
@[simp] theorem modDig_sec (f : KV DigS → KV DigS) : (s.modDig f).sec = s.sec := rfl
@[simp] theorem modDig_test (f : KV DigS → KV DigS) : (s.modDig f).test = s.test := rfl

@[simp] theorem modSec_pending (f : SecSt → SecSt) : (s.modSec f).pending = s.pending := rfl
@[simp] theorem modSec_now (f : SecSt → SecSt) : (s.modSec f).now = s.now := rfl
@[simp] theorem modSec_free (f : SecSt → SecSt) : (s.modSec f).free = s.free := rfl
@[simp] theorem modSec_out (f : SecSt → SecSt) : (s.modSec f).out = s.out := rfl
@[simp] theorem modSec_ctl (f : SecSt → SecSt) : (s.modSec f).ctl = s.ctl := rfl
@[simp] theorem modSec_mode (f : SecSt → SecSt) : (s.modSec f).mode = s.mode := rfl
@[simp] theorem modSec_fence (f : SecSt → SecSt) : (s.modSec f).fence = s.fence := rfl
@[simp] theorem modSec_log (f : SecSt → SecSt) : (s.modSec f).log = s.log := rfl
@[simp] theorem modSec_time (f : SecSt → SecSt) : (s.modSec f).time = s.time := rfl
@[simp] theorem modSec_pwr (f : SecSt → SecSt) : (s.modSec f).pwr = s.pwr := rfl
@[simp] theorem modSec_sens (f : SecSt → SecSt) : (s.modSec f).sens = s.sens := rfl
@[simp] theorem modSec_fw (f : SecSt → SecSt) : (s.modSec f).fw = s.fw := rfl
@[simp] theorem modSec_mctp (f : SecSt → SecSt) : (s.modSec f).mctp = s.mctp := rfl
@[simp] theorem modSec_net (f : SecSt → SecSt) : (s.modSec f).net = s.net := rfl
@[simp] theorem modSec_cmd (f : SecSt → SecSt) : (s.modSec f).cmd = s.cmd := rfl
@[simp] theorem modSec_inst (f : SecSt → SecSt) : (s.modSec f).inst = s.inst := rfl
@[simp] theorem modSec_buf (f : SecSt → SecSt) : (s.modSec f).buf = s.buf := rfl
@[simp] theorem modSec_map (f : SecSt → SecSt) : (s.modSec f).map = s.map := rfl
@[simp] theorem modSec_media (f : SecSt → SecSt) : (s.modSec f).media = s.media := rfl
@[simp] theorem modSec_hold (f : SecSt → SecSt) : (s.modSec f).hold = s.hold := rfl
@[simp] theorem modSec_prog (f : SecSt → SecSt) : (s.modSec f).prog = s.prog := rfl
@[simp] theorem modSec_kw (f : SecSt → SecSt) : (s.modSec f).kw = s.kw := rfl
@[simp] theorem modSec_mat (f : SecSt → SecSt) : (s.modSec f).mat = s.mat := rfl
@[simp] theorem modSec_cmp (f : SecSt → SecSt) : (s.modSec f).cmp = s.cmp := rfl
@[simp] theorem modSec_dig (f : SecSt → SecSt) : (s.modSec f).dig = s.dig := rfl
@[simp] theorem modSec_sec (f : SecSt → SecSt) : (s.modSec f).sec = f s.sec := rfl
@[simp] theorem modSec_test (f : SecSt → SecSt) : (s.modSec f).test = s.test := rfl

@[simp] theorem modTest_pending (f : TestSt → TestSt) : (s.modTest f).pending = s.pending := rfl
@[simp] theorem modTest_now (f : TestSt → TestSt) : (s.modTest f).now = s.now := rfl
@[simp] theorem modTest_free (f : TestSt → TestSt) : (s.modTest f).free = s.free := rfl
@[simp] theorem modTest_out (f : TestSt → TestSt) : (s.modTest f).out = s.out := rfl
@[simp] theorem modTest_ctl (f : TestSt → TestSt) : (s.modTest f).ctl = s.ctl := rfl
@[simp] theorem modTest_mode (f : TestSt → TestSt) : (s.modTest f).mode = s.mode := rfl
@[simp] theorem modTest_fence (f : TestSt → TestSt) : (s.modTest f).fence = s.fence := rfl
@[simp] theorem modTest_log (f : TestSt → TestSt) : (s.modTest f).log = s.log := rfl
@[simp] theorem modTest_time (f : TestSt → TestSt) : (s.modTest f).time = s.time := rfl
@[simp] theorem modTest_pwr (f : TestSt → TestSt) : (s.modTest f).pwr = s.pwr := rfl
@[simp] theorem modTest_sens (f : TestSt → TestSt) : (s.modTest f).sens = s.sens := rfl
@[simp] theorem modTest_fw (f : TestSt → TestSt) : (s.modTest f).fw = s.fw := rfl
@[simp] theorem modTest_mctp (f : TestSt → TestSt) : (s.modTest f).mctp = s.mctp := rfl
@[simp] theorem modTest_net (f : TestSt → TestSt) : (s.modTest f).net = s.net := rfl
@[simp] theorem modTest_cmd (f : TestSt → TestSt) : (s.modTest f).cmd = s.cmd := rfl
@[simp] theorem modTest_inst (f : TestSt → TestSt) : (s.modTest f).inst = s.inst := rfl
@[simp] theorem modTest_buf (f : TestSt → TestSt) : (s.modTest f).buf = s.buf := rfl
@[simp] theorem modTest_map (f : TestSt → TestSt) : (s.modTest f).map = s.map := rfl
@[simp] theorem modTest_media (f : TestSt → TestSt) : (s.modTest f).media = s.media := rfl
@[simp] theorem modTest_hold (f : TestSt → TestSt) : (s.modTest f).hold = s.hold := rfl
@[simp] theorem modTest_prog (f : TestSt → TestSt) : (s.modTest f).prog = s.prog := rfl
@[simp] theorem modTest_kw (f : TestSt → TestSt) : (s.modTest f).kw = s.kw := rfl
@[simp] theorem modTest_mat (f : TestSt → TestSt) : (s.modTest f).mat = s.mat := rfl
@[simp] theorem modTest_cmp (f : TestSt → TestSt) : (s.modTest f).cmp = s.cmp := rfl
@[simp] theorem modTest_dig (f : TestSt → TestSt) : (s.modTest f).dig = s.dig := rfl
@[simp] theorem modTest_sec (f : TestSt → TestSt) : (s.modTest f).sec = s.sec := rfl
@[simp] theorem modTest_test (f : TestSt → TestSt) : (s.modTest f).test = f s.test := rfl

@[simp] theorem emit_pending (o : Out) : (s.emit o).pending = s.pending := rfl
@[simp] theorem emit_now (o : Out) : (s.emit o).now = s.now := rfl
@[simp] theorem emit_free (o : Out) : (s.emit o).free = s.free := rfl
@[simp] theorem emit_out (o : Out) : (s.emit o).out = o :: s.out := rfl
@[simp] theorem emit_ctl (o : Out) : (s.emit o).ctl = s.ctl := rfl
@[simp] theorem emit_mode (o : Out) : (s.emit o).mode = s.mode := rfl
@[simp] theorem emit_fence (o : Out) : (s.emit o).fence = s.fence := rfl
@[simp] theorem emit_log (o : Out) : (s.emit o).log = s.log := rfl
@[simp] theorem emit_time (o : Out) : (s.emit o).time = s.time := rfl
@[simp] theorem emit_pwr (o : Out) : (s.emit o).pwr = s.pwr := rfl
@[simp] theorem emit_sens (o : Out) : (s.emit o).sens = s.sens := rfl
@[simp] theorem emit_fw (o : Out) : (s.emit o).fw = s.fw := rfl
@[simp] theorem emit_mctp (o : Out) : (s.emit o).mctp = s.mctp := rfl
@[simp] theorem emit_net (o : Out) : (s.emit o).net = s.net := rfl
@[simp] theorem emit_cmd (o : Out) : (s.emit o).cmd = s.cmd := rfl
@[simp] theorem emit_inst (o : Out) : (s.emit o).inst = s.inst := rfl
@[simp] theorem emit_buf (o : Out) : (s.emit o).buf = s.buf := rfl
@[simp] theorem emit_map (o : Out) : (s.emit o).map = s.map := rfl
@[simp] theorem emit_media (o : Out) : (s.emit o).media = s.media := rfl
@[simp] theorem emit_hold (o : Out) : (s.emit o).hold = s.hold := rfl
@[simp] theorem emit_prog (o : Out) : (s.emit o).prog = s.prog := rfl
@[simp] theorem emit_kw (o : Out) : (s.emit o).kw = s.kw := rfl
@[simp] theorem emit_mat (o : Out) : (s.emit o).mat = s.mat := rfl
@[simp] theorem emit_cmp (o : Out) : (s.emit o).cmp = s.cmp := rfl
@[simp] theorem emit_dig (o : Out) : (s.emit o).dig = s.dig := rfl
@[simp] theorem emit_sec (o : Out) : (s.emit o).sec = s.sec := rfl
@[simp] theorem emit_test (o : Out) : (s.emit o).test = s.test := rfl

@[simp] theorem reach_pending (t : Nat) : (s.reach t).pending = s.pending := rfl
@[simp] theorem reach_now (t : Nat) : (s.reach t).now = max s.now t := rfl
@[simp] theorem reach_free (t : Nat) : (s.reach t).free = s.free := rfl
@[simp] theorem reach_out (t : Nat) : (s.reach t).out = s.out := rfl
@[simp] theorem reach_ctl (t : Nat) : (s.reach t).ctl = s.ctl := rfl
@[simp] theorem reach_mode (t : Nat) : (s.reach t).mode = s.mode := rfl
@[simp] theorem reach_fence (t : Nat) : (s.reach t).fence = s.fence := rfl
@[simp] theorem reach_log (t : Nat) : (s.reach t).log = s.log := rfl
@[simp] theorem reach_time (t : Nat) : (s.reach t).time = s.time := rfl
@[simp] theorem reach_pwr (t : Nat) : (s.reach t).pwr = s.pwr := rfl
@[simp] theorem reach_sens (t : Nat) : (s.reach t).sens = s.sens := rfl
@[simp] theorem reach_fw (t : Nat) : (s.reach t).fw = s.fw := rfl
@[simp] theorem reach_mctp (t : Nat) : (s.reach t).mctp = s.mctp := rfl
@[simp] theorem reach_net (t : Nat) : (s.reach t).net = s.net := rfl
@[simp] theorem reach_cmd (t : Nat) : (s.reach t).cmd = s.cmd := rfl
@[simp] theorem reach_inst (t : Nat) : (s.reach t).inst = s.inst := rfl
@[simp] theorem reach_buf (t : Nat) : (s.reach t).buf = s.buf := rfl
@[simp] theorem reach_map (t : Nat) : (s.reach t).map = s.map := rfl
@[simp] theorem reach_media (t : Nat) : (s.reach t).media = s.media := rfl
@[simp] theorem reach_hold (t : Nat) : (s.reach t).hold = s.hold := rfl
@[simp] theorem reach_prog (t : Nat) : (s.reach t).prog = s.prog := rfl
@[simp] theorem reach_kw (t : Nat) : (s.reach t).kw = s.kw := rfl
@[simp] theorem reach_mat (t : Nat) : (s.reach t).mat = s.mat := rfl
@[simp] theorem reach_cmp (t : Nat) : (s.reach t).cmp = s.cmp := rfl
@[simp] theorem reach_dig (t : Nat) : (s.reach t).dig = s.dig := rfl
@[simp] theorem reach_sec (t : Nat) : (s.reach t).sec = s.sec := rfl
@[simp] theorem reach_test (t : Nat) : (s.reach t).test = s.test := rfl

@[simp] theorem draw_pending : (s.draw.2).pending = s.pending := rfl
@[simp] theorem draw_now : (s.draw.2).now = s.now := rfl
@[simp] theorem draw_free : (s.draw.2).free = s.free + 1 := rfl
@[simp] theorem draw_out : (s.draw.2).out = s.out := rfl
@[simp] theorem draw_ctl : (s.draw.2).ctl = s.ctl := rfl
@[simp] theorem draw_mode : (s.draw.2).mode = s.mode := rfl
@[simp] theorem draw_fence : (s.draw.2).fence = s.fence := rfl
@[simp] theorem draw_log : (s.draw.2).log = s.log := rfl
@[simp] theorem draw_time : (s.draw.2).time = s.time := rfl
@[simp] theorem draw_pwr : (s.draw.2).pwr = s.pwr := rfl
@[simp] theorem draw_sens : (s.draw.2).sens = s.sens := rfl
@[simp] theorem draw_fw : (s.draw.2).fw = s.fw := rfl
@[simp] theorem draw_mctp : (s.draw.2).mctp = s.mctp := rfl
@[simp] theorem draw_net : (s.draw.2).net = s.net := rfl
@[simp] theorem draw_cmd : (s.draw.2).cmd = s.cmd := rfl
@[simp] theorem draw_inst : (s.draw.2).inst = s.inst := rfl
@[simp] theorem draw_buf : (s.draw.2).buf = s.buf := rfl
@[simp] theorem draw_map : (s.draw.2).map = s.map := rfl
@[simp] theorem draw_media : (s.draw.2).media = s.media := rfl
@[simp] theorem draw_hold : (s.draw.2).hold = s.hold := rfl
@[simp] theorem draw_prog : (s.draw.2).prog = s.prog := rfl
@[simp] theorem draw_kw : (s.draw.2).kw = s.kw := rfl
@[simp] theorem draw_mat : (s.draw.2).mat = s.mat := rfl
@[simp] theorem draw_cmp : (s.draw.2).cmp = s.cmp := rfl
@[simp] theorem draw_dig : (s.draw.2).dig = s.dig := rfl
@[simp] theorem draw_sec : (s.draw.2).sec = s.sec := rfl
@[simp] theorem draw_test : (s.draw.2).test = s.test := rfl

@[simp] theorem setLive_pending (a v : Nat) : (s.setLive a v).pending = s.pending := rfl
@[simp] theorem setLive_now (a v : Nat) : (s.setLive a v).now = s.now := rfl
@[simp] theorem setLive_free (a v : Nat) : (s.setLive a v).free = s.free := rfl
@[simp] theorem setLive_out (a v : Nat) : (s.setLive a v).out = s.out := rfl
@[simp] theorem setLive_mode (a v : Nat) : (s.setLive a v).mode = s.mode := rfl
@[simp] theorem setLive_fence (a v : Nat) : (s.setLive a v).fence = s.fence := rfl
@[simp] theorem setLive_log (a v : Nat) : (s.setLive a v).log = s.log := rfl
@[simp] theorem setLive_time (a v : Nat) : (s.setLive a v).time = s.time := rfl
@[simp] theorem setLive_pwr (a v : Nat) : (s.setLive a v).pwr = s.pwr := rfl
@[simp] theorem setLive_sens (a v : Nat) : (s.setLive a v).sens = s.sens := rfl
@[simp] theorem setLive_fw (a v : Nat) : (s.setLive a v).fw = s.fw := rfl
@[simp] theorem setLive_mctp (a v : Nat) : (s.setLive a v).mctp = s.mctp := rfl
@[simp] theorem setLive_net (a v : Nat) : (s.setLive a v).net = s.net := rfl
@[simp] theorem setLive_cmd (a v : Nat) : (s.setLive a v).cmd = s.cmd := rfl
@[simp] theorem setLive_inst (a v : Nat) : (s.setLive a v).inst = s.inst := rfl
@[simp] theorem setLive_buf (a v : Nat) : (s.setLive a v).buf = s.buf := rfl
@[simp] theorem setLive_map (a v : Nat) : (s.setLive a v).map = s.map := rfl
@[simp] theorem setLive_media (a v : Nat) : (s.setLive a v).media = s.media := rfl
@[simp] theorem setLive_hold (a v : Nat) : (s.setLive a v).hold = s.hold := rfl
@[simp] theorem setLive_prog (a v : Nat) : (s.setLive a v).prog = s.prog := rfl
@[simp] theorem setLive_kw (a v : Nat) : (s.setLive a v).kw = s.kw := rfl
@[simp] theorem setLive_mat (a v : Nat) : (s.setLive a v).mat = s.mat := rfl
@[simp] theorem setLive_cmp (a v : Nat) : (s.setLive a v).cmp = s.cmp := rfl
@[simp] theorem setLive_dig (a v : Nat) : (s.setLive a v).dig = s.dig := rfl
@[simp] theorem setLive_sec (a v : Nat) : (s.setLive a v).sec = s.sec := rfl
@[simp] theorem setLive_test (a v : Nat) : (s.setLive a v).test = s.test := rfl

@[simp] theorem setFldAt_pending (pg : Nat) (f : Field) (k v : Nat) : (s.setFldAt pg f k v).pending = s.pending := rfl
@[simp] theorem setFldAt_now (pg : Nat) (f : Field) (k v : Nat) : (s.setFldAt pg f k v).now = s.now := rfl
@[simp] theorem setFldAt_free (pg : Nat) (f : Field) (k v : Nat) : (s.setFldAt pg f k v).free = s.free := rfl
@[simp] theorem setFldAt_out (pg : Nat) (f : Field) (k v : Nat) : (s.setFldAt pg f k v).out = s.out := rfl
@[simp] theorem setFldAt_mode (pg : Nat) (f : Field) (k v : Nat) : (s.setFldAt pg f k v).mode = s.mode := rfl
@[simp] theorem setFldAt_fence (pg : Nat) (f : Field) (k v : Nat) : (s.setFldAt pg f k v).fence = s.fence := rfl
@[simp] theorem setFldAt_log (pg : Nat) (f : Field) (k v : Nat) : (s.setFldAt pg f k v).log = s.log := rfl
@[simp] theorem setFldAt_time (pg : Nat) (f : Field) (k v : Nat) : (s.setFldAt pg f k v).time = s.time := rfl
@[simp] theorem setFldAt_pwr (pg : Nat) (f : Field) (k v : Nat) : (s.setFldAt pg f k v).pwr = s.pwr := rfl
@[simp] theorem setFldAt_sens (pg : Nat) (f : Field) (k v : Nat) : (s.setFldAt pg f k v).sens = s.sens := rfl
@[simp] theorem setFldAt_fw (pg : Nat) (f : Field) (k v : Nat) : (s.setFldAt pg f k v).fw = s.fw := rfl
@[simp] theorem setFldAt_mctp (pg : Nat) (f : Field) (k v : Nat) : (s.setFldAt pg f k v).mctp = s.mctp := rfl
@[simp] theorem setFldAt_net (pg : Nat) (f : Field) (k v : Nat) : (s.setFldAt pg f k v).net = s.net := rfl
@[simp] theorem setFldAt_cmd (pg : Nat) (f : Field) (k v : Nat) : (s.setFldAt pg f k v).cmd = s.cmd := rfl
@[simp] theorem setFldAt_inst (pg : Nat) (f : Field) (k v : Nat) : (s.setFldAt pg f k v).inst = s.inst := rfl
@[simp] theorem setFldAt_buf (pg : Nat) (f : Field) (k v : Nat) : (s.setFldAt pg f k v).buf = s.buf := rfl
@[simp] theorem setFldAt_map (pg : Nat) (f : Field) (k v : Nat) : (s.setFldAt pg f k v).map = s.map := rfl
@[simp] theorem setFldAt_media (pg : Nat) (f : Field) (k v : Nat) : (s.setFldAt pg f k v).media = s.media := rfl
@[simp] theorem setFldAt_hold (pg : Nat) (f : Field) (k v : Nat) : (s.setFldAt pg f k v).hold = s.hold := rfl
@[simp] theorem setFldAt_prog (pg : Nat) (f : Field) (k v : Nat) : (s.setFldAt pg f k v).prog = s.prog := rfl
@[simp] theorem setFldAt_kw (pg : Nat) (f : Field) (k v : Nat) : (s.setFldAt pg f k v).kw = s.kw := rfl
@[simp] theorem setFldAt_mat (pg : Nat) (f : Field) (k v : Nat) : (s.setFldAt pg f k v).mat = s.mat := rfl
@[simp] theorem setFldAt_cmp (pg : Nat) (f : Field) (k v : Nat) : (s.setFldAt pg f k v).cmp = s.cmp := rfl
@[simp] theorem setFldAt_dig (pg : Nat) (f : Field) (k v : Nat) : (s.setFldAt pg f k v).dig = s.dig := rfl
@[simp] theorem setFldAt_sec (pg : Nat) (f : Field) (k v : Nat) : (s.setFldAt pg f k v).sec = s.sec := rfl
@[simp] theorem setFldAt_test (pg : Nat) (f : Field) (k v : Nat) : (s.setFldAt pg f k v).test = s.test := rfl

@[simp] theorem setFld_pending (pg : Nat) (f : Field) (v : Nat) : (s.setFld pg f v).pending = s.pending := rfl
@[simp] theorem setFld_now (pg : Nat) (f : Field) (v : Nat) : (s.setFld pg f v).now = s.now := rfl
@[simp] theorem setFld_free (pg : Nat) (f : Field) (v : Nat) : (s.setFld pg f v).free = s.free := rfl
@[simp] theorem setFld_out (pg : Nat) (f : Field) (v : Nat) : (s.setFld pg f v).out = s.out := rfl
@[simp] theorem setFld_mode (pg : Nat) (f : Field) (v : Nat) : (s.setFld pg f v).mode = s.mode := rfl
@[simp] theorem setFld_fence (pg : Nat) (f : Field) (v : Nat) : (s.setFld pg f v).fence = s.fence := rfl
@[simp] theorem setFld_log (pg : Nat) (f : Field) (v : Nat) : (s.setFld pg f v).log = s.log := rfl
@[simp] theorem setFld_time (pg : Nat) (f : Field) (v : Nat) : (s.setFld pg f v).time = s.time := rfl
@[simp] theorem setFld_pwr (pg : Nat) (f : Field) (v : Nat) : (s.setFld pg f v).pwr = s.pwr := rfl
@[simp] theorem setFld_sens (pg : Nat) (f : Field) (v : Nat) : (s.setFld pg f v).sens = s.sens := rfl
@[simp] theorem setFld_fw (pg : Nat) (f : Field) (v : Nat) : (s.setFld pg f v).fw = s.fw := rfl
@[simp] theorem setFld_mctp (pg : Nat) (f : Field) (v : Nat) : (s.setFld pg f v).mctp = s.mctp := rfl
@[simp] theorem setFld_net (pg : Nat) (f : Field) (v : Nat) : (s.setFld pg f v).net = s.net := rfl
@[simp] theorem setFld_cmd (pg : Nat) (f : Field) (v : Nat) : (s.setFld pg f v).cmd = s.cmd := rfl
@[simp] theorem setFld_inst (pg : Nat) (f : Field) (v : Nat) : (s.setFld pg f v).inst = s.inst := rfl
@[simp] theorem setFld_buf (pg : Nat) (f : Field) (v : Nat) : (s.setFld pg f v).buf = s.buf := rfl
@[simp] theorem setFld_map (pg : Nat) (f : Field) (v : Nat) : (s.setFld pg f v).map = s.map := rfl
@[simp] theorem setFld_media (pg : Nat) (f : Field) (v : Nat) : (s.setFld pg f v).media = s.media := rfl
@[simp] theorem setFld_hold (pg : Nat) (f : Field) (v : Nat) : (s.setFld pg f v).hold = s.hold := rfl
@[simp] theorem setFld_prog (pg : Nat) (f : Field) (v : Nat) : (s.setFld pg f v).prog = s.prog := rfl
@[simp] theorem setFld_kw (pg : Nat) (f : Field) (v : Nat) : (s.setFld pg f v).kw = s.kw := rfl
@[simp] theorem setFld_mat (pg : Nat) (f : Field) (v : Nat) : (s.setFld pg f v).mat = s.mat := rfl
@[simp] theorem setFld_cmp (pg : Nat) (f : Field) (v : Nat) : (s.setFld pg f v).cmp = s.cmp := rfl
@[simp] theorem setFld_dig (pg : Nat) (f : Field) (v : Nat) : (s.setFld pg f v).dig = s.dig := rfl
@[simp] theorem setFld_sec (pg : Nat) (f : Field) (v : Nat) : (s.setFld pg f v).sec = s.sec := rfl
@[simp] theorem setFld_test (pg : Nat) (f : Field) (v : Nat) : (s.setFld pg f v).test = s.test := rfl

@[simp] theorem bumpBy_pending (pg : Nat) (f : Field) (k n : Nat) : (s.bumpBy pg f k n).pending = s.pending := rfl
@[simp] theorem bumpBy_now (pg : Nat) (f : Field) (k n : Nat) : (s.bumpBy pg f k n).now = s.now := rfl
@[simp] theorem bumpBy_free (pg : Nat) (f : Field) (k n : Nat) : (s.bumpBy pg f k n).free = s.free := rfl
@[simp] theorem bumpBy_out (pg : Nat) (f : Field) (k n : Nat) : (s.bumpBy pg f k n).out = s.out := rfl
@[simp] theorem bumpBy_mode (pg : Nat) (f : Field) (k n : Nat) : (s.bumpBy pg f k n).mode = s.mode := rfl
@[simp] theorem bumpBy_fence (pg : Nat) (f : Field) (k n : Nat) : (s.bumpBy pg f k n).fence = s.fence := rfl
@[simp] theorem bumpBy_log (pg : Nat) (f : Field) (k n : Nat) : (s.bumpBy pg f k n).log = s.log := rfl
@[simp] theorem bumpBy_time (pg : Nat) (f : Field) (k n : Nat) : (s.bumpBy pg f k n).time = s.time := rfl
@[simp] theorem bumpBy_pwr (pg : Nat) (f : Field) (k n : Nat) : (s.bumpBy pg f k n).pwr = s.pwr := rfl
@[simp] theorem bumpBy_sens (pg : Nat) (f : Field) (k n : Nat) : (s.bumpBy pg f k n).sens = s.sens := rfl
@[simp] theorem bumpBy_fw (pg : Nat) (f : Field) (k n : Nat) : (s.bumpBy pg f k n).fw = s.fw := rfl
@[simp] theorem bumpBy_mctp (pg : Nat) (f : Field) (k n : Nat) : (s.bumpBy pg f k n).mctp = s.mctp := rfl
@[simp] theorem bumpBy_net (pg : Nat) (f : Field) (k n : Nat) : (s.bumpBy pg f k n).net = s.net := rfl
@[simp] theorem bumpBy_cmd (pg : Nat) (f : Field) (k n : Nat) : (s.bumpBy pg f k n).cmd = s.cmd := rfl
@[simp] theorem bumpBy_inst (pg : Nat) (f : Field) (k n : Nat) : (s.bumpBy pg f k n).inst = s.inst := rfl
@[simp] theorem bumpBy_buf (pg : Nat) (f : Field) (k n : Nat) : (s.bumpBy pg f k n).buf = s.buf := rfl
@[simp] theorem bumpBy_map (pg : Nat) (f : Field) (k n : Nat) : (s.bumpBy pg f k n).map = s.map := rfl
@[simp] theorem bumpBy_media (pg : Nat) (f : Field) (k n : Nat) : (s.bumpBy pg f k n).media = s.media := rfl
@[simp] theorem bumpBy_hold (pg : Nat) (f : Field) (k n : Nat) : (s.bumpBy pg f k n).hold = s.hold := rfl
@[simp] theorem bumpBy_prog (pg : Nat) (f : Field) (k n : Nat) : (s.bumpBy pg f k n).prog = s.prog := rfl
@[simp] theorem bumpBy_kw (pg : Nat) (f : Field) (k n : Nat) : (s.bumpBy pg f k n).kw = s.kw := rfl
@[simp] theorem bumpBy_mat (pg : Nat) (f : Field) (k n : Nat) : (s.bumpBy pg f k n).mat = s.mat := rfl
@[simp] theorem bumpBy_cmp (pg : Nat) (f : Field) (k n : Nat) : (s.bumpBy pg f k n).cmp = s.cmp := rfl
@[simp] theorem bumpBy_dig (pg : Nat) (f : Field) (k n : Nat) : (s.bumpBy pg f k n).dig = s.dig := rfl
@[simp] theorem bumpBy_sec (pg : Nat) (f : Field) (k n : Nat) : (s.bumpBy pg f k n).sec = s.sec := rfl
@[simp] theorem bumpBy_test (pg : Nat) (f : Field) (k n : Nat) : (s.bumpBy pg f k n).test = s.test := rfl

@[simp] theorem bump_pending (pg : Nat) (f : Field) (k : Nat) : (s.bump pg f k).pending = s.pending := rfl
@[simp] theorem bump_now (pg : Nat) (f : Field) (k : Nat) : (s.bump pg f k).now = s.now := rfl
@[simp] theorem bump_free (pg : Nat) (f : Field) (k : Nat) : (s.bump pg f k).free = s.free := rfl
@[simp] theorem bump_out (pg : Nat) (f : Field) (k : Nat) : (s.bump pg f k).out = s.out := rfl
@[simp] theorem bump_mode (pg : Nat) (f : Field) (k : Nat) : (s.bump pg f k).mode = s.mode := rfl
@[simp] theorem bump_fence (pg : Nat) (f : Field) (k : Nat) : (s.bump pg f k).fence = s.fence := rfl
@[simp] theorem bump_log (pg : Nat) (f : Field) (k : Nat) : (s.bump pg f k).log = s.log := rfl
@[simp] theorem bump_time (pg : Nat) (f : Field) (k : Nat) : (s.bump pg f k).time = s.time := rfl
@[simp] theorem bump_pwr (pg : Nat) (f : Field) (k : Nat) : (s.bump pg f k).pwr = s.pwr := rfl
@[simp] theorem bump_sens (pg : Nat) (f : Field) (k : Nat) : (s.bump pg f k).sens = s.sens := rfl
@[simp] theorem bump_fw (pg : Nat) (f : Field) (k : Nat) : (s.bump pg f k).fw = s.fw := rfl
@[simp] theorem bump_mctp (pg : Nat) (f : Field) (k : Nat) : (s.bump pg f k).mctp = s.mctp := rfl
@[simp] theorem bump_net (pg : Nat) (f : Field) (k : Nat) : (s.bump pg f k).net = s.net := rfl
@[simp] theorem bump_cmd (pg : Nat) (f : Field) (k : Nat) : (s.bump pg f k).cmd = s.cmd := rfl
@[simp] theorem bump_inst (pg : Nat) (f : Field) (k : Nat) : (s.bump pg f k).inst = s.inst := rfl
@[simp] theorem bump_buf (pg : Nat) (f : Field) (k : Nat) : (s.bump pg f k).buf = s.buf := rfl
@[simp] theorem bump_map (pg : Nat) (f : Field) (k : Nat) : (s.bump pg f k).map = s.map := rfl
@[simp] theorem bump_media (pg : Nat) (f : Field) (k : Nat) : (s.bump pg f k).media = s.media := rfl
@[simp] theorem bump_hold (pg : Nat) (f : Field) (k : Nat) : (s.bump pg f k).hold = s.hold := rfl
@[simp] theorem bump_prog (pg : Nat) (f : Field) (k : Nat) : (s.bump pg f k).prog = s.prog := rfl
@[simp] theorem bump_kw (pg : Nat) (f : Field) (k : Nat) : (s.bump pg f k).kw = s.kw := rfl
@[simp] theorem bump_mat (pg : Nat) (f : Field) (k : Nat) : (s.bump pg f k).mat = s.mat := rfl
@[simp] theorem bump_cmp (pg : Nat) (f : Field) (k : Nat) : (s.bump pg f k).cmp = s.cmp := rfl
@[simp] theorem bump_dig (pg : Nat) (f : Field) (k : Nat) : (s.bump pg f k).dig = s.dig := rfl
@[simp] theorem bump_sec (pg : Nat) (f : Field) (k : Nat) : (s.bump pg f k).sec = s.sec := rfl
@[simp] theorem bump_test (pg : Nat) (f : Field) (k : Nat) : (s.bump pg f k).test = s.test := rfl

@[simp] theorem modPage_pending (pg : Nat) (f : PageSt → PageSt) : (s.modPage pg f).pending = s.pending := rfl
@[simp] theorem modPage_now (pg : Nat) (f : PageSt → PageSt) : (s.modPage pg f).now = s.now := rfl
@[simp] theorem modPage_free (pg : Nat) (f : PageSt → PageSt) : (s.modPage pg f).free = s.free := rfl
@[simp] theorem modPage_out (pg : Nat) (f : PageSt → PageSt) : (s.modPage pg f).out = s.out := rfl
@[simp] theorem modPage_mode (pg : Nat) (f : PageSt → PageSt) : (s.modPage pg f).mode = s.mode := rfl
@[simp] theorem modPage_fence (pg : Nat) (f : PageSt → PageSt) : (s.modPage pg f).fence = s.fence := rfl
@[simp] theorem modPage_log (pg : Nat) (f : PageSt → PageSt) : (s.modPage pg f).log = s.log := rfl
@[simp] theorem modPage_time (pg : Nat) (f : PageSt → PageSt) : (s.modPage pg f).time = s.time := rfl
@[simp] theorem modPage_pwr (pg : Nat) (f : PageSt → PageSt) : (s.modPage pg f).pwr = s.pwr := rfl
@[simp] theorem modPage_sens (pg : Nat) (f : PageSt → PageSt) : (s.modPage pg f).sens = s.sens := rfl
@[simp] theorem modPage_fw (pg : Nat) (f : PageSt → PageSt) : (s.modPage pg f).fw = s.fw := rfl
@[simp] theorem modPage_mctp (pg : Nat) (f : PageSt → PageSt) : (s.modPage pg f).mctp = s.mctp := rfl
@[simp] theorem modPage_net (pg : Nat) (f : PageSt → PageSt) : (s.modPage pg f).net = s.net := rfl
@[simp] theorem modPage_cmd (pg : Nat) (f : PageSt → PageSt) : (s.modPage pg f).cmd = s.cmd := rfl
@[simp] theorem modPage_inst (pg : Nat) (f : PageSt → PageSt) : (s.modPage pg f).inst = s.inst := rfl
@[simp] theorem modPage_buf (pg : Nat) (f : PageSt → PageSt) : (s.modPage pg f).buf = s.buf := rfl
@[simp] theorem modPage_map (pg : Nat) (f : PageSt → PageSt) : (s.modPage pg f).map = s.map := rfl
@[simp] theorem modPage_media (pg : Nat) (f : PageSt → PageSt) : (s.modPage pg f).media = s.media := rfl
@[simp] theorem modPage_hold (pg : Nat) (f : PageSt → PageSt) : (s.modPage pg f).hold = s.hold := rfl
@[simp] theorem modPage_prog (pg : Nat) (f : PageSt → PageSt) : (s.modPage pg f).prog = s.prog := rfl
@[simp] theorem modPage_kw (pg : Nat) (f : PageSt → PageSt) : (s.modPage pg f).kw = s.kw := rfl
@[simp] theorem modPage_mat (pg : Nat) (f : PageSt → PageSt) : (s.modPage pg f).mat = s.mat := rfl
@[simp] theorem modPage_cmp (pg : Nat) (f : PageSt → PageSt) : (s.modPage pg f).cmp = s.cmp := rfl
@[simp] theorem modPage_dig (pg : Nat) (f : PageSt → PageSt) : (s.modPage pg f).dig = s.dig := rfl
@[simp] theorem modPage_sec (pg : Nat) (f : PageSt → PageSt) : (s.modPage pg f).sec = s.sec := rfl
@[simp] theorem modPage_test (pg : Nat) (f : PageSt → PageSt) : (s.modPage pg f).test = s.test := rfl

@[simp] theorem setEv_pending (pg bit : Nat) : (s.setEv pg bit).pending = s.pending := rfl
@[simp] theorem setEv_now (pg bit : Nat) : (s.setEv pg bit).now = s.now := rfl
@[simp] theorem setEv_free (pg bit : Nat) : (s.setEv pg bit).free = s.free := rfl
@[simp] theorem setEv_out (pg bit : Nat) : (s.setEv pg bit).out = s.out := rfl
@[simp] theorem setEv_mode (pg bit : Nat) : (s.setEv pg bit).mode = s.mode := rfl
@[simp] theorem setEv_fence (pg bit : Nat) : (s.setEv pg bit).fence = s.fence := rfl
@[simp] theorem setEv_log (pg bit : Nat) : (s.setEv pg bit).log = s.log := rfl
@[simp] theorem setEv_time (pg bit : Nat) : (s.setEv pg bit).time = s.time := rfl
@[simp] theorem setEv_pwr (pg bit : Nat) : (s.setEv pg bit).pwr = s.pwr := rfl
@[simp] theorem setEv_sens (pg bit : Nat) : (s.setEv pg bit).sens = s.sens := rfl
@[simp] theorem setEv_fw (pg bit : Nat) : (s.setEv pg bit).fw = s.fw := rfl
@[simp] theorem setEv_mctp (pg bit : Nat) : (s.setEv pg bit).mctp = s.mctp := rfl
@[simp] theorem setEv_net (pg bit : Nat) : (s.setEv pg bit).net = s.net := rfl
@[simp] theorem setEv_cmd (pg bit : Nat) : (s.setEv pg bit).cmd = s.cmd := rfl
@[simp] theorem setEv_inst (pg bit : Nat) : (s.setEv pg bit).inst = s.inst := rfl
@[simp] theorem setEv_buf (pg bit : Nat) : (s.setEv pg bit).buf = s.buf := rfl
@[simp] theorem setEv_map (pg bit : Nat) : (s.setEv pg bit).map = s.map := rfl
@[simp] theorem setEv_media (pg bit : Nat) : (s.setEv pg bit).media = s.media := rfl
@[simp] theorem setEv_hold (pg bit : Nat) : (s.setEv pg bit).hold = s.hold := rfl
@[simp] theorem setEv_prog (pg bit : Nat) : (s.setEv pg bit).prog = s.prog := rfl
@[simp] theorem setEv_kw (pg bit : Nat) : (s.setEv pg bit).kw = s.kw := rfl
@[simp] theorem setEv_mat (pg bit : Nat) : (s.setEv pg bit).mat = s.mat := rfl
@[simp] theorem setEv_cmp (pg bit : Nat) : (s.setEv pg bit).cmp = s.cmp := rfl
@[simp] theorem setEv_dig (pg bit : Nat) : (s.setEv pg bit).dig = s.dig := rfl
@[simp] theorem setEv_sec (pg bit : Nat) : (s.setEv pg bit).sec = s.sec := rfl
@[simp] theorem setEv_test (pg bit : Nat) : (s.setEv pg bit).test = s.test := rfl

@[simp] theorem setErr_pending (pg code info : Nat) : (s.setErr pg code info).pending = s.pending := rfl
@[simp] theorem setErr_now (pg code info : Nat) : (s.setErr pg code info).now = s.now := rfl
@[simp] theorem setErr_free (pg code info : Nat) : (s.setErr pg code info).free = s.free := rfl
@[simp] theorem setErr_out (pg code info : Nat) : (s.setErr pg code info).out = s.out := rfl
@[simp] theorem setErr_mode (pg code info : Nat) : (s.setErr pg code info).mode = s.mode := rfl
@[simp] theorem setErr_fence (pg code info : Nat) : (s.setErr pg code info).fence = s.fence := rfl
@[simp] theorem setErr_log (pg code info : Nat) : (s.setErr pg code info).log = s.log := rfl
@[simp] theorem setErr_time (pg code info : Nat) : (s.setErr pg code info).time = s.time := rfl
@[simp] theorem setErr_pwr (pg code info : Nat) : (s.setErr pg code info).pwr = s.pwr := rfl
@[simp] theorem setErr_sens (pg code info : Nat) : (s.setErr pg code info).sens = s.sens := rfl
@[simp] theorem setErr_fw (pg code info : Nat) : (s.setErr pg code info).fw = s.fw := rfl
@[simp] theorem setErr_mctp (pg code info : Nat) : (s.setErr pg code info).mctp = s.mctp := rfl
@[simp] theorem setErr_net (pg code info : Nat) : (s.setErr pg code info).net = s.net := rfl
@[simp] theorem setErr_cmd (pg code info : Nat) : (s.setErr pg code info).cmd = s.cmd := rfl
@[simp] theorem setErr_inst (pg code info : Nat) : (s.setErr pg code info).inst = s.inst := rfl
@[simp] theorem setErr_buf (pg code info : Nat) : (s.setErr pg code info).buf = s.buf := rfl
@[simp] theorem setErr_map (pg code info : Nat) : (s.setErr pg code info).map = s.map := rfl
@[simp] theorem setErr_media (pg code info : Nat) : (s.setErr pg code info).media = s.media := rfl
@[simp] theorem setErr_hold (pg code info : Nat) : (s.setErr pg code info).hold = s.hold := rfl
@[simp] theorem setErr_prog (pg code info : Nat) : (s.setErr pg code info).prog = s.prog := rfl
@[simp] theorem setErr_kw (pg code info : Nat) : (s.setErr pg code info).kw = s.kw := rfl
@[simp] theorem setErr_mat (pg code info : Nat) : (s.setErr pg code info).mat = s.mat := rfl
@[simp] theorem setErr_cmp (pg code info : Nat) : (s.setErr pg code info).cmp = s.cmp := rfl
@[simp] theorem setErr_dig (pg code info : Nat) : (s.setErr pg code info).dig = s.dig := rfl
@[simp] theorem setErr_sec (pg code info : Nat) : (s.setErr pg code info).sec = s.sec := rfl
@[simp] theorem setErr_test (pg code info : Nat) : (s.setErr pg code info).test = s.test := rfl

@[simp] theorem modInstOf_pending (i : Nat) (f : InstS → InstS) : (s.modInstOf i f).pending = s.pending := rfl
@[simp] theorem modInstOf_now (i : Nat) (f : InstS → InstS) : (s.modInstOf i f).now = s.now := rfl
@[simp] theorem modInstOf_free (i : Nat) (f : InstS → InstS) : (s.modInstOf i f).free = s.free := rfl
@[simp] theorem modInstOf_out (i : Nat) (f : InstS → InstS) : (s.modInstOf i f).out = s.out := rfl
@[simp] theorem modInstOf_ctl (i : Nat) (f : InstS → InstS) : (s.modInstOf i f).ctl = s.ctl := rfl
@[simp] theorem modInstOf_mode (i : Nat) (f : InstS → InstS) : (s.modInstOf i f).mode = s.mode := rfl
@[simp] theorem modInstOf_fence (i : Nat) (f : InstS → InstS) : (s.modInstOf i f).fence = s.fence := rfl
@[simp] theorem modInstOf_log (i : Nat) (f : InstS → InstS) : (s.modInstOf i f).log = s.log := rfl
@[simp] theorem modInstOf_time (i : Nat) (f : InstS → InstS) : (s.modInstOf i f).time = s.time := rfl
@[simp] theorem modInstOf_pwr (i : Nat) (f : InstS → InstS) : (s.modInstOf i f).pwr = s.pwr := rfl
@[simp] theorem modInstOf_sens (i : Nat) (f : InstS → InstS) : (s.modInstOf i f).sens = s.sens := rfl
@[simp] theorem modInstOf_fw (i : Nat) (f : InstS → InstS) : (s.modInstOf i f).fw = s.fw := rfl
@[simp] theorem modInstOf_mctp (i : Nat) (f : InstS → InstS) : (s.modInstOf i f).mctp = s.mctp := rfl
@[simp] theorem modInstOf_net (i : Nat) (f : InstS → InstS) : (s.modInstOf i f).net = s.net := rfl
@[simp] theorem modInstOf_cmd (i : Nat) (f : InstS → InstS) : (s.modInstOf i f).cmd = s.cmd := rfl
@[simp] theorem modInstOf_buf (i : Nat) (f : InstS → InstS) : (s.modInstOf i f).buf = s.buf := rfl
@[simp] theorem modInstOf_map (i : Nat) (f : InstS → InstS) : (s.modInstOf i f).map = s.map := rfl
@[simp] theorem modInstOf_media (i : Nat) (f : InstS → InstS) : (s.modInstOf i f).media = s.media := rfl
@[simp] theorem modInstOf_hold (i : Nat) (f : InstS → InstS) : (s.modInstOf i f).hold = s.hold := rfl
@[simp] theorem modInstOf_prog (i : Nat) (f : InstS → InstS) : (s.modInstOf i f).prog = s.prog := rfl
@[simp] theorem modInstOf_kw (i : Nat) (f : InstS → InstS) : (s.modInstOf i f).kw = s.kw := rfl
@[simp] theorem modInstOf_mat (i : Nat) (f : InstS → InstS) : (s.modInstOf i f).mat = s.mat := rfl
@[simp] theorem modInstOf_cmp (i : Nat) (f : InstS → InstS) : (s.modInstOf i f).cmp = s.cmp := rfl
@[simp] theorem modInstOf_dig (i : Nat) (f : InstS → InstS) : (s.modInstOf i f).dig = s.dig := rfl
@[simp] theorem modInstOf_sec (i : Nat) (f : InstS → InstS) : (s.modInstOf i f).sec = s.sec := rfl
@[simp] theorem modInstOf_test (i : Nat) (f : InstS → InstS) : (s.modInstOf i f).test = s.test := rfl

@[simp] theorem modCtrl_pending (c : Nat) (f : Ctrl → Ctrl) : (s.modCtrl c f).pending = s.pending := rfl
@[simp] theorem modCtrl_now (c : Nat) (f : Ctrl → Ctrl) : (s.modCtrl c f).now = s.now := rfl
@[simp] theorem modCtrl_free (c : Nat) (f : Ctrl → Ctrl) : (s.modCtrl c f).free = s.free := rfl
@[simp] theorem modCtrl_out (c : Nat) (f : Ctrl → Ctrl) : (s.modCtrl c f).out = s.out := rfl
@[simp] theorem modCtrl_ctl (c : Nat) (f : Ctrl → Ctrl) : (s.modCtrl c f).ctl = s.ctl := rfl
@[simp] theorem modCtrl_mode (c : Nat) (f : Ctrl → Ctrl) : (s.modCtrl c f).mode = s.mode := rfl
@[simp] theorem modCtrl_fence (c : Nat) (f : Ctrl → Ctrl) : (s.modCtrl c f).fence = s.fence := rfl
@[simp] theorem modCtrl_log (c : Nat) (f : Ctrl → Ctrl) : (s.modCtrl c f).log = s.log := rfl
@[simp] theorem modCtrl_time (c : Nat) (f : Ctrl → Ctrl) : (s.modCtrl c f).time = s.time := rfl
@[simp] theorem modCtrl_pwr (c : Nat) (f : Ctrl → Ctrl) : (s.modCtrl c f).pwr = s.pwr := rfl
@[simp] theorem modCtrl_sens (c : Nat) (f : Ctrl → Ctrl) : (s.modCtrl c f).sens = s.sens := rfl
@[simp] theorem modCtrl_fw (c : Nat) (f : Ctrl → Ctrl) : (s.modCtrl c f).fw = s.fw := rfl
@[simp] theorem modCtrl_mctp (c : Nat) (f : Ctrl → Ctrl) : (s.modCtrl c f).mctp = s.mctp := rfl
@[simp] theorem modCtrl_net (c : Nat) (f : Ctrl → Ctrl) : (s.modCtrl c f).net = s.net := rfl
@[simp] theorem modCtrl_inst (c : Nat) (f : Ctrl → Ctrl) : (s.modCtrl c f).inst = s.inst := rfl
@[simp] theorem modCtrl_buf (c : Nat) (f : Ctrl → Ctrl) : (s.modCtrl c f).buf = s.buf := rfl
@[simp] theorem modCtrl_map (c : Nat) (f : Ctrl → Ctrl) : (s.modCtrl c f).map = s.map := rfl
@[simp] theorem modCtrl_media (c : Nat) (f : Ctrl → Ctrl) : (s.modCtrl c f).media = s.media := rfl
@[simp] theorem modCtrl_hold (c : Nat) (f : Ctrl → Ctrl) : (s.modCtrl c f).hold = s.hold := rfl
@[simp] theorem modCtrl_prog (c : Nat) (f : Ctrl → Ctrl) : (s.modCtrl c f).prog = s.prog := rfl
@[simp] theorem modCtrl_kw (c : Nat) (f : Ctrl → Ctrl) : (s.modCtrl c f).kw = s.kw := rfl
@[simp] theorem modCtrl_mat (c : Nat) (f : Ctrl → Ctrl) : (s.modCtrl c f).mat = s.mat := rfl
@[simp] theorem modCtrl_cmp (c : Nat) (f : Ctrl → Ctrl) : (s.modCtrl c f).cmp = s.cmp := rfl
@[simp] theorem modCtrl_dig (c : Nat) (f : Ctrl → Ctrl) : (s.modCtrl c f).dig = s.dig := rfl
@[simp] theorem modCtrl_sec (c : Nat) (f : Ctrl → Ctrl) : (s.modCtrl c f).sec = s.sec := rfl
@[simp] theorem modCtrl_test (c : Nat) (f : Ctrl → Ctrl) : (s.modCtrl c f).test = s.test := rfl

end Sys2Proof.Laws
end

