-- ==== Sys2Proof/Laws/Kwalia.lean ====
section
/-! SUPPORT. What the shared operations of the Kwalia cores do: registers, completion, and the run of one instruction. -/

namespace Sys2Proof.Laws

open Sys2Proof Machine

/-! ## Registers -/

@[simp] theorem rg_zero (r : TaskRun) (i : Fin 32) (h : i.val = 0) : r.rg i = 0 := by simp [TaskRun.rg, h]

theorem rg_setG (r : TaskRun) (d i : Fin 32) (v : Word) :
    (r.setG d v).rg i = if i.val = 0 then 0 else if i = d then v else r.rg i := by
  by_cases hi : i.val = 0
  · simp [hi]
  · by_cases hd : d.val = 0
    · have : i ≠ d := by rintro rfl; exact hi hd
      simp [TaskRun.setG, hd, hi, this]
    · simp only [TaskRun.rg, TaskRun.setG, hi, hd, if_false]
      rw [show (KV.getD (0 : Word) (KV.set 0 r.g d.val v) i.val) = _ from getD_set ..]
      simp [Fin.ext_iff]

theorem pg_setP (r : TaskRun) (d i : Fin 8) (v : BitVec 16) :
    (r.setP d v).pg i = if i.val = 0 then 0xFFFF else if i = d then v else r.pg i := by
  by_cases hi : i.val = 0
  · simp [TaskRun.pg, hi]
  · by_cases hd : d.val = 0
    · have : i ≠ d := by rintro rfl; exact hi hd
      simp [TaskRun.setP, hd, hi, this]
    · simp only [TaskRun.pg, TaskRun.setP, hi, hd, if_false]
      rw [show (KV.getD (0 : BitVec 16) (KV.set 0 r.p d.val v) i.val) = _ from getD_set ..]
      simp [Fin.ext_iff]

theorem lane_setLane (r : TaskRun) (d i : Fin 16) (k l : Nat) (v : Word) (hk : k < 16) (hl : l < 16) :
    (r.setLane d k v).lane i l = if i = d ∧ l = k then v else r.lane i l := by
  simp only [TaskRun.lane, TaskRun.setLane]
  rw [show (KV.getD (0 : Word) (KV.set 0 r.v (16 * d.val + k) v) (16 * i.val + l)) = _ from getD_set ..]
  have : 16 * i.val + l = 16 * d.val + k ↔ i = d ∧ l = k := by rw [Fin.ext_iff]; omega
  simp [this]

/-! ## Completion -/

/-- A run of end tests changes the PC, the counts and the depth of the loops alone. -/
theorem endTest_eq (r : TaskRun) (n : Nat) :
    r.endTest n = { r with pc := (r.endTest n).pc, lc := (r.endTest n).lc, ldepth := (r.endTest n).ldepth } := by
  induction n generalizing r with
  | zero => rfl
  | succ n ih =>
    simp only [TaskRun.endTest]
    split
    · split
      · exact ih _
      · rfl
    · rfl

/-- The end tests read the PC and the loops alone. -/
theorem endTest_congr {r r' : TaskRun} (n : Nat) (hp : r'.pc = r.pc) (hs : r'.ls = r.ls) (he : r'.le = r.le)
    (hc : r'.lc = r.lc) (hd : r'.ldepth = r.ldepth) :
    (r'.endTest n).pc = (r.endTest n).pc ∧ (r'.endTest n).lc = (r.endTest n).lc ∧ (r'.endTest n).ldepth = (r.endTest n).ldepth := by
  induction n generalizing r r' with
  | zero => simp [TaskRun.endTest, hp, hc, hd]
  | succ n ih =>
    simp only [TaskRun.endTest, hp, hs, he, hc, hd]
    split
    · split
      · exact ih rfl rfl rfl rfl rfl
      · simp
    · simp [hc, hd]

/-- The completion of an instruction changes the PC, REP and the loops alone. -/
theorem iterate_eq (r : TaskRun) :
    r.iterate = { r with
      pc := r.iterate.pc, rep := r.iterate.rep, repcnt := r.iterate.repcnt, lc := r.iterate.lc, ldepth := r.iterate.ldepth } := by
  simp only [TaskRun.iterate, TaskRun.advance]
  split
  · split
    · rw [endTest_eq]
    · rfl
  · rw [endTest_eq]

/-- Completion reads the PC, REP and the loops alone. -/
theorem completes_of {r r' : TaskRun} (hp : r'.pc = r.pc) (hr : r'.rep = r.rep) (hn : r'.repcnt = r.repcnt) (hs : r'.ls = r.ls)
    (he : r'.le = r.le) (hc : r'.lc = r.lc) (hd : r'.ldepth = r.ldepth) : Completes r r'.iterate := by
  simp only [Completes, TaskRun.iterate, TaskRun.advance, hr, hn]
  have key : ∀ (a b : TaskRun), a.pc = b.pc → a.ls = b.ls → a.le = b.le → a.lc = b.lc → a.ldepth = b.ldepth → a.rep = b.rep →
      a.repcnt = b.repcnt → (a.endTest 4).pc = (b.endTest 4).pc ∧ (a.endTest 4).rep = (b.endTest 4).rep ∧
      (a.endTest 4).repcnt = (b.endTest 4).repcnt ∧ (a.endTest 4).lc = (b.endTest 4).lc ∧ (a.endTest 4).ldepth = (b.endTest 4).ldepth := by
    intro a b h1 h2 h3 h4 h5 h6 h7
    have h := endTest_congr 4 h1 h2 h3 h4 h5
    have ha := endTest_eq a 4
    have hb := endTest_eq b 4
    refine ⟨h.1, ?_, ?_, h.2.1, h.2.2⟩
    · rw [ha, hb]; exact h6
    · rw [ha, hb]; exact h7
  split
  · split
    · exact key _ _ hp hs he hc hd rfl (by simp)
    · simp [hp, hr, hc, hd]
  · exact key _ _ hp hs he hc hd hr hn

@[simp] theorem iterate_g (r : TaskRun) : r.iterate.g = r.g := by rw [iterate_eq]
@[simp] theorem iterate_p (r : TaskRun) : r.iterate.p = r.p := by rw [iterate_eq]
@[simp] theorem iterate_v (r : TaskRun) : r.iterate.v = r.v := by rw [iterate_eq]
@[simp] theorem iterate_flags (r : TaskRun) : r.iterate.flags = r.flags := by rw [iterate_eq]
@[simp] theorem iterate_scratch (r : TaskRun) : r.iterate.scratch = r.scratch := by rw [iterate_eq]
@[simp] theorem iterate_rg (r : TaskRun) (i : Fin 32) : r.iterate.rg i = r.rg i := by simp [TaskRun.rg]
@[simp] theorem iterate_pg (r : TaskRun) (i : Fin 8) : r.iterate.pg i = r.pg i := by simp [TaskRun.pg]
@[simp] theorem iterate_lane (r : TaskRun) (i : Fin 16) (l : Nat) : r.iterate.lane i l = r.lane i l := by simp [TaskRun.lane]

/-- Completion leaves everything else. -/
theorem keepsRest_iterate {r r' : TaskRun} (h : KeepsRest r r') : KeepsRest r r'.iterate := by
  unfold KeepsRest at *
  rw [iterate_eq]
  exact h

/-! ## One instruction -/

/-- Putting a task on a core changes nothing but that core's task. -/
theorem onlyTask_putRun (s : State) (core : CoreId) (r : TaskRun) : OnlyTask s (s.putRun core.key r) core r := by
  refine ⟨?_, ?_, rfl⟩
  · simp [State.putRun, State.modCore, State.core]
  · intro k hk
    simp [State.putRun, State.modCore, State.core, getD_modify_other _ _ _ hk]

/-- An instruction that is ready, whose guard holds and that REP may repeat runs its body. -/
theorem kStep_runs {s : State} {core : CoreId} {i : Instr} {r : TaskRun} {w : Word} {g : Guard} {vec noRep : Bool}
    {body : State → TaskRun → KOut} (h : Ready s core i r) (he : kwEncode i = some w)
    (hon : (if vec then decide (r.mask g ≠ 0) else r.holds g) = true) (hrep : r.rep = true → noRep = false) :
    s.kStep w core g vec false noRep body = match body s r with
      | .next s r => s.putRun core.key r.iterate
      | .goto s r => s.putRun core.key r
      | .exc code r => s.takeExc core.key r code
      | .wait s r => s.putRun core.key r
      | .fin s => s := by
  obtain ⟨hr, hst, ⟨x, hx, hw⟩, hn⟩ := h
  rw [he] at hw
  simp only [State.kStep, hr, hst, hx, hw, hon]
  have h1 : (r.rep ∧ noRep) ↔ False := by
    constructor
    · rintro ⟨a, b⟩; simp [hrep a] at b
    · exact False.elim
  simp only [Option.isSome_none, Option.getD_some, hw, Option.isNone_some, h1, Bool.not_true, Bool.false_eq_true, or_false, and_false,
    ne_eq, not_true_eq_false, if_false]
  rw [if_neg (by rintro ⟨a, b⟩; exact hn a b)]
  all_goals (cases body s r <;> rfl)

/-- An instruction whose guard fails completes and does nothing else (R327). -/
theorem kStep_skips {s : State} {core : CoreId} {i : Instr} {r : TaskRun} {w : Word} {g : Guard} {vec ill noRep : Bool}
    {body : State → TaskRun → KOut} (h : Ready s core i r) (he : kwEncode i = some w)
    (hon : (if vec then decide (r.mask g ≠ 0) else r.holds g) = false) (hrep : r.rep = true → noRep = false) :
    s.kStep w core g vec ill noRep body = s.putRun core.key r.iterate := by
  obtain ⟨hr, hst, ⟨x, hx, hw⟩, hn⟩ := h
  rw [he] at hw
  simp only [State.kStep, hr, hst, hx, hw, hon]
  have h1 : (r.rep ∧ noRep) ↔ False := by
    constructor
    · rintro ⟨a, b⟩; simp [hrep a] at b
    · exact False.elim
  simp only [Option.isSome_none, Option.getD_some, Bool.false_eq_true, h1, Bool.not_false, false_and,
    ne_eq, not_true_eq_false, if_false, if_true]
  rw [if_neg (by rintro ⟨a, b⟩; exact hn a b)]

end Sys2Proof.Laws
end

