-- ==== Sys2Proof/Laws/Shared.lean ====
section
/-! SUPPORT. What the shared operations can do: events, errors and counters of a page, accesses by a path, completions,
asynchronous events, the log, and the end of a command. -/

namespace Sys2Proof.Laws

open Sys2Proof Machine

variable {s t u : State}

/-! ## Changes of the control space alone -/

theorem onlyCtl_iff : OnlyCtl s t ↔ t = { s with ctl := t.ctl } := by
  constructor
  · intro h; rw [OnlyCtl] at h; rw [← h]
  · intro h; rw [OnlyCtl, h]

theorem onlyCtl_refl (s : State) : OnlyCtl s s := rfl
theorem onlyCtl_trans (h : OnlyCtl s t) (k : OnlyCtl t u) : OnlyCtl s u := by
  rw [onlyCtl_iff] at *; rw [k, h]
theorem onlyCtl_modCtl (s : State) (f : CtlSt → CtlSt) : OnlyCtl s (s.modCtl f) := rfl
theorem onlyCtl_modPage (s : State) (pg : Nat) (f : PageSt → PageSt) : OnlyCtl s (s.modPage pg f) := rfl
theorem onlyCtl_setEv (s : State) (pg bit : Nat) : OnlyCtl s (s.setEv pg bit) := rfl
theorem onlyCtl_setErr (s : State) (pg code info : Nat) : OnlyCtl s (s.setErr pg code info) := rfl
theorem onlyCtl_setLive (s : State) (a v : Nat) : OnlyCtl s (s.setLive a v) := rfl
theorem onlyCtl_setFldAt (s : State) (pg : Nat) (f : Field) (k v : Nat) : OnlyCtl s (s.setFldAt pg f k v) := rfl
theorem onlyCtl_bump (s : State) (pg : Nat) (f : Field) (k : Nat) : OnlyCtl s (s.bump pg f k) := rfl

theorem onlyCtl_closeExpert (s : State) (path : Path) (pg : Nat) : OnlyCtl s (s.closeExpert path pg) := by
  unfold State.closeExpert; split <;> rfl
theorem onlyCtl_expireExpert (s : State) (path : Path) (pg : Nat) : OnlyCtl s (s.expireExpert path pg) := by
  unfold State.expireExpert
  split
  · rfl
  · split
    · rfl
    · exact onlyCtl_trans (onlyCtl_closeExpert ..) (onlyCtl_modPage ..)
/-- What falls due on a page changes the control space alone. -/
theorem onlyCtl_tickPage (s : State) (pg : Nat) : OnlyCtl s (s.tickPage pg) := by
  unfold State.tickPage
  have h : OnlyCtl s (((s.expireExpert .mp pg).expireExpert .manager pg).modPage pg fun p =>
      if p.lockUntil.any (· ≤ ((s.expireExpert .mp pg).expireExpert .manager pg).now) then { p with lockUntil := none } else p) :=
    onlyCtl_trans (onlyCtl_trans (onlyCtl_expireExpert ..) (onlyCtl_expireExpert ..)) (onlyCtl_modPage ..)
  simp only
  split
  · exact onlyCtl_trans h (onlyCtl_modPage ..)
  · exact h

/-- Where a path reaches a word, an access of it is its effect after what has fallen due. -/
theorem viaPath_reached {path : Path} {pg off : Nat} (f : State → State) (h : Reached s path pg off) :
    s.viaPath path pg off f = f (s.tickPage pg) := by
  obtain ⟨h1, h2, h3, h4⟩ := h
  unfold State.viaPath
  by_cases h5 : 0x400 ≤ off
  · simp [h1, h2, h3, h4 h5]
  · simp [h1, h2, h3, h5]

/-- An access changes the control space alone, or is its effect after what has fallen due. -/
theorem viaPath_cases (s : State) (path : Path) (pg off : Nat) (f : State → State) :
    OnlyCtl s (s.viaPath path pg off f) ∨ s.viaPath path pg off f = f (s.tickPage pg) := by
  unfold State.viaPath
  simp only
  split
  · exact .inl (onlyCtl_tickPage ..)
  · split
    · exact .inl (onlyCtl_trans (onlyCtl_tickPage ..) (onlyCtl_setErr ..))
    · exact .inr rfl

/-! ## Register fields after a write of a field -/

theorem live_setLive (s : State) (a b v : Nat) : (s.setLive a v).live b = if b = a then v else s.live b := by
  simp only [State.live, State.setLive, modCtl_ctl, get?_put]
  by_cases h : b = a <;> simp [h]

/-- An edge event sets its bit of its page. -/
theorem page_setEv (s : State) (pg bit : Nat) : (s.setEv pg bit).page pg = { s.page pg with evRaw := (s.page pg).evRaw ||| 2 ^ bit } := by
  simp [State.page, State.setEv, State.modPage]
theorem page_setEv_other (s : State) {pg q : Nat} (bit : Nat) (h : q ≠ pg) : (s.setEv pg bit).page q = s.page q := by
  simp only [State.page, State.setEv, State.modPage, modCtl_ctl]
  exact getD_modify_other _ _ _ h

/-! ## Completions and reports -/

/-- What completions and reports leave as it was. -/
structure Reports (s t : State) : Prop where
  pending : t.pending = s.pending
  now : t.now = s.now
  free : t.free = s.free
  mode : t.mode = s.mode
  fence : t.fence = s.fence
  time : t.time = s.time
  sens : t.sens = s.sens
  fw : t.fw = s.fw
  mctp : t.mctp = s.mctp
  inst : t.inst = s.inst
  buf : t.buf = s.buf
  map : t.map = s.map
  media : t.media = s.media
  hold : t.hold = s.hold
  prog : t.prog = s.prog
  kw : t.kw = s.kw
  mat : t.mat = s.mat
  cmp : t.cmp = s.cmp
  dig : t.dig = s.dig
  sec : t.sec = s.sec
  test : t.test = s.test
  pwr : { t.pwr with lastDone := s.pwr.lastDone } = s.pwr
  net : { t.net with conns := s.net.conns } = s.net
  ctxs : t.cmd.ctxs = s.cmd.ctxs
  nextCtx : t.cmd.nextCtx = s.cmd.nextCtx

theorem Reports.noted (h : Reports s t) : Noted s t := by
  refine ⟨?_, h.pwr, h.net⟩
  have e1 := h.pending; have e2 := h.now; have e3 := h.free; have e4 := h.mode; have e5 := h.fence; have e6 := h.time
  have e7 := h.sens; have e8 := h.fw; have e9 := h.mctp; have e10 := h.inst; have e11 := h.buf; have e12 := h.map
  have e13 := h.media; have e14 := h.hold; have e15 := h.prog; have e16 := h.kw; have e17 := h.mat; have e18 := h.cmp
  have e19 := h.dig; have e20 := h.sec; have e21 := h.test
  cases t; cases s
  simp_all

theorem reports_refl (s : State) : Reports s s := by constructor <;> rfl
theorem reports_trans (h : Reports s t) (k : Reports t u) : Reports s u where
  pending := k.pending.trans h.pending
  now := k.now.trans h.now
  free := k.free.trans h.free
  mode := k.mode.trans h.mode
  fence := k.fence.trans h.fence
  time := k.time.trans h.time
  sens := k.sens.trans h.sens
  fw := k.fw.trans h.fw
  mctp := k.mctp.trans h.mctp
  inst := k.inst.trans h.inst
  buf := k.buf.trans h.buf
  map := k.map.trans h.map
  media := k.media.trans h.media
  hold := k.hold.trans h.hold
  prog := k.prog.trans h.prog
  kw := k.kw.trans h.kw
  mat := k.mat.trans h.mat
  cmp := k.cmp.trans h.cmp
  dig := k.dig.trans h.dig
  sec := k.sec.trans h.sec
  test := k.test.trans h.test
  pwr := by
    have e := congrArg (fun p : PowerSt => { p with lastDone := s.pwr.lastDone }) k.pwr
    simp only [h.pwr] at e
    exact e
  net := by
    have e := congrArg (fun n : NetSt => { n with conns := s.net.conns }) k.net
    simp only [h.net] at e
    exact e
  ctxs := k.ctxs.trans h.ctxs
  nextCtx := k.nextCtx.trans h.nextCtx

theorem reports_onlyCtl (h : OnlyCtl s t) : Reports s t := by
  rw [onlyCtl_iff] at h; rw [h]; constructor <;> rfl
theorem reports_emit (s : State) (o : Out) : Reports s (s.emit o) := by constructor <;> rfl
theorem reports_modCtrl (s : State) (c : Nat) (f : Ctrl → Ctrl) : Reports s (s.modCtrl c f) := by constructor <;> rfl
theorem reports_owe (s : State) (c qid n : Nat) : Reports s (s.owe c qid n) := by
  unfold State.owe; split
  · exact reports_refl s
  · constructor <;> rfl
theorem reports_modLog (s : State) (f : LogSt → LogSt) : Reports s (s.modLog f) := by constructor <;> rfl
theorem reports_lastDone (s : State) (x : Option Nat) : Reports s (s.modPwr fun p => { p with lastDone := x }) := by
  constructor <;> rfl

/-- A completion changes no more than reports may. -/
theorem reports_post (s : State) (c qid : Nat) (cid : BitVec 16) (st : Status) (dw0 dw1 info : Nat) :
    Reports s (s.post c qid cid st dw0 dw1 info) := by
  have h0 : Reports s ((((s.emit (.completion c qid cid st dw0 dw1)).owe c qid 16).bump Pg.CMD Fd.CMD_CNT_COUNT 0).modPwr
      fun p => { p with lastDone := some (((s.emit (.completion c qid cid st dw0 dw1)).owe c qid 16).bump Pg.CMD Fd.CMD_CNT_COUNT 0).now }) :=
    reports_trans (reports_trans (reports_trans (reports_emit ..) (reports_owe ..)) (reports_onlyCtl (onlyCtl_bump ..))) (reports_lastDone ..)
  unfold State.post
  simp only
  split
  · exact h0
  · have h1 := reports_trans h0 (reports_modCtrl _ c fun k =>
      { k with
        errCount := k.errCount + 1
        errors := ((k.errCount + 1, qid, cid.toNat, st.sct * 256 + st.sc, info) :: k.errors).take 16 })
    split
    · exact reports_trans h1 (reports_trans (reports_onlyCtl (onlyCtl_bump ..)) (reports_onlyCtl (onlyCtl_setEv ..)))
    · split
      · exact reports_trans h1 (reports_trans (reports_onlyCtl (onlyCtl_bump ..)) (reports_onlyCtl (onlyCtl_setEv ..)))
      · exact h1

theorem reports_fireAer (s : State) (c lid dw0 : Nat) : Reports s (s.fireAer c lid dw0) := by
  unfold State.fireAer
  split
  · exact reports_refl s
  · split
    · exact reports_refl s
    · exact reports_trans (reports_modCtrl ..) (reports_post ..)

/-- A fold of steps that each report. -/
theorem reports_foldl {α : Type} (f : State → α → State) (h : ∀ s a, Reports s (f s a)) (l : List α) (s : State) : Reports s (l.foldl f s) := by
  induction l generalizing s with
  | nil => exact reports_refl s
  | cons a l ih => exact reports_trans (h s a) (ih _)

theorem reports_deliverAen (s : State) (i : Nat) : Reports s (s.deliverAen i) := by
  unfold State.deliverAen
  simp only
  refine reports_trans (reports_foldl _ (fun s e => ?_) _ s) (reports_foldl _ (fun s c => reports_foldl _ (fun s e => ?_) _ s) _ _)
  · split
    · exact reports_refl s
    · exact reports_trans (by constructor <;> rfl) (reports_fireAer ..)
  · split
    · exact reports_refl s
    · split
      · exact reports_trans (reports_modCtrl ..) (reports_fireAer ..)
      · exact reports_refl s

/-- An asynchronous event of an instance changes no more than reports may. -/
theorem reports_aenInst (s : State) (i lid dw0 : Nat) : Reports s (s.aenInst i lid dw0) :=
  reports_trans (by constructor <;> rfl) (reports_deliverAen ..)

theorem reports_appendLog (s : State) (e : LogEntry) : Reports s (s.appendLog e) := by
  unfold State.appendLog
  simp only
  split
  · exact reports_trans (reports_modLog ..) (reports_trans (reports_onlyCtl (onlyCtl_setEv ..)) (reports_aenInst ..))
  · exact reports_modLog ..

/-- Logging an event changes no more than reports may. -/
theorem reports_logEv (s : State) (pg code : Nat) (sev : Sev) (inst : Nat) (data : List Byte) : Reports s (s.logEv pg code sev inst data) := by
  unfold State.logEv
  simp only
  split
  · exact reports_refl s
  · split
    · exact reports_modLog ..
    · split
      · split
        · exact reports_modLog ..
        · exact reports_refl s
      · exact reports_appendLog ..

/-! ## The log alone -/

theorem log_post (s : State) (c qid : Nat) (cid : BitVec 16) (st : Status) (dw0 dw1 info : Nat) : (s.post c qid cid st dw0 dw1 info).log = s.log := by
  unfold State.post State.owe
  simp only
  repeat' split
  all_goals rfl
theorem log_fireAer (s : State) (c lid dw0 : Nat) : (s.fireAer c lid dw0).log = s.log := by
  unfold State.fireAer
  split
  · rfl
  · split
    · rfl
    · rw [log_post]; rfl
theorem log_foldl {α : Type} (f : State → α → State) (h : ∀ s a, (f s a).log = s.log) (l : List α) (s : State) : (l.foldl f s).log = s.log := by
  induction l generalizing s with
  | nil => rfl
  | cons a l ih => exact (ih _).trans (h s a)
theorem log_aenInst (s : State) (i lid dw0 : Nat) : (s.aenInst i lid dw0).log = s.log := by
  unfold State.aenInst State.deliverAen
  simp only
  rw [log_foldl _ _ _ _, log_foldl _ _ _ _]
  · rfl
  · intro s e
    split
    · rfl
    · rw [log_fireAer]; rfl
  · intro s c
    apply log_foldl
    intro s e
    split
    · rfl
    · split
      · rw [log_fireAer]; rfl
      · rfl

theorem log_appendLog (s : State) (e : LogEntry) :
    (s.appendLog e).log = { s.log with entries := { e with seq := s.log.head + 1 } :: s.log.entries, head := s.log.head + 1 } := by
  unfold State.appendLog
  simp only
  split
  · rw [log_aenInst]; rfl
  · rfl

/-- While the MP runs and nothing is held, an event is in the log at once, as its newest entry. -/
theorem logged_logEv (h : Awake s) (pg code : Nat) (sev : Sev) (inst : Nat) (data : List Byte) : Logged s (s.logEv pg code sev inst data) pg code sev := by
  obtain ⟨h1, h2, h3⟩ := h
  have hl : s.logEv pg code sev inst data = s.appendLog
      { time := s.timeNs, pageId := pageId pg, code := code, sev := sev, ptp := s.time.source = .ptp,
        holdup := s.inHoldup, inst := inst, data := sliceB data 0 40, seq := 0 } := by
    simp [State.logEv, State.inHoldup, h1, h2, h3]
  rw [hl, Logged, log_appendLog]
  exact ⟨_, List.mem_cons_self .., Nat.lt_succ_self _, rfl, rfl, rfl⟩

/-- What was logged before stays logged. -/
theorem logged_mono (h : Logged s t pg code sev) (k : ∀ e, e ∈ t.log.entries → e ∈ u.log.entries) : Logged s u pg code sev := by
  obtain ⟨e, he, r⟩ := h
  exact ⟨e, k e he, r⟩

/-! ## The end of a command -/

theorem ctx?_freeCtx (s : State) (n m : Nat) : (s.freeCtx n).ctx? m = if m = n then none else s.ctx? m := by
  simp [State.ctx?, State.freeCtx, get?_del]
theorem ctx?_of_reports (h : Reports s t) (m : Nat) : t.ctx? m = s.ctx? m := by rw [State.ctx?, h.ctxs]; rfl

/-- A command that ends has no context any more; the others keep theirs. -/
theorem ctx?_finish (s : State) (n : Nat) (st : Status) (dw0 dw1 info : Nat) (m : Nat) :
    (s.finish n st dw0 dw1 info).ctx? m = if m = n then none else s.ctx? m := by
  unfold State.finish
  split
  · rename_i h
    split
    · rename_i e; rw [e]; exact h
    · rfl
  · simp only
    split
    · rw [ctx?_of_reports (reports_onlyCtl (onlyCtl_bump ..)), ctx?_freeCtx]
    · split
      · show ((s.freeCtx n).post _ _ _ _ _ _ _).ctx? m = _
        rw [ctx?_of_reports (reports_post ..), ctx?_freeCtx]
      · rw [ctx?_of_reports (reports_post ..), ctx?_freeCtx]

/-! ## Free values and time -/

@[simp] theorem draw_value (s : State) : s.draw.1 = Config.freeValue s.free := rfl
@[simp] theorem draw_state (s : State) : s.draw.2 = { s with free := s.free + 1 } := rfl

end Sys2Proof.Laws
end

