-- ==== Sys2Proof/Tests/Base.lean ====
section
/-! SUPPORT. Small states that the tests and the witnesses start from. -/

namespace Sys2Proof.Tests

open Sys2Proof Machine

/-- SERVICE, with every domain and the 54 V supply up. -/
def up : State :=
  { State.reset with
    mode := { ModeSt.init with mode := .service, copyAok := true, copyBok := true }
    pwr := { State.reset.pwr with domains := 2 ^ 32 - 1, mainMv := 54000, auxMv := 12000 } }
/-- The same in another mode. -/
def inMode (m : Mode) : State := up.modMode fun x => { x with mode := m }
/-- An address of the control space. -/
def ad (pg off : Nat) : BitVec 26 := BitVec.ofNat 26 (4096 * pg + off)

/-- An NVMe/TCP connection of instance 0, and its controller, ready, with the I/O queue 1. -/
def tcp : Conn :=
  { port := 0, sub := 0, roce := false, ipv6 := false, src := zeros 16, rule := 0, inst := 0, reqTls := false, reqAuth := false, disc := false,
    phase := .established, prio := none, ecn := false, wscale := true, tls := .none, tlsDue := none, keyUpdates := 0, icDone := true, hdgst := false,
    ddgst := false, maxr2t := 1, ctrl := some 1, qid := 0, timeouts := 0, retries := 0, rnr := 0, dupAcks := 0, eceOwed := false, lastCnp := none,
    waiting := 0, tokens := 65536, tokensAt := 0, rate := 40000, target := 40000, alpha := 1, stage := 0, lastCut := none, sent := 0, alphaDue := 0,
    incDue := 0 }
def roce : Conn := { tcp with roce := true }
def q1 : IoQueue := { conn := 1, entries := 64, cls := .medium, clsNext := .medium, waiting := [] }
def ctl1 : Ctrl := { Ctrl.fresh 0 false 1 0 32 0 [] with rdy := true, cc := 1, queues := [(1, q1)] }
def entry0 : List Byte := putB (putB (zeros 32) 0x10 [1, 1]) 0x16 [0x11, 0x44]
def rule0 : List Byte := putB (putB (putB (zeros 32) 2 [1, 1]) 0x18 [0, 0]) 0x1C [1]
/-- SERVICE with one association, of instance 0. -/
def host : State :=
  (up.modCmd fun m => { m with ctrls := [(1, ctl1)], nextCtrl := 2 }).modNet fun n =>
    { n with
      conns := [(1, tcp)], nextConn := 2, subs := [(0, { SubLink.down with up := true })], portUp := [0]
      addrs := [(0, entry0)], rules := [(0, rule0)] }
def hostRoce : State := host.modNet fun n => { n with conns := [(1, roce)] }
/-- A connection attempt that the rule and the address entry of `host` admit, and a frame of connection 1. -/
def att : Attempt := ⟨0, 0, 0, false, false, zeros 16, 0, 4420, false, false⟩
def frm : Frame := ⟨64, 0, 0, zeros 16, false, true, true, false, false, false, false, 1, false, 0⟩
def acap : Cap := ⟨1, 0, 7, false⟩
def iocap : Cap := ⟨1, 1, 7, false⟩
/-- A Write of one sector in a context, and the state in which context 1 holds a command. -/
def rng : NvmRange := ⟨1, 0, 1, ⟨true, false, false, false, 0, 0, 0⟩⟩
def ctx1 (op : Instr) (st : CtxState) : Ctx :=
  { inst := 0, gen := 1, ctrl := 1, epoch := 1, qid := 1, cid := 3, op := op, cost := 16, state := st, urgent := false, at_ := 0, order := 1,
    isWrite := takesData op, expected := 4096, got := [], asked := 0, open_ := [], dataAt := none, xferDue := none, landed := false, resetDue := none,
    pendReads := 0, parts := [], failed := none, waitSlc := [], waitSeg := [], res := 0, aux := 0 }
def holding (x : Ctx) : State := host.modCmd fun m => { m with ctxs := [(1, x)], nextCtx := 2, nextOrder := 2 }
def wr : Instr := .write iocap rng false false none false []

/-- SERVICE, with the expert region of a page open to the MP. -/
def ex (pg : Nat) : State := up.modPage pg fun p => { p with mp := ⟨none, some 1, []⟩ }

/-- A key/value namespace or an LBA namespace of the instance, of 64 grains, as NSX 0, attached. -/
def nsS (kv : Bool) : NsS := ⟨0, 1, 256, 0, 4, 2, 0, false, kv, 1, 2, [0], [], 16, 1, false, false⟩
def withNs (kv : Bool) (s : State) : State :=
  ((s.modMedia fun m => { m with nss := [(0, nsS kv)] }).modCmd fun m => { m with ctrls := [(1, { ctl1 with attached := [1] })] })
def ctlNs : Ctrl := { ctl1 with attached := [1] }
/-- A second connection, without a controller; an erase of instance 0 at a step; an image swap that command 1 waits for. -/
def hostConn : State := host.modNet fun n => { n with conns := [(1, tcp), (2, { tcp with ctrl := none })] }
def erase0 (n : Nat) : Erase := ⟨n, [0], [], 0, false, .nobody⟩
def erasing (n : Nat) : State := (withNs false host).modSec fun m => { m with erases := [(0, erase0 n)] }
def bundle0 : Bundle := ⟨zeros 8, [9, 9, 9, 9, 9], 0, [], []⟩
def swapping : State := (holding (ctx1 wr .admitted)).modCmd fun m => { m with act := .swapping, actCmd := some (some 1, 2) }
/-- A Read and a Compare of one sector of NSID 1, and a state in which they find it. -/
def hostNs : State := withNs false host
def withNsX (s : State) : State := s.modMedia fun m => { m with nss := [(0, nsS false)] }
def rd : Instr := .read iocap rng false false false 4096
def cmpr (n : Nat) : Instr := .compare iocap rng false false (zeros n)
/-- Instance 1 is enabled. -/
def inst1 : State := up.modInstOf 1 fun x => { x with enabled := true }
/-- A version of grain 0 of NSX 0 in the write buffer, and a band, with a frame of it. -/
def v0 : Version :=
  { nsx := 0, grain := 0, inst := 0, home := 0, first := 0, count := 1, whole := false, data := [], prim := 1, mirr := 2, primOk := true, mirrOk := true,
    state := .landed, seq := 1, acked := false, needed := false, superseded := false, waitSlc := false, stream := 0, units := 0, raw := false,
    payload := [], at_ := 0, reruns := 0, ctx := 1, segment := 0 }
def withV (v : Version) (s : State) : State := (withNsX s).modMedia fun m => { m with versions := [(1, v)], nextVersion := 2 }
def f0 : MFrame := ⟨0, 0, 0, 1, 1, false, [], 0, 0, true, some 1, false, 0, none, 0⟩
def b0 : Band :=
  { state := .open_, stream := 0, slc := false, members := (List.range 34).map (· * 131072 + 900), openSeq := 1, openAt := 0, closeSeq := 0, closeH := 0,
    closeOrder := 0, nextRow := 0, programming := false, fill := List.replicate 32 0, frames := [f0], unreadable := [], badPages := [], aliases := [],
    rebuildRow := 0, erased := [], kind1 := false }
def withB (b : Band) (s : State) : State := s.modMedia fun m => { m with bands := [(1, b)], nextBand := 2 }
/-- A read of command 1, in the state that holds it. -/
def rd0 : MRead := ⟨.ctx 1 0, 0, 0, 1, 0, 0, 1, false, []⟩
def reading (r : MRead) : State := (withB { b0 with state := .closed } (holding { ctx1 rd .issued with pendReads := 1 })).modMedia fun m => { m with reads := [(1, r)] }
/-- A closed SLC band with a block to retire; a band whose blocks are erasable; a namespace with a segment on media that the MP hints at. -/
def folded : Band := { b0 with state := .closed, slc := true, frames := [] }
def retiring (b : Band) : State := (withB b up).modMedia fun m => { m with blocks := [(900, { blockDefault 900 with state := .retirePending })] }
def erasable : State :=
  (withB { b0 with state := .erasable } up).modMedia fun m =>
    { m with blocks := (List.range 34).map fun k => (k * 131072 + 900, { blockDefault 900 with state := .erasable }) }
def dirtyWay : Way := { Way.empty with valid := true, dirty := true }
def ckpt0 : Ckpt := ⟨1, 0, 0, [], 0⟩
def hinting : State :=
  ((withNsX (ex Pg.MAPC)).modMap fun m => { m with dir := [(0, ⟨1, [], 1, true⟩)] }).setFld Pg.MAPC Fd.MAPC_HINT_HI_WORD (2 ^ 28)
/-- An invocation of instance 0, in flow 0 of command 1, over the 64 grains of NSID 1; its nodes; a token of sequence 1. -/
def desc : ExecDesc := ⟨1, false, false, false, 0, true, 0, 256, 0, 1, 0, 0, 0, 0xFFFF, 0xFFFF, 0, []⟩
def xop : Instr := .executeProgram iocap 0 desc 4096
def xctx : Ctx := ctx1 xop .issued
def flow0 : Flow :=
  { ctx := 1, inst := 0, gen := 1, prog := 0, d := desc, nsx := 0, sectors := 4, grain0 := 0, count := 64, waitUs := 0, opened := 0, base := 0,
    placed := 0, window := [], sent := [], walked := [0, 0, 0, 0], known := [0, 0, 0, 0], since := 0, errors := 0, firstErr := 0, errUsed := 0,
    outUsed := 0, seg := [], segAt := none, segWait := [], endWith := none }
/-- The same with 64 bytes of PARAMS. -/
def pflow : Flow := { flow0 with d := { desc with params := zeros 64 } }
def node (kind inputs outputs entry : Nat) : Node := ⟨kind, false, inputs, 0, entry, 1000, 64, outputs, [portRelease, 4, 8, 12]⟩
def prog0 (l : List Node) : Prog := ⟨⟨0, [], 0, l, [], [], []⟩, true, false⟩
def flowing (l : List Node) (f : Flow) : State :=
  { withNs false (holding xctx) with
    prog := { (withNs false (holding xctx)).prog with progs := [(0, prog0 l)], flows := [(0, f)] } }
def tok (port kind : Nat) : Token := ⟨0, 1, port, kind, false, false, 0, 0, 0xFF, 1, 0, 5, 0⟩
def flying (t : Token) (s : State) : State := s.modProg fun p => { p with flight := [t] }
def rdTok : Token := { tok 0 1 with value := BitVec.ofNat 64 (entBuffer true 0 1 1 0 1), aux := 1 }
def alloc (q i e n : Nat) (s : State) : Nat × State := (s.bufAlloc q i e n).getD (0, up)
/-- The matching store of a quadrant is full. -/
def tombs (n : Nat) : KV Nat := (List.range n).map fun k => (2 ^ 60 + k, 0)
def fullStore (n : Nat) : State := (flying (tok 0 2) (flowing [node 0 2 1 0] flow0)).modDisp 0 fun d => { d with tombs := tombs n }
/-- A task of node 0, on core 0 of quadrant 0. -/
def task0 : Task := ⟨0, 1, 0, 0, 0, 0, 0, 0⟩
def code (l : List Word) : List Byte := l.flatMap fun w => leBytes 4 w.toNat
def run0 (w : Word) : TaskRun :=
  TaskRun.start task0 flow0 (node 0 1 1 0) { (prog0 [node 0 1 1 0]).image with code := code [w, 0, 0, 0] } [none, none, none, none] false 0
def onCore (r : TaskRun) : State := (flowing [node 0 1 1 0] flow0).modCore 0 fun x => { x with run := some r }
def kid : CoreId := ⟨.spr, 0⟩
/-- A buffer of pool 0, class 0. -/
def buf0 (refs : Nat) : Buf := ⟨refs, 0, 0, false, false, false, [], 256⟩
def withBuf (b : Buf) : State := up.modBuf fun m => { m with bufs := [(bufKey 0 0 0 0, b)] }
def hd : BitVec 41 := BitVec.ofNat 41 (bufKey 0 0 0 0 * 4096)
def reads : State :=
  (flying rdTok (flowing [node 0 1 1 0] { flow0 with sent := [(1, rdTok)] })).modMedia fun m => { m with versions := [(1, { v0 with grain := 1 })] }
/-- An engine task of node 0 on unit 0 of quadrant 0, with its input token. -/
def item (kind : Nat) : EngItem := ⟨kind, task0, some 0, false, 0⟩
def tref : TaskRef := ⟨.spr, 0, 1, 0, 0⟩
def engining (kind entry : Nat) (k : Token) : State :=
  (flowing [node kind 1 1 entry] flow0).modDisp 0 fun d => { d with engine := [item kind], entries := [(tokenKey 0 1 0, ⟨k, true, 0⟩)] }
def sect : Section := ⟨zeros 64, 1, false⟩
def matching : State := (engining 1 0 (tok 0 2)).modMatQ 0 fun m => { m with sections := [(0, sect)] }
/-- A TRL stream of one byte, in a buffer that a token names. -/
def trl1 : List Byte := [0xC7, 0x52, 0x4C, 1, 0, 0, 0, 0, 1, 0, 0, 0, 0, 0, 0, 0, 1, 0, 0, 0, 1, 0, 0, 1, 5] ++ leBytes 4 (crc32c [5])
def trlTok : Token := { tok 0 2 with buf := true, value := BitVec.ofNat 64 (bufKey 0 0 0 0 * 4096), aux := 29 }
def inflating : State := (engining 2 4 trlTok).modBuf fun m => { m with bufs := [(bufKey 0 0 0 0, { buf0 1 with data := trl1 })] }
/-- A digest context, of a direct session or of the task item above. -/
def dctx (direct : Bool) : DigCtx := ⟨0, direct, 0, false, [], zeros 32, 0, 1, 0, 0⟩
def digesting (entry : Nat) : State := (engining 4 entry (tok 0 2)).modDigQ 0 fun d => { d with ctxs := [(3, dctx false)], onUnit := [(0, 3)] }
def dsess (r : Option DigReq) : State :=
  (ex (Pg.DIG 0)).modDigQ 0 fun d => { d with ctxs := [(0, dctx true)], session := some 0, onUnit := [(0, 0)], req := r }
def dreq (cmd : Nat) (due : Option Nat) : DigReq := ⟨cmd, zeros 256, 0, 0, 0, due⟩
/-- Key/value commands of NSID 1 at their slot. -/
def kvKey1 : List Byte := [1, 2, 3]
def kvOp (op : Instr) : State :=
  { withNs true (holding (ctx1 op .issued)) with
    mat := { quads := (List.range 4).map fun q => (q, { MatS.init with searches := [1], updates := [1] }), kv := [], alloc := [], zap := [] } }
def kvB : Nat := (nsS true).bucketOf 0 kvKey1
def kvS : KvSlot := ⟨kvKey1, (nsS true).keyHash 0 kvKey1 % 2 ^ 16, 0, 1⟩
/-- SEC's staged words for a key operation on slot 16, and a wrapping key in slot 17. -/
def keying : State :=
  ((((ex Pg.SEC).setFld Pg.SEC Fd.SEC_KEY_SEL_SLOT 16).setFld Pg.SEC Fd.SEC_KEY_ATTR_TYPE 1).setFld Pg.SEC Fd.SEC_KEY_ATTR_LEN 16).modSec fun m =>
    { m with keys := [(17, ⟨2, true, 2, 0, 4, 32, zeros 32, zeros 32⟩)] }
def keyed : State := keying.modSec fun m => { m with keys := [(16, ⟨1, true, 2, 0, 2, 32, zeros 32, zeros 32⟩)] }
/-- The output of a DEFLATE task. -/
def dfl : State := engining 3 0 (tok 0 2)
def dflOut : List Byte :=
  compressed ((node 3 1 1 0).entry % 16) (bitsOf (node 3 1 1 0).entry 7 4)
    (bitsOf (node 3 1 1 0).entry 10 8 + 8 * (if 0 < (dfl.tokenData (tok 0 2)).length then 0 else 0)) (dfl.tokenData (tok 0 2))
/-- A task whose word at its PC is an instruction, and operands whose guard is P0. -/
def runI (i : Instr) : TaskRun := run0 ((kwEncode i).getD 0)
def g0 : Guard := ⟨false, 0⟩
def rx (d b : Fin 32) : RArgs := ⟨kid, g0, d, 2, b⟩
def ix (d : Fin 32) : IArgs := ⟨kid, g0, d, 2, 5⟩
def ux : UArgs := ⟨kid, g0, 1, 5⟩
def mx : MArgs := ⟨kid, g0, 1, 2, false, 0⟩
def bx : BArgs := ⟨kid, g0, 5⟩
def cx : CArgs := ⟨kid, g0⟩
def px (b : Fin 8) : PArgs := ⟨kid, g0, 1, 2, b⟩
def vx (b : Fin 16) : VArgs := ⟨kid, g0, 1, 2, b⟩
/-- G2 holds a word. -/
def TaskRun.g2 (r : TaskRun) (w : Word) : TaskRun := { r with g := [(2, w)] }
/-- With an output slot 0, that G2 names; with a buffer as input 0, that G2 names. -/
def slotted (r : TaskRun) : TaskRun := { r with slots := [(0, ⟨0, 256, 0, true⟩)] }
def inTok : Token := { tok 0 2 with buf := true, aux := 64 }
def inputted (r : TaskRun) : TaskRun := { r with g := [(2, 8)], inputs := [some inTok, none, none, none], inLive := [true, false, false, false] }
/-- With read-only data, whose first lines G2 names. -/
def hinted (r : TaskRun) : TaskRun := { r with g := [(2, 0x10000000), (3, 1)], rodata := zeros 64 }

def run1 : StageRun := ⟨0, .primary, false, false, 1, 0, 1⟩
def rec1 : LedgerRec := ⟨1, 0, 0, 0, 0, List.replicate 14 0, List.replicate 14 0, 0, 0⟩
def endOk : MethodEnd := ⟨true, 0, 0, false, []⟩
def endBad : MethodEnd := ⟨false, 0x101, 0, false, []⟩
def flush0 : FlushRun := ⟨1, 0, 0, 0, 0, 0, 0, 0, 0, 0, true⟩

/-- HOLD-UP, at a step of the flush. -/
def flushing (n : Nat) : State := (inMode .holdup).modHold fun h => { h with flush := some { flush0 with step := n } }
/-- PTP is enabled, and address 0 takes its messages. -/
def ptpUp : State := (up.setFld Pg.DEV Fd.DEV_PTP_ENABLE 1).modNet fun n => { n with addrs := [(0, putB (zeros 32) 0x10 [9])] }

/-- The clauses over connections of `AuthMet`, `AdminOk` and `Current`, as what `decide` can judge. -/
theorem authMet_of {s : State} {k : Ctrl} (h : (KV.get? s.net.conns k.conn).all (fun n => ! n.reqAuth || k.authed) = true) : AuthMet s k := by
  intro n e r; rw [e] at h; simpa [r] using h
theorem adminOk_of {s : State} {cap : Cap} {k : Ctrl}
    (h : (s.ctrl? cap.ctrl = some k ∧ cap.qid = 0 ∧ k.disc = false ∧ k.rdy = true ∧ k.resetting = false ∧ k.closing = false ∧ k.adminWait = []
      ∧ s.cmd.drainStopped = false ∧ (s.instOf k.inst).resetting = false ∧ s.cmd.act = .idle
      ∧ k.aers.length + (s.cmd.ctxs.filter fun e => e.2.inst = k.inst && e.2.qid = 0).length < 32
      ∧ cap.cid ∉ k.aers ∧ ∀ e ∈ s.cmd.ctxs, e.2.ctrl = cap.ctrl → e.2.qid = 0 → e.2.cid ≠ cap.cid)
      ∧ (KV.get? s.net.conns k.conn).all (fun n => ! n.reqAuth || k.authed) = true) : AdminOk s cap k := by
  obtain ⟨⟨a, b, c, d, e, f, g, i, j, l, m, n, o⟩, p⟩ := h
  exact ⟨a, b, c, d, e, f, g, i, j, l, m, n, o, authMet_of p⟩
theorem ok_of {α : Type} [DecidableEq α] {e : Except Status α} {l : α} (h : (match e with | .ok x => decide (x = l) | .error _ => false) = true) : e = .ok l := by
  cases e with
  | error x => cases h
  | ok x => rw [of_decide_eq_true h]
theorem err_of {α : Type} {e : Except Status α} {st : Status} (h : (match e with | .ok _ => false | .error x => decide (x = st)) = true) : e = .error st := by
  cases e with
  | error x => rw [of_decide_eq_true h]
  | ok x => cases h
theorem storeForm_plain (d : List Byte) : (nsS false).storeForm rng.pi 1 d = .ok (sliceB (sliceB d 0 4096) 0 4096) := by
  simp [NsS.storeForm, pieces, nsS, rng, NsS.withPi, NsS.piSize, NsS.hostSector, NsS.strips, NsS.sector, lbafMeta, List.range_succ]
/-- The part of `Calm` over the caches. -/
theorem cacheCalm_of {s : State} (h : ∀ e ∈ s.map.caches, e.2.wbs = []) (q : Nat) : (s.cache q).wbs = [] := by
  have g : ∀ l : KV CacheS, (∀ e ∈ l, e.2.wbs = []) → (KV.getD CacheS.init l q).wbs = [] := by
    intro l
    induction l with
    | nil => intro _; rfl
    | cons a m ih =>
      intro h
      obtain ⟨k, v⟩ := a
      simp only [KV.getD, KV.get?]
      split
      · exact h (k, v) (by simp)
      · exact ih fun e m => h e (by simp [m])
  exact g _ h
theorem calm_of {s : State} (h : (∀ e ∈ s.map.caches, e.2.wbs = []) ∧ s.media.versions = [] ∧ (∀ e ∈ s.media.bands, e.2.state ≠ .folding)
    ∧ s.cmd.ctxs = [] ∧ s.mat.zap = [] ∧ s.prog.flows = []) : Calm s := ⟨cacheCalm_of h.1, h.2⟩
theorem bandLanes_up : (up.bandLanes up.media.nextBand 0 false).length = 34 := by
  simp only [State.bandLanes, List.length_mergeSort, List.length_map, List.length_take]
  decide +kernel
theorem alloc_of {q i e n : Nat} {s : State} (h : (s.bufAlloc q i e n).isSome = true) :
    s.bufAlloc q i e n = some ((alloc q i e n s).1, (alloc q i e n s).2) := by
  unfold alloc
  cases g : s.bufAlloc q i e n with
  | none => simp [g] at h
  | some x => rfl
theorem get_none {α : Type} (a : Nat) : ∀ l : KV α, (∀ e ∈ l, e.1 ≠ a) → KV.get? l a = none := by
  intro l
  induction l with
  | nil => intro _; rfl
  | cons x m ih =>
    intro h
    obtain ⟨k, v⟩ := x
    have h1 : a ≠ k := fun e => h (k, v) (by simp) e.symm
    simp only [KV.get?, h1, if_false]
    exact ih fun e m => h e (by simp [m])
theorem fullStore_tombs (n k : Nat) (h : k < 2 ^ 60) : KV.get? (tombs n) k = none := by
  apply get_none
  intro e m
  simp only [tombs, List.mem_map] at m
  obtain ⟨j, _, rfl⟩ := m
  show 2 ^ 60 + j ≠ k
  omega
theorem fullStore_grant (n : Nat) (h : 65536 ≤ n) : ((fullStore n).grantEntry 0 (tok 0 2)).1 = false := by
  have hd : (fullStore n).disp 0 = { DispS.init with tombs := tombs n } := rfl
  have hu : ((fullStore n).disp 0).used = n := by
    rw [hd]; unfold DispS.used tombs
    rw [List.length_map, List.length_range]; exact Nat.zero_add n
  unfold State.grantEntry
  simp only [hu, Bool.or_eq_false_iff, Bool.and_eq_false_iff, decide_eq_false_iff_not]
  omega
/-- No stored input of a node has fired: a bounded check. -/
theorem entries_unfired {l : KV Entry} {n : Nat} {f : Nat → Nat} (h : ∀ e ∈ l, e.2.fired = false) :
    ∀ k e, k < n → KV.get? l (f k) = some e → e.fired = false := by
  intro k e _ g
  induction l with
  | nil => simp [KV.get?] at g
  | cons x m ih =>
    obtain ⟨a, v⟩ := x
    simp only [KV.get?] at g
    split at g
    · cases g; exact h (a, e) (by simp)
    · exact ih (fun e m => h e (by simp [m])) g
theorem fullStore_storable (n : Nat) : Storable (fullStore n) 0 flow0 (tok 0 2) := by
  have hd : (fullStore n).disp 0 = { DispS.init with tombs := tombs n } := rfl
  refine ⟨rfl, rfl, ?_, by decide, ?_⟩
  · rw [hd]; rfl
  · rw [hd]; exact fullStore_tombs n _ (by decide)
theorem compressed_le (f l x : Nat) (d : List Byte) : (compressed f l x d).length ≤ cmpBound d.length (x / 8) := by
  unfold compressed; exact List.length_take_le _ _
theorem dflOut_le : dflOut.length ≤ 2 ^ 20 := by
  unfold dflOut; exact Nat.le_trans (compressed_le _ _ _ _) (by decide +kernel)
theorem ready_of {s : State} {core : CoreId} {i : Instr} {r : TaskRun}
    (h : (s.core core.key).run = some r ∧ r.stallAt = none ∧ r.fetch.any (fun w => kwCanon w == kwEncode i) = true ∧ (r.rep = true → r.repcnt ≠ 0)) :
    Ready s core i r := by
  obtain ⟨a, b, c, d⟩ := h
  cases e : r.fetch with
  | none => simp [e] at c
  | some w => simp only [e, Option.any_some, beq_iff_eq] at c; exact ⟨a, b, ⟨w, e, c⟩, d⟩
theorem reset_tasks : KwTasksWellFormed { State.reset with pending := [.kUnassigned kid 0] } := by
  intro c r h; cases h
theorem opt_of {α : Type} {o : Option α} (d : α) (h : o.isSome = true) : o = some (o.getD d) := by
  cases o with
  | none => cases h
  | some x => rfl
theorem current_of {s : State} {x : Ctx}
    (h : x.gen = s.gen x.inst ∧ (s.ctrl? x.ctrl).any (fun k => k.epoch == x.epoch && (x.qid == 0 || (KV.get? k.queues x.qid).isSome)) = true) : Current s x := by
  obtain ⟨g, h⟩ := h
  cases e : s.ctrl? x.ctrl with
  | none => simp [e] at h
  | some k =>
    simp only [e, Option.any_some, Bool.and_eq_true, beq_iff_eq, Bool.or_eq_true] at h
    exact ⟨g, k, e, h.1, fun q => h.2.resolve_left q⟩

end Sys2Proof.Tests
end

