-- ==== Sys2Proof/Tests/Slice0.lean ====
section
/-! SUPPORT. The model's own tests: the reset values that the spec gives, the instruction words of R344's worked example and of the encoding
tables, single steps of that example, and one ill-formed term for each check of WellFormed. Expected values are the spec's. -/

namespace Sys2Proof.Tests

open Sys2Proof Machine

/-! ## Reset -/

theorem test_reset_off : State.reset.mode.mode = .off := rfl
theorem test_reset_queue : State.reset.pending = [] := rfl
theorem test_reset_memory : Mem.wf State.reset.prog.slm = true ∧ Mem.wf State.reset.fw.staging = true := by decide
theorem test_idle_step : step State.reset = .next { State.reset with now := 1000 } := rfl

/-! ## Instruction words: R344's example, then one word of each format and operation group of R333 to R340, written out bit by bit -/

theorem test_word_movi : kwEncode (.kMovi ⟨kid, g0, 3, 4⟩) = some 0x02860004 ∧ kwCanon 0x02860004 = some 0x02860004 := by decide
theorem test_word_rep : kwEncode (.kRep cx (.reg 3)) = some 0x09E30000 ∧ kwCanon 0x09E30000 = some 0x09E30000 := by decide
theorem test_word_addi : kwEncode (.kAddi ⟨kid, g0, 3, 3, 1⟩) = some 0x00463001 ∧ kwCanon 0x00463001 = some 0x00463001 := by decide
theorem test_word_movh : kwEncode (.kMovh ⟨kid, g0, 5, 0x8000⟩) = some 0x02CA8000 ∧ kwCanon 0x02CA8000 = some 0x02CA8000 := by decide
theorem test_word_movi_negative : kwEncode (.kMovi ⟨kid, g0, 6, 0x1FFFF⟩) = some 0x028DFFFF ∧ kwCanon 0x028DFFFF = some 0x028DFFFF := by decide
theorem test_word_divs : kwEncode (.kDivs ⟨kid, g0, 7, 5, 6⟩) = some 0x000E5314 ∧ kwCanon 0x000E5314 = some 0x000E5314 := by decide
theorem test_word_divu : kwEncode (.kDivu ⟨kid, g0, 8, 5, 0⟩) = some 0x00105015 ∧ kwCanon 0x00105015 = some 0x00105015 := by decide
theorem test_word_stw : kwEncode (.kStw ⟨kid, g0, 7, 0, false, 0⟩) = some 0x054E0000 ∧ kwCanon 0x054E0000 = some 0x054E0000 := by decide
theorem test_word_stw_offset : kwEncode (.kStw ⟨kid, g0, 8, 0, false, 4⟩) = some 0x05500004 ∧ kwCanon 0x05500004 = some 0x05500004 := by decide
theorem test_word_sendv : kwEncode (.kSendv cx 0 0) = some 0x0FC00000 ∧ kwCanon 0x0FC00000 = some 0x0FC00000 := by decide
theorem test_word_end : kwEncode (.kEnd cx) = some 0x0A000000 ∧ kwCanon 0x0A000000 = some 0x0A000000 := by decide
theorem test_word_bswap_guarded : kwEncode (.kBswap ⟨kid, ⟨true, 3⟩, 31, 30, 0⟩) = some 0xB03FE01C ∧ kwCanon 0xB03FE01C = some 0xB03FE01C := by decide
theorem test_word_cmp : kwEncode (.kCmp ⟨kid, g0, 0, 1, 2⟩) = some 0x0000111D ∧ kwCanon 0x0000111D = some 0x0000111D := by decide
theorem test_word_rol : kwEncode (.kRol ⟨kid, g0, 1, 2, 3⟩) = some 0x0002218C ∧ kwCanon 0x0002218C = some 0x0002218C := by decide
theorem test_word_mulhu : kwEncode (.kMulhu ⟨kid, g0, 1, 2, 3⟩) = some 0x00022193 ∧ kwCanon 0x00022193 = some 0x00022193 := by decide
theorem test_word_cmpi : kwEncode (.kCmpi ⟨kid, g0, 0, 4, 0xFFF⟩) = some 0x02404FFF ∧ kwCanon 0x02404FFF = some 0x02404FFF := by decide
theorem test_word_sari : kwEncode (.kSari ⟨kid, g0, 4, 5, 31⟩) = some 0x01C8501F ∧ kwCanon 0x01C8501F = some 0x01C8501F := by decide
theorem test_word_xori : kwEncode (.kXori ⟨kid, g0, 4, 5, 0x800⟩) = some 0x01085800 ∧ kwCanon 0x01085800 = some 0x01085800 := by decide
theorem test_word_ldhu_post : kwEncode (.kLdhu ⟨kid, g0, 4, 5, true, 0x7FE⟩) = some 0x04885FFE ∧ kwCanon 0x04885FFE = some 0x04885FFE := by decide
theorem test_word_vst : kwEncode (.kVst ⟨kid, ⟨false, 2⟩, 15, 9, false, 64⟩) = some 0x265E9040 ∧ kwCanon 0x265E9040 = some 0x265E9040 := by decide
theorem test_word_br_back : kwEncode (.kBr ⟨kid, g0, 0x3FFFFF⟩) = some 0x083FFFFF ∧ kwCanon 0x083FFFFF = some 0x083FFFFF := by decide
theorem test_word_callr : kwEncode (.kCallr cx 7) = some 0x08C07000 ∧ kwCanon 0x08C07000 = some 0x08C07000 := by decide
theorem test_word_loop : kwEncode (.kLoop cx 6 0xFFF) = some 0x09406FFF ∧ kwCanon 0x09406FFF = some 0x09406FFF := by decide
theorem test_word_loopi : kwEncode (.kLoopi cx 1023 1) = some 0x09BFF001 ∧ kwCanon 0x09BFF001 = some 0x09BFF001 := by decide
theorem test_word_rep_imm : kwEncode (.kRep cx (.imm 0xFFFF)) = some 0x09C0FFFF ∧ kwCanon 0x09C0FFFF = some 0x09C0FFFF := by decide
theorem test_word_nop : kwEncode (.kNop cx) = some 0x0A400000 ∧ kwCanon 0x0A400000 = some 0x0A400000 := by decide
theorem test_word_mfsr : kwEncode (.kMfsr cx 8 16) = some 0x0A900010 ∧ kwCanon 0x0A900010 = some 0x0A900010 := by decide
theorem test_word_mtsr : kwEncode (.kMtsr cx 8 1) = some 0x0AC08001 ∧ kwCanon 0x0AC08001 = some 0x0AC08001 := by decide
theorem test_word_pcmp : kwEncode (.kPcmp cx 7 1 2 9) = some 0x0C0E1109 ∧ kwCanon 0x0C0E1109 = some 0x0C0E1109 := by decide
theorem test_word_plog_andn : kwEncode (.kPlogAndn ⟨kid, g0, 1, 2, 3⟩) = some 0x0C822183 ∧ kwCanon 0x0C822183 = some 0x0C822183 := by decide
theorem test_word_pset : kwEncode (.kPset cx 6 0xA5A5) = some 0x0CCCA5A5 ∧ kwCanon 0x0CCCA5A5 = some 0x0CCCA5A5 := by decide
theorem test_word_pcnt : kwEncode (.kPcnt cx 9 5) = some 0x0D925000 ∧ kwCanon 0x0D925000 = some 0x0D925000 := by decide
theorem test_word_vmaxu : kwEncode (.kVmaxu ⟨kid, ⟨false, 1⟩, 1, 2, 15⟩) = some 0x1E02278C ∧ kwCanon 0x1E02278C = some 0x1E02278C := by decide
theorem test_word_vcmp : kwEncode (.kVcmp cx 2 3 4 6) = some 0x0E443206 ∧ kwCanon 0x0E443206 = some 0x0E443206 := by decide
theorem test_word_vext : kwEncode (.kVext cx 3 4 15) = some 0x0EC6400F ∧ kwCanon 0x0EC6400F = some 0x0EC6400F := by decide
theorem test_word_vsum : kwEncode (.kVsum cx 3 4) = some 0x0F464000 ∧ kwCanon 0x0F464000 = some 0x0F464000 := by decide
theorem test_word_sendb : kwEncode (.kSendb cx 3 1 2) = some 0x0FC61101 ∧ kwCanon 0x0FC61101 = some 0x0FC61101 := by decide
theorem test_word_balloc : kwEncode (.kBalloc cx 1 2) = some 0x0FC22004 ∧ kwCanon 0x0FC22004 = some 0x0FC22004 := by decide
theorem test_word_l2wb : kwEncode (.kL2wb cx 1 2) = some 0x0FC01108 ∧ kwCanon 0x0FC01108 = some 0x0FC01108 := by decide

/-! Words that R333 and the rows refuse. -/

/-- An opcode without a row. -/
theorem test_illegal_opcode : kwCanon 0x0BC00000 = none := by decide
/-- An FN without a row. -/
theorem test_illegal_fn : kwCanon 0x0002219E = none := by decide
/-- A vector register with bit 4 set. -/
theorem test_illegal_vector_bit4 : kwCanon 0x0E200000 = none := by decide
/-- A predicate field with bit 3 set. -/
theorem test_illegal_predicate_field : kwCanon 0x0C500000 = none := by decide
/-- A field that the row marks as zero. -/
theorem test_illegal_zero_field : kwCanon 0x0A020000 = none := by decide
/-- Condition code 10 of PCMP. -/
theorem test_illegal_condition : kwCanon 0x0C02000A = none := by decide
/-- IMM12[5] of SHLI. -/
theorem test_illegal_shift : kwCanon 0x01421020 = none := by decide
/-- REP with COUNT 0. -/
theorem test_illegal_rep_zero : kwCanon 0x09C00000 = none := by decide
/-- LOOP with OFF12 0. -/
theorem test_illegal_off_zero : kwCanon 0x09406000 = none := by decide
/-- An arc above 3. -/
theorem test_illegal_arc : kwCanon 0x0FC80002 = none := by decide

/-! ## Steps of R344's example, each from a small state -/

/-- The task of core 0 after one command. -/
def after (i : Instr) (s : State) : Option TaskRun := match exec i s with | .next t => (t.core 0).run | _ => none
def divs : Instr := .kDivs ⟨kid, g0, 7, 5, 6⟩
theorem test_divs_edge : (after divs (onCore { run0 0x000E5314 with g := [(5, 0x80000000), (6, 0xFFFFFFFF)] })).map (fun r => (r.rg 7, r.flags, r.pc))
    = some (0x80000000, ⟨true, false, false, true, false⟩, 4) := by decide +kernel
theorem test_divu_zero : (after (.kDivu ⟨kid, g0, 8, 5, 0⟩) (onCore { run0 0x00105015 with g := [(5, 0x80000000)] })).map (fun r => (r.rg 8, r.flags))
    = some (0xFFFFFFFF, ⟨true, false, false, false, true⟩) := by decide +kernel
theorem test_rep_latches : (after (.kRep cx (.reg 3)) (onCore { run0 0x09E30000 with g := [(3, 4)] })).map (fun r => (r.repcnt, r.rep, r.pc)) = some (4, true, 4) := by
  decide +kernel
theorem test_addi_last_iteration :
    (after (.kAddi ⟨kid, g0, 3, 3, 1⟩) (onCore { run0 0x00463001 with g := [(3, 7)], rep := true, repcnt := 1 })).map (fun r => (r.rg 3, r.repcnt, r.rep, r.pc))
      = some (8, 0, false, 4) := by decide +kernel
theorem test_movh : (after (.kMovh ⟨kid, g0, 5, 0x8000⟩) (onCore (run0 0x02CA8000))).map (·.rg 5) = some 0x80000000 := by decide +kernel
theorem test_stw_bytes : (after (.kStw ⟨kid, g0, 7, 0, false, 0⟩) (onCore { run0 0x054E0000 with g := [(7, 0x80000000)] })).map (·.scratch.readBytes 0 4)
    = some [0, 0, 0, 0x80] := by decide +kernel
theorem test_sendv_token :
    (after (.kSendv cx 0 0) (onCore { run0 0x0FC00000 with scratch := Mem.writeBytes [] 0 [0, 0, 0, 0x80, 0xFF, 0xFF, 0xFF, 0xFF] })).map
      (fun r => (KV.get? r.sends 0).map fun t => (t.value, t.aux)) = some (some (0xFFFFFFFF80000000, 0)) := by decide +kernel
/-- R342: with CTL.DZE = 1 a zero divisor ends the task with DIV_ZERO. -/
theorem test_div_zero_trap :
    (match exec divs (onCore { run0 0x000E5314 with dze := true }) with | .next t => ((t.core 0).run, (t.core 0).excCode) | _ => (none, 0)) = (none, 5) := by
  decide +kernel
/-- R336: the loaded value wins over the increment of the same register. -/
theorem test_load_post_same :
    (after (.kLdw ⟨kid, g0, 2, 2, true, 4⟩) (onCore { run0 (encM ⟨kid, g0, 2, 2, true, 4⟩ 0x10) with scratch := [(0, 9)] })).map (·.rg 2) = some 9 := by decide +kernel

/-! ## Well-formedness refuses: one term for each check -/

theorem test_ill_address_unaligned : Instr.wf (.registerWrite .mp 2 0) = false := by decide
theorem test_ill_write_length : Instr.wf (.controlWrite acap 0 2 [0] false) = false := by decide
theorem test_ill_queue_id : Instr.wf (.keepAlive ⟨1, 65536, 0, false⟩) = false := by decide
theorem test_ill_nlb_zero : Instr.wf (.verify iocap { rng with nlb := 0 } false) = false := by decide
theorem test_ill_nlb_high : Instr.wf (.verify iocap { rng with nlb := 65537 } false) = false := by decide
theorem test_ill_slba : Instr.wf (.verify iocap { rng with slba := 2 ^ 64 } false) = false := by decide
theorem test_ill_nsid : Instr.wf (.flush iocap (2 ^ 32)) = false := by decide
theorem test_ill_pi_tag : Instr.wf (.verify iocap { rng with pi := { rng.pi with lbat := 2 ^ 16 } } false) = false := by decide
theorem test_ill_handle : Instr.wf (.write iocap rng false false (some (2 ^ 16)) false []) = false := by decide
theorem test_ill_span : Instr.wf (.datasetManagement iocap 1 false [(0, 2 ^ 32)]) = false := by decide
theorem test_ill_spans_none : Instr.wf (.datasetManagement iocap 1 false []) = false := by decide
theorem test_ill_copy_format : Instr.wf (.copy iocap 1 16 [(0, 1)] 0) = false := by decide
theorem test_ill_key : Instr.wf (.exist iocap 1 (List.replicate 256 0)) = false := by decide +kernel
theorem test_ill_log_length : Instr.wf (.getLogPage acap 2 0 6 true) = false := by decide
theorem test_ill_frame_short : Instr.wf (.frameReceive 0 0 { frm with len := 17 }) = false := by decide
theorem test_ill_frame_address : Instr.wf (.frameReceive 0 0 { frm with dst := [] }) = false := by decide
theorem test_ill_attempt_address : Instr.wf (.tcpSynReceive { att with src := [] }) = false := by decide
theorem test_ill_transmit_none : Instr.wf (.frameTransmit 0 0) = false := by decide
theorem test_ill_descriptor_params : Instr.wf (.executeProgram iocap 0 desc 0) = false := by decide
theorem test_ill_token_flow : Instr.wf (.resultArrive { tok 0 2 with flow := 2 ^ 14 }) = false := by decide
theorem test_ill_token_seq : Instr.wf (.resultArrive { tok 0 2 with seq := 2 ^ 40 }) = false := by decide
theorem test_ill_task_node : Instr.wf (.matchTaskDone { tref with node := 256 }) = false := by decide
theorem test_ill_connect_entries : Instr.wf (.connect 1 none 0 0 0 0 0) = false := by decide
theorem test_ill_auth_hash : Instr.wf (.authenticationSend acap 0 4 0 [] none) = false := by decide
theorem test_ill_map_nsx : Instr.wf (.mapFillDone .spr 1024 0 true) = false := by decide
theorem test_ill_refused_twice : Instr.wf (.testEnd 0 false 0 [1, 1] 0) = false := by decide
theorem test_ill_readings_twice : Instr.wf (.sensorSample [(0, 1), (0, 2)]) = false := by decide
theorem test_ill_loop_off : Instr.wf (.kLoop cx 1 0) = false := by decide
theorem test_ill_rep_zero : Instr.wf (.kRep cx (.imm 0)) = false := by decide
theorem test_ill_pcmp_code : Instr.wf (.kPcmp cx 1 1 1 10) = false := by decide
theorem test_ill_pflag_code : Instr.wf (.kPflag cx 1 15) = false := by decide
theorem test_ill_shift_amount : Instr.wf (.kShli ⟨kid, g0, 1, 1, 32⟩) = false := by decide
theorem test_ill_not_b : Instr.wf (.kNot ⟨kid, g0, 1, 1, 1⟩) = false := by decide
theorem test_ill_cmp_d : Instr.wf (.kCmp ⟨kid, g0, 1, 1, 1⟩) = false := by decide
theorem test_ill_movh_high : Instr.wf (.kMovh ⟨kid, g0, 1, 0x10000⟩) = false := by decide
theorem test_ill_vld_register : Instr.wf (.kVld ⟨kid, g0, 16, 1, false, 0⟩) = false := by decide
theorem test_ill_mctp_count : Instr.wf (.mctpLogRead 0 0 256) = false := by decide
theorem test_well_formed : Instr.wf rd = true ∧ Instr.wf (.kAddi ⟨kid, g0, 3, 3, 1⟩) = true := by decide
/-- No row of the table has bits, so no word spells a command. -/
theorem test_no_table_word (n w : Nat) : decodeTableWord n w = none := rfl

end Sys2Proof.Tests
end

