-- ==== Sys2Proof/Tests/WitnessCommands.lean ====
section
/-! SUPPORT. For each obligation about the network edge and the command path: a concrete state and operands that meet its hypotheses, clause by clause. -/

namespace Sys2Proof.Tests

open Sys2Proof Machine

set_option Elab.async false
set_option linter.all false

theorem witness_ReceivePathAndPause :
    (∃ p : Fin 2, ∃ k : Fin 4, ∃ f : Frame, ∃ c : Conn, ∃ s : State, LinkOk s p k ∧ f.fecOk = true ∧ f.fcsOk = true ∧ f.macsec = false ∧ f.macControl = false ∧ s.cfg (Pg.NET p.val) Fd.NET_NET_CTRL_MACSEC_MODE = 0 ∧ 64 ≤ f.len ∧ f.len ≤ s.cfg (Pg.NET p.val) Fd.NET_NET_CTRL_MAX_FRAME ∧ f.fragment = false ∧ s.localEntries p.val k.val f.vlan.toNat f.ipv6 f.dst ≠ [] ∧ s.conn? f.conn = some c ∧ c.roce = false ∧ c.ecn = false ∧ s.net.spilling = false ∧ s.rxO + f.len ≤ s.rxM)
      ∧ (∃ p : Fin 2, ∃ k : Fin 4, ∃ f : Frame, ∃ s : State, LinkOk s p k ∧ f.fecOk = true ∧ (f.fcsOk = false ∨ (f.macsec = false ∧ f.macControl = false ∧ s.cfg (Pg.NET p.val) Fd.NET_NET_CTRL_MACSEC_MODE = 0 ∧ s.localEntries p.val k.val f.vlan.toNat f.ipv6 f.dst = [])))
      ∧ (∃ i : Fin 256, ∃ ms : BitVec 32, ∃ s : State, s.net.xoff = true ∧ 10 ≤ ms.toNat ∧ s.enabled i.val = true ∧ s.rxWithin i.val = true ∧ ((∀ b ∈ s.inst.breaches, b.cause ≠ 4)))
      ∧ (∃ p : Fin 2, ∃ k : Fin 4, ∃ m : BitVec 8, ∃ s : State, LinkOk s p k)
      ∧ (∃ p : Fin 2, ∃ k : Fin 4, ∃ n : Fin 8, ∃ s : State, ∃ a : Nat, Awake s ∧ KV.get? (s.subOf p.val k.val).paused n.val = some a ∧ KV.get? (s.subOf p.val k.val).ignored n.val = none)
      ∧ (∃ p : Fin 2, ∃ k : Fin 4, ∃ n : Fin 8, ∃ s : State, ∃ a : Nat, KV.get? (s.subOf p.val k.val).ignored n.val = some a)
      ∧ (∃ p : Fin 2, ∃ k : Fin 4, ∃ v : BitVec 12, ∃ six : Bool, ∃ addr : List Byte, ∃ s : State, LinkOk s p k ∧ s.localEntries p.val k.val v.toNat six addr ≠ [])
      ∧ (∃ p : Fin 2, ∃ k : Fin 4, ∃ v : BitVec 12, ∃ six : Bool, ∃ addr : List Byte, ∃ s : State, LinkOk s p k) := by
  refine ⟨⟨0, 0, frm, tcp, host, ?_, ?_, ?_, ?_, ?_, ?_, ?_, ?_, ?_, ?_, ?_, ?_, ?_, ?_, ?_⟩,
    ⟨0, 0, { frm with fcsOk := false }, host, ?_, ?_, ?_⟩,
    ⟨0, 10, host.modNet fun n => { n with xoff := true }, ?_, ?_, ?_, ?_, ?_⟩,
    ⟨0, 0, 1, host, ?_⟩,
    ⟨0, 0, 0, host.modSub 0 0 (fun x => { x with paused := [(0, 0)] }), 0, ?_, ?_, ?_⟩,
    ⟨0, 0, 0, host.modSub 0 0 (fun x => { x with ignored := [(0, 1)] }), 1, ?_⟩,
    ⟨0, 0, 0, false, zeros 16, host, ?_, ?_⟩,
    ⟨0, 0, 0, false, zeros 16, host, ?_⟩⟩
  all_goals first
    | decide +kernel | exact authMet_of (by decide +kernel) | exact adminOk_of (by decide +kernel) | exact ok_of (by decide +kernel)
    | exact err_of (by decide +kernel) | exact calm_of (by decide +kernel) | exact ready_of (by decide +kernel) | exact current_of (by decide +kernel)
    | (simp only [Reached, AdminOk, Awake, Ready, Calm, IoOk, ConnectOk, LinkOk, DigestFree, NoItemWaits, KeyAttrOk, Admissible, Current, AdminFree, Storable, NodeWaits, ItemDone, OtherBuffer]; decide +kernel) | (intros; rfl) | trivial

theorem witness_LinkStates :
    (∃ p : Fin 2, ∃ k : Fin 4, ∃ s : State, Awake s ∧ LinkOk s p k ∧ (s.subOf p.val k.val).degraded = false)
      ∧ (∃ p : Fin 2, ∃ k : Fin 4, ∃ s : State, Awake s ∧ (s.subOf p.val k.val).degraded = true)
      ∧ (∃ p : Fin 2, ∃ k : Fin 4, ∃ s : State, ∃ c : Instr, LinkOk s p k ∧ (c = .uncorrectableThreshold p k ∨ (∃ lane : Fin 8, c = .laneLockTimeout p k lane ∧ lane.val / s.subLanes p.val = k.val)))
      ∧ (∃ p : Fin 2, ∃ k : Fin 4, ∃ s : State, Awake s ∧ (s.subOf p.val k.val).selftest = true)
      ∧ (∃ p : Fin 2, ∃ k : Fin 4, ∃ s : State, Awake s ∧ (s.subOf p.val k.val).selftest = true)
      ∧ (∃ p : Fin 2, ∃ k : Fin 4, ∃ s : State, ∃ a : Nat, (s.subOf p.val k.val).retrainAt = some a ∧ s.mayLink p.val k.val = true)
      ∧ (∃ p : Fin 2, ∃ k : Fin 4, ∃ s : State, ∃ a : Nat, (s.subOf p.val k.val).retrainAt = some a ∧ s.mayLink p.val k.val = true)
      ∧ (∃ p : Fin 2, ∃ k : Fin 4, ∃ eq : List Word, ∃ s : State, Awake s ∧ s.mayLink p.val k.val = true ∧ (s.subOf p.val k.val).up = false)
      ∧ (∃ p : Fin 2, ∃ k : Fin 4, ∃ s : State, Awake s ∧ (s.subOf p.val k.val).up = true)
      ∧ (∃ path : Path, ∃ p : Fin 2, ∃ s : State, Reached s path (Pg.NET p.val) 0x420) := by
  refine ⟨⟨0, 0, host, ?_, ?_, ?_⟩,
    ⟨0, 0, host.modSub 0 0 fun x => { x with degraded := true }, ?_, ?_⟩,
    ⟨0, 0, host, .uncorrectableThreshold 0 0, ?_, (.inl rfl)⟩,
    ⟨0, 0, host.modSub 0 0 fun x => { x with selftest := true }, ?_, ?_⟩,
    ⟨0, 0, host.modSub 0 0 fun x => { x with selftest := true }, ?_, ?_⟩,
    ⟨0, 0, host.modSub 0 0 (fun x => { x with retrainAt := some 1 }), 1, ?_, ?_⟩,
    ⟨0, 0, host.modSub 0 0 (fun x => { x with retrainAt := some 1 }), 1, ?_, ?_⟩,
    ⟨0, 0, [], host.modSub 0 0 fun x => { x with up := false }, ?_, ?_, ?_⟩,
    ⟨0, 0, host, ?_, ?_⟩,
    ⟨.mp, 0, ex (Pg.NET 0), ?_⟩⟩
  all_goals first
    | decide +kernel | exact authMet_of (by decide +kernel) | exact adminOk_of (by decide +kernel) | exact ok_of (by decide +kernel)
    | exact err_of (by decide +kernel) | exact calm_of (by decide +kernel) | exact ready_of (by decide +kernel) | exact current_of (by decide +kernel)
    | (simp only [Reached, AdminOk, Awake, Ready, Calm, IoOk, ConnectOk, LinkOk, DigestFree, NoItemWaits, KeyAttrOk, Admissible, Current, AdminFree, Storable, NodeWaits, ItemDone, OtherBuffer]; decide +kernel) | (intros; rfl) | trivial

theorem witness_TransportsAndRates :
    (∃ n : Nat, ∃ bytes : Nat, ∃ c : Conn, ∃ p : Fin 2, ∃ k : Fin 4, ∃ s : State, s.conn? n = some c ∧ c.port = p.val ∧ c.sub = k.val ∧ LinkOk s p k ∧ s.canSend c = true ∧ ((∀ e ∈ s.net.conns, e.2.port = c.port → e.2.sub = c.sub → s.canSend e.2 = true → s.classRank e.2 ≤ s.classRank c)) ∧ s.cfg (Pg.NET p.val) Fd.NET_NET_CTRL_MACSEC_MODE = 0 ∧ 0 < bytes ∧ bytes ≤ c.waiting ∧ bytes ≤ 65536 ∧ c.sent + bytes < 2 ^ 26)
      ∧ (∃ n : Nat, ∃ bytes : Nat, ∃ f : PktFlags, ∃ c : Conn, ∃ s : State, s.conn? n = some c ∧ c.roce = false ∧ s.isUp Dom.NETCORE = true ∧ c.reqTls = false ∧ c.phase = .established ∧ 0 < bytes ∧ f.ece = false ∧ f.rttHigh = false ∧ f.dupAck = false)
      ∧ (∃ n : Nat, ∃ c : Conn, ∃ s : State, s.conn? n = some c ∧ c.roce = false)
      ∧ (∃ n : Nat, ∃ c : Conn, ∃ s : State, s.conn? n = some c ∧ c.roce = true ∧ s.isUp Dom.NETCORE = true)
      ∧ (∃ n : Nat, ∃ c : Conn, ∃ s : State, s.conn? n = some c ∧ c.roce = true ∧ s.isUp Dom.NETCORE = true)
      ∧ (∃ n : Nat, ∃ c : Conn, ∃ s : State, s.conn? n = some c ∧ c.roce = true ∧ s.isUp Dom.NETCORE = true)
      ∧ (∃ n : Nat, ∃ c : Conn, ∃ s : State, s.conn? n = some c ∧ c.roce = true ∧ s.isUp Dom.NETCORE = true ∧ c.rnr < s.cfg Pg.NETX Fd.NETX_ROCE_TIMER_RNR_RETRY)
      ∧ (∃ n : Nat, ∃ c : Conn, ∃ s : State, s.conn? n = some c ∧ c.roce = true ∧ s.isUp Dom.NETCORE = true ∧ ((∀ a, c.lastCut = some a → a + 1000 * s.cfg Pg.NETX Fd.NETX_RC3_T_CUT ≤ s.now)))
      ∧ (∃ n : Nat, ∃ c : Conn, ∃ s : State, s.conn? n = some c ∧ c.roce = true)
      ∧ (∃ n : Nat, ∃ c : Conn, ∃ s : State, s.conn? n = some c)
      ∧ (∃ n : Nat, ∃ c : Conn, ∃ s : State, s.conn? n = some c) := by
  refine ⟨⟨1, 1000, { tcp with waiting := 1000 }, 0, 0, host.modNet fun n => { n with conns := [(1, { tcp with waiting := 1000 })] }, ?_, ?_, ?_, ?_, ?_, ?_, ?_, ?_, ?_, ?_, ?_⟩,
    ⟨1, 1, ⟨false, false, false, false⟩, tcp, host, ?_, ?_, ?_, ?_, ?_, ?_, ?_, ?_, ?_⟩,
    ⟨1, tcp, host, ?_, ?_⟩,
    ⟨1, roce, hostRoce, ?_, ?_, ?_⟩,
    ⟨1, roce, hostRoce, ?_, ?_, ?_⟩,
    ⟨1, roce, hostRoce, ?_, ?_, ?_⟩,
    ⟨1, roce, hostRoce, ?_, ?_, ?_, ?_⟩,
    ⟨1, roce, hostRoce, ?_, ?_, ?_, (by intro a h; cases h)⟩,
    ⟨1, roce, hostRoce, ?_, ?_⟩,
    ⟨1, roce, hostRoce, ?_⟩,
    ⟨1, roce, hostRoce, ?_⟩⟩
  all_goals first
    | decide +kernel | exact authMet_of (by decide +kernel) | exact adminOk_of (by decide +kernel) | exact ok_of (by decide +kernel)
    | exact err_of (by decide +kernel) | exact calm_of (by decide +kernel) | exact ready_of (by decide +kernel) | exact current_of (by decide +kernel)
    | (simp only [Reached, AdminOk, Awake, Ready, Calm, IoOk, ConnectOk, LinkOk, DigestFree, NoItemWaits, KeyAttrOk, Admissible, Current, AdminFree, Storable, NodeWaits, ItemDone, OtherBuffer]; decide +kernel) | (intros; rfl) | trivial

theorem witness_PulledData :
    (∃ n : Nat, ∃ cn : Nat, ∃ roce : Bool, ∃ x : Ctx, ∃ c : Conn, ∃ s : State, s.ctx? n = some x ∧ s.ctxConn x = some (cn, c) ∧ c.roce = roce ∧ x.asked < x.expected ∧ x.state = .admitted ∧ ((roce = false → x.open_.length < max 1 c.maxr2t)) ∧ min 131072 (x.expected - x.asked) ≤ s.rxCredit x.inst)
      ∧ (∃ n : Nat, ∃ cn : Nat, ∃ off : Nat, ∃ o : Nat, ∃ len : Nat, ∃ rest : List (Nat × Nat), ∃ data : List Byte, ∃ x : Ctx, ∃ c : Conn, ∃ s : State, s.ctx? n = some x ∧ s.ctxConn x = some (cn, c) ∧ x.open_ = (o, len) :: rest ∧ o ≤ off ∧ off + data.length ≤ o + len ∧ 0 < data.length ∧ data.length < len)
      ∧ (∃ n : Nat, ∃ cn : Nat, ∃ off : Nat, ∃ data : List Byte, ∃ x : Ctx, ∃ c : Conn, ∃ s : State, s.ctx? n = some x ∧ s.ctxConn x = some (cn, c) ∧ data ≠ [] ∧ ((∀ r ∈ x.open_, ¬ (r.1 ≤ off ∧ off + data.length ≤ r.1 + r.2))))
      ∧ (∃ n : Nat, ∃ off : Nat, ∃ data : List Byte, ∃ wf : Bool, ∃ s : State, s.ctx? n = none ∧ n ∈ s.cmd.retired)
      ∧ (∃ n : Nat, ∃ h : Bool, ∃ d : Bool, ∃ r : Nat, ∃ c : Conn, ∃ s : State, s.conn? n = some c ∧ c.roce = false ∧ c.icDone = false ∧ (c.reqTls = false ∨ c.tls = .done) ∧ c.phase = .established)
      ∧ (∃ n : Nat, ∃ pfv : Nat, ∃ hpda : Nat, ∃ h : Bool, ∃ d : Bool, ∃ r : Nat, ∃ c : Conn, ∃ s : State, s.conn? n = some c ∧ c.roce = false ∧ c.icDone = false ∧ (c.reqTls = false ∨ c.tls = .done) ∧ (pfv ≠ 0 ∨ hpda ≠ 0)) := by
  refine ⟨⟨1, 1, false, ctx1 wr .admitted, tcp, holding (ctx1 wr .admitted), ?_, ?_, ?_, ?_, ?_, ?_, ?_⟩,
    ⟨1, 1, 0, 0, 4096, [], [1], { ctx1 wr .admitted with open_ := [(0, 4096)] }, tcp, holding { ctx1 wr .admitted with open_ := [(0, 4096)] }, ?_, ?_, ?_, ?_, ?_, ?_, ?_⟩,
    ⟨1, 1, 0, [1], ctx1 wr .admitted, tcp, holding (ctx1 wr .admitted), ?_, ?_, ?_, ?_⟩,
    ⟨1, 0, [1], true, host.modCmd fun m => { m with retired := [1] }, ?_, ?_⟩,
    ⟨1, false, false, 0, { tcp with icDone := false }, host.modNet fun n => { n with conns := [(1, { tcp with icDone := false })] }, ?_, ?_, ?_, ?_, ?_⟩,
    ⟨1, 1, 0, false, false, 0, { tcp with icDone := false }, host.modNet fun n => { n with conns := [(1, { tcp with icDone := false })] }, ?_, ?_, ?_, ?_, ?_⟩⟩
  all_goals first
    | decide +kernel | exact authMet_of (by decide +kernel) | exact adminOk_of (by decide +kernel) | exact ok_of (by decide +kernel)
    | exact err_of (by decide +kernel) | exact calm_of (by decide +kernel) | exact ready_of (by decide +kernel) | exact current_of (by decide +kernel)
    | (simp only [Reached, AdminOk, Awake, Ready, Calm, IoOk, ConnectOk, LinkOk, DigestFree, NoItemWaits, KeyAttrOk, Admissible, Current, AdminFree, Storable, NodeWaits, ItemDone, OtherBuffer]; decide +kernel) | (intros; rfl) | trivial

theorem witness_ConnectionAdmission :
    (∃ a : Attempt, ∃ n : Nat, ∃ r : List Byte, ∃ s : State, s.ruleFor a = some (n, r))
      ∧ (∃ a : Attempt, ∃ n : Nat, ∃ r : List Byte, ∃ s : State, s.ruleFor a = some (n, r))
      ∧ (∃ a : Attempt, ∃ n : Nat, ∃ r : List Byte, ∃ s : State, s.ruleFor a = some (n, r) ∧ ∃ e, e ∈ s.net.rules ∧ ruleMatches e.2 a = true)
      ∧ (∃ a : Attempt, ∃ n : Nat, ∃ r : List Byte, ∃ s : State, s.ruleFor a = some (n, r) ∧ ∃ e, e ∈ s.net.rules ∧ ruleMatches e.2 a = true ∧ KV.risingFrom 0 s.net.rules = true ∧ rulePrio e.2 = rulePrio r)
      ∧ (∃ a : Attempt, ∃ n : Nat, ∃ r : List Byte, ∃ e : List Byte, ∃ s : State, a.roce = false ∧ Admissible s a n r e ∧ 1000000 ≤ s.bucketNow (ruleByte r 0x1D % 16) ∧ s.net.cookies = false ∧ s.cfg Pg.NETX Fd.NETX_CONN_COOKIE_ALWAYS ≠ 1 ∧ s.halfOpen ≤ s.cfg Pg.NETX Fd.NETX_CONN_COOKIE_AT)
      ∧ (∃ a : Attempt, ∃ n : Nat, ∃ r : List Byte, ∃ e : List Byte, ∃ s : State, a.roce = false ∧ Admissible s a n r e ∧ 1000000 ≤ s.bucketNow (ruleByte r 0x1D % 16) ∧ s.net.cookies = true ∧ s.cfg Pg.NETX Fd.NETX_CONN_COOKIE_ALWAYS = 1)
      ∧ (∃ a : Attempt, ∃ e : List Byte, ∃ s : State, a.roce = false ∧ s.serving = true ∧ LinkOk s a.port a.sub ∧ s.cmd.drainStopped = false ∧ s.heldOff a.src = false ∧ s.attemptEntry a = some e ∧ s.ruleFor a = none)
      ∧ (∃ a : Attempt, ∃ n : Nat, ∃ r : List Byte, ∃ e : List Byte, ∃ s : State, a.roce = true ∧ Admissible s a n r e ∧ 1000000 ≤ s.bucketNow (ruleByte r 0x1D % 16) ∧ s.halfOpen < 65536)
      ∧ (∃ a : Attempt, ∃ n : Nat, ∃ r : List Byte, ∃ e : List Byte, ∃ s : State, a.roce = false ∧ Admissible s a n r e)
      ∧ (∃ s : State, s.isUp Dom.NETCORE = true)
      ∧ (∃ src : List Byte, ∃ s : State, ∃ u : Nat, (s.net.holdoff.find? (fun e => e.1 = src) = some (src, u)))
      ∧ (∃ n : Nat, ∃ a128 : Bool, ∃ p384 : Bool, ∃ c : Conn, ∃ s : State, s.conn? n = some c ∧ c.roce = false ∧ c.tls = .none ∧ c.icDone = false ∧ c.phase = .established ∧ s.cfg Pg.NETX Fd.NETX_TLS_AES256 = 1 ∧ s.cfg Pg.NETX Fd.NETX_TLS_X25519 = 1)
      ∧ (∃ n : Nat, ∃ a128 : Bool, ∃ p384 : Bool, ∃ c : Conn, ∃ s : State, s.conn? n = some c ∧ c.roce = false ∧ c.tls = .none ∧ c.icDone = false ∧ c.phase = .established ∧ s.cfg Pg.NETX Fd.NETX_TLS_AES256 = 1 ∧ s.cfg Pg.NETX Fd.NETX_TLS_X25519 = 1)
      ∧ (∃ n : Nat, ∃ a128 : Bool, ∃ p384 : Bool, ∃ c : Conn, ∃ s : State, s.conn? n = some c ∧ c.roce = false ∧ c.tls = .none ∧ c.icDone = false ∧ c.phase = .established ∧ s.cfg Pg.NETX Fd.NETX_TLS_AES256 = 1 ∧ s.cfg Pg.NETX Fd.NETX_TLS_X25519 = 1)
      ∧ (∃ n : Nat, ∃ d : Nat, ∃ c : Conn, ∃ s : State, s.conn? n = some c ∧ c.tls = .handshake ∧ c.tlsDue = some d)
      ∧ (∃ n : Nat, ∃ c : Conn, ∃ s : State, s.conn? n = some c ∧ c.tls = .done)
      ∧ (∃ path : Path, ∃ idx : BitVec 13, ∃ s : State, Reached s path Pg.CLS 0x64) := by
  refine ⟨⟨att, 0, rule0, host, ?_⟩,
    ⟨att, 0, rule0, host, ?_⟩,
    ⟨att, 0, rule0, host, ?_, (0, rule0), ?_, ?_⟩,
    ⟨att, 0, rule0, host, ?_, (0, rule0), ?_, ?_, ?_, ?_⟩,
    ⟨att, 0, rule0, entry0, host, ?_, ?_, ?_, ?_, ?_, ?_⟩,
    ⟨att, 0, rule0, entry0, (host.setFld Pg.NETX Fd.NETX_CONN_COOKIE_ALWAYS 1).modNet fun n => { n with cookies := true }, ?_, ?_, ?_, ?_, ?_⟩,
    ⟨att, entry0, host.modNet fun n => { n with rules := [] }, ?_, ?_, ?_, ?_, ?_, ?_, ?_⟩,
    ⟨{ att with roce := true }, 0, rule0, entry0, host, ?_, ?_, ?_, ?_⟩,
    ⟨att, 0, rule0, entry0, host, ?_, ?_⟩,
    ⟨host, ?_⟩,
    ⟨zeros 16, host.modNet (fun n => { n with holdoff := [(zeros 16, 1)] }), 1, ?_⟩,
    ⟨1, true, true, { tcp with icDone := false }, host.modNet fun n => { n with conns := [(1, { tcp with icDone := false })] }, ?_, ?_, ?_, ?_, ?_, ?_, ?_⟩,
    ⟨1, true, true, { tcp with icDone := false }, host.modNet fun n => { n with conns := [(1, { tcp with icDone := false })] }, ?_, ?_, ?_, ?_, ?_, ?_, ?_⟩,
    ⟨1, true, true, { tcp with icDone := false }, host.modNet fun n => { n with conns := [(1, { tcp with icDone := false })] }, ?_, ?_, ?_, ?_, ?_, ?_, ?_⟩,
    ⟨1, 1, { tcp with tls := .handshake, tlsDue := some 1 }, host.modNet fun n => { n with conns := [(1, { tcp with tls := .handshake, tlsDue := some 1 })] }, ?_, ?_, ?_⟩,
    ⟨1, { tcp with tls := .done }, host.modNet fun n => { n with conns := [(1, { tcp with tls := .done })] }, ?_, ?_⟩,
    ⟨.mp, 0, host, ?_⟩⟩
  all_goals first
    | decide +kernel | exact authMet_of (by decide +kernel) | exact adminOk_of (by decide +kernel) | exact ok_of (by decide +kernel)
    | exact err_of (by decide +kernel) | exact calm_of (by decide +kernel) | exact ready_of (by decide +kernel) | exact current_of (by decide +kernel)
    | (simp only [Reached, AdminOk, Awake, Ready, Calm, IoOk, ConnectOk, LinkOk, DigestFree, NoItemWaits, KeyAttrOk, Admissible, Current, AdminFree, Storable, NodeWaits, ItemDone, OtherBuffer]; decide +kernel) | (intros; rfl) | trivial

theorem witness_AssociationsAndProperties :
    (∃ conn : Nat, ∃ entries : Nat, ∃ kato : Nat, ∃ host : Nat, ∃ ctrl : Nat, ∃ sub : Option (Fin 256), ∃ c : Conn, ∃ s : State, ConnectOk s conn c sub ∧ 2 ≤ entries ∧ entries ≤ 32 ∧ (s.ctrlsOf c.inst).length < 16)
      ∧ (∃ conn : Nat, ∃ qid : Nat, ∃ entries : Nat, ∃ kato : Nat, ∃ host : Nat, ∃ ctrl : Nat, ∃ sub : Option (Fin 256), ∃ c : Conn, ∃ k : Ctrl, ∃ s : State, ConnectOk s conn c sub ∧ 2 ≤ entries ∧ entries ≤ 1024 ∧ 0 < qid ∧ qid ≤ 64 ∧ s.ctrl? ctrl = some k ∧ k.inst = c.inst ∧ k.disc = false ∧ k.host = host ∧ ((s.ctrlsOf c.inst).foldl (fun n e => n + e.2.queues.length) 0 < 64) ∧ (c.reqAuth = false ∨ k.authed = true) ∧ k.rdy = true ∧ k.resetting = false ∧ KV.get? k.queues qid = none)
      ∧ (∃ conn : Nat, ∃ qid : Nat, ∃ entries : Nat, ∃ kato : Nat, ∃ host : Nat, ∃ ctrl : Nat, ∃ sub : Option (Fin 256), ∃ c : Conn, ∃ s : State, s.conn? conn = some c ∧ s.serving = true ∧ c.phase ≠ .closed ∧ ((c.reqTls = true → c.tls = .done)) ∧ ((c.roce = true ∨ c.icDone = true)) ∧ s.cmd.drainStopped = false ∧ s.cmd.act = .idle ∧ c.disc = false ∧ (s.instOf c.inst).resetting = false ∧ ((∀ i, sub = some i → i.val ≠ c.inst)))
      ∧ (∃ cap : Cap, ∃ off : Nat, ∃ k : Ctrl, ∃ s : State, AdminFree s cap k ∧ AuthMet s k)
      ∧ (∃ cap : Cap, ∃ v : Dword, ∃ k : Ctrl, ∃ s : State, AdminFree s cap k ∧ AuthMet s k ∧ bitsOf (v.toNat % 2 ^ 32) 13 11 ≤ 1 ∧ k.resetting = false ∧ v.getLsbD 0 = true ∧ k.cc.testBit 0 = false)
      ∧ (∃ cap : Cap, ∃ v : Dword, ∃ k : Ctrl, ∃ s : State, AdminFree s cap k ∧ AuthMet s k ∧ bitsOf (v.toNat % 2 ^ 32) 13 11 ≤ 1 ∧ k.resetting = false ∧ v.getLsbD 0 = false ∧ k.cc.testBit 0 = true)
      ∧ (∃ cap : Cap, ∃ hash : Nat, ∃ group : Nat, ∃ resp : List Byte, ∃ ch : Option Nat, ∃ k : Ctrl, ∃ s : State, AdminFree s cap k ∧ s.authEnabled hash group = true)
      ∧ (∃ cap : Cap, ∃ hash : Nat, ∃ group : Nat, ∃ resp : List Byte, ∃ ch : Option Nat, ∃ k : Ctrl, ∃ s : State, AdminFree s cap k ∧ k.authStep = 1)
      ∧ (∃ cap : Cap, ∃ k : Ctrl, ∃ s : State, AdminFree s cap k ∧ k.authStep = 1)
      ∧ (∃ cap : Cap, ∃ k : Ctrl, ∃ s : State, AdminFree s cap k ∧ k.authStep = 0)
      ∧ (∃ cap : Cap, ∃ k : Ctrl, ∃ s : State, AdminFree s cap k ∧ AuthMet s k)
      ∧ (∃ cap : Cap, ∃ k : Ctrl, ∃ q : IoQueue, ∃ s : State, s.ctrl? cap.ctrl = some k ∧ cap.qid ≠ 0 ∧ KV.get? k.queues cap.qid = some q ∧ s.cmd.drainStopped = false ∧ k.resetting = false ∧ (s.instOf k.inst).resetting = false ∧ s.cmd.act = .idle ∧ q.waiting = []) := by
  refine ⟨⟨2, 32, 0, 0, 0, some 0, { tcp with ctrl := none }, hostConn, ?_, ?_, ?_, ?_⟩,
    ⟨2, 2, 64, 0, 0, 1, some 0, { tcp with ctrl := none }, ctl1, hostConn, ?_, ?_, ?_, ?_, ?_, ?_, ?_, ?_, ?_, ?_, ?_, ?_, ?_, ?_⟩,
    ⟨2, 1, 64, 0, 0, 1, some 1, { tcp with ctrl := none }, hostConn, ?_, ?_, ?_, ?_, ?_, ?_, ?_, ?_, ?_, (by intro i h; cases h; decide)⟩,
    ⟨acap, 0x14, ctl1, host, ?_, ?_⟩,
    ⟨acap, 1, { ctl1 with cc := 0, rdy := false }, host.modCmd fun m => { m with ctrls := [(1, { ctl1 with cc := 0, rdy := false })] }, ?_, ?_, ?_, ?_, ?_, ?_⟩,
    ⟨acap, 0, ctl1, host, ?_, ?_, ?_, ?_, ?_, ?_⟩,
    ⟨acap, 1, 0, [], none, ctl1, host.setFld Pg.NETX Fd.NETX_AUTH_SHA256 1 |>.setFld Pg.NETX Fd.NETX_AUTH_NULL_DH 1, ?_, ?_⟩,
    ⟨acap, 1, 0, [], none, { ctl1 with authStep := 1 }, host.modCmd fun m => { m with ctrls := [(1, { ctl1 with authStep := 1 })] }, ?_, ?_⟩,
    ⟨acap, { ctl1 with authStep := 1 }, host.modCmd fun m => { m with ctrls := [(1, { ctl1 with authStep := 1 })] }, ?_, ?_⟩,
    ⟨acap, ctl1, host, ?_, ?_⟩,
    ⟨acap, ctl1, host, ?_, ?_⟩,
    ⟨iocap, ctl1, q1, host, ?_, ?_, ?_, ?_, ?_, ?_, ?_, ?_⟩⟩
  all_goals first
    | decide +kernel | exact authMet_of (by decide +kernel) | exact adminOk_of (by decide +kernel) | exact ok_of (by decide +kernel)
    | exact err_of (by decide +kernel) | exact calm_of (by decide +kernel) | exact ready_of (by decide +kernel) | exact current_of (by decide +kernel)
    | (simp only [Reached, AdminOk, Awake, Ready, Calm, IoOk, ConnectOk, LinkOk, DigestFree, NoItemWaits, KeyAttrOk, Admissible, Current, AdminFree, Storable, NodeWaits, ItemDone, OtherBuffer]; decide +kernel) | (intros; rfl) | trivial

theorem witness_LogsFeaturesAndEvents :
    (∃ cap : Cap, ∃ off : Nat, ∃ len : Nat, ∃ k : Ctrl, ∃ s : State, AdminOk s cap k ∧ k.inst = 0 ∧ off % 64 = 0 ∧ len % 4 = 0 ∧ 0 < len ∧ len ≤ 2 ^ 21)
      ∧ (∃ cap : Cap, ∃ cns : BitVec 8, ∃ nsid : Nat, ∃ k : Ctrl, ∃ s : State, AdminOk s cap k)
      ∧ (∃ cap : Cap, ∃ k : Ctrl, ∃ s : State, AdminOk s cap k)
      ∧ (∃ cap : Cap, ∃ w : Word, ∃ w12 : Word, ∃ k : Ctrl, ∃ s : State, AdminOk s cap k ∧ ∃ fid : BitVec 8, True)
      ∧ (∃ cap : Cap, ∃ w : Word, ∃ w12 : Word, ∃ k : Ctrl, ∃ s : State, AdminOk s cap k)
      ∧ (∃ cap : Cap, ∃ w : Word, ∃ w12 : Word, ∃ k : Ctrl, ∃ s : State, AdminOk s cap k)
      ∧ (∃ cap : Cap, ∃ w : Word, ∃ w12 : Word, ∃ k : Ctrl, ∃ s : State, AdminOk s cap k ∧ ∃ q, KV.get? k.queues (w.toNat % 65536) = some q)
      ∧ (∃ cap : Cap, ∃ fid : BitVec 8, ∃ w : Word, ∃ v : Nat, ∃ k : Ctrl, ∃ s : State, AdminOk s cap k ∧ fid.toNat ∈ featureIds ∧ s.featureNow k fid.toNat w.toNat = some v)
      ∧ (∃ cap : Cap, ∃ k : Ctrl, ∃ s : State, AdminOk s cap k ∧ k.aers.length < 8 ∧ KV.getD [] s.cmd.aenInst k.inst = [] ∧ ((∀ e ∈ s.ctrlsOf k.inst, e.2.aenPend = [])))
      ∧ (∃ cap : Cap, ∃ k : Ctrl, ∃ s : State, AdminOk s cap k ∧ 8 ≤ k.aers.length)
      ∧ (∃ cap : Cap, ∃ sqid : Nat, ∃ cid : BitVec 16, ∃ k : Ctrl, ∃ s : State, AdminOk s cap k ∧ sqid = 0 ∧ cid ∈ k.aers)
      ∧ (∃ cap : Cap, ∃ sqid : Nat, ∃ cid : BitVec 16, ∃ k : Ctrl, ∃ s : State, AdminOk s cap k ∧ (¬ (sqid = 0 ∧ cid ∈ k.aers)) ∧ ((∀ e ∈ s.cmd.ctxs, ¬ (e.2.ctrl = cap.ctrl ∧ e.2.qid = sqid ∧ e.2.cid = cid))))
      ∧ (∃ cap : Cap, ∃ sqid : Nat, ∃ cid : BitVec 16, ∃ k : Ctrl, ∃ s : State, AdminOk s cap k ∧ ∃ c : Nat, ∃ x : Ctx, (s.cmd.ctxs.find? (fun e => e.2.ctrl = cap.ctrl && e.2.qid = sqid && e.2.cid = cid && ! s.stale e.2) = some (c, x)) ∧ sqid ≠ 0 ∧ (x.state = .admitted ∨ x.state = .issued) ∧ ((∀ f ∈ s.prog.flows, f.2.ctx ≠ c)) ∧ s.ctx? c = some x)
      ∧ (∃ cap : Cap, ∃ op : BitVec 8, ∃ k : Ctrl, ∃ s : State, AdminOk s cap k)
      ∧ (∃ cap : Cap, ∃ data : List Byte, ∃ k : Ctrl, ∃ s : State, AdminOk s cap k ∧ data.length = 32)
      ∧ (∃ cap : Cap, ∃ alloc : Nat, ∃ k : Ctrl, ∃ s : State, AdminOk s cap k)
      ∧ (∃ cap : Cap, ∃ alloc : Nat, ∃ k : Ctrl, ∃ s : State, AdminOk s cap k ∧ KV.get? s.sec.nonces cap.ctrl = none)
      ∧ (∃ cap : Cap, ∃ alloc : Nat, ∃ k : Ctrl, ∃ s : State, AdminOk s cap k ∧ ∃ nonce, KV.get? s.sec.nonces cap.ctrl = some nonce) := by
  refine ⟨⟨acap, 64, 2 ^ 21, ctl1, host, ?_, ?_, ?_, ?_, ?_, ?_⟩,
    ⟨acap, 1, 0, ctl1, host, ?_⟩,
    ⟨acap, ctl1, host, ?_⟩,
    ⟨acap, 0, 0, ctl1, host, ?_, 1, ?_⟩,
    ⟨acap, 0, 0, ctl1, host, ?_⟩,
    ⟨acap, 0, 0, ctl1, host, ?_⟩,
    ⟨acap, 1, 0, ctl1, host, ?_, q1, ?_⟩,
    ⟨acap, 0x0B, 0, 0, ctl1, host, ?_, ?_, ?_⟩,
    ⟨acap, ctl1, host, ?_, ?_, ?_, ?_⟩,
    ⟨acap, { ctl1 with aers := [1, 2, 3, 4, 5, 6, 8, 9] }, host.modCmd fun m => { m with ctrls := [(1, { ctl1 with aers := [1, 2, 3, 4, 5, 6, 8, 9] })] }, ?_, ?_⟩,
    ⟨acap, 0, 9, { ctl1 with aers := [9] }, host.modCmd fun m => { m with ctrls := [(1, { ctl1 with aers := [9] })] }, ?_, ?_, ?_⟩,
    ⟨acap, 1, 9, ctl1, host, ?_, ?_, ?_⟩,
    ⟨acap, 1, 3, ctl1, holding (ctx1 wr .admitted), ?_, 1, ctx1 wr .admitted, ?_, ?_, ?_, ?_, ?_⟩,
    ⟨acap, 0xFF, ctl1, host, ?_⟩,
    ⟨acap, zeros 32, ctl1, host, ?_, ?_⟩,
    ⟨acap, 10, ctl1, host, ?_⟩,
    ⟨acap, 10, ctl1, host, ?_, ?_⟩,
    ⟨acap, 10, ctl1, host.modSec (fun m => { m with nonces := [(1, zeros 32)] }), ?_, zeros 32, ?_⟩⟩
  all_goals first
    | decide +kernel | exact authMet_of (by decide +kernel) | exact adminOk_of (by decide +kernel) | exact ok_of (by decide +kernel)
    | exact err_of (by decide +kernel) | exact calm_of (by decide +kernel) | exact ready_of (by decide +kernel) | exact current_of (by decide +kernel)
    | (simp only [Reached, AdminOk, Awake, Ready, Calm, IoOk, ConnectOk, LinkOk, DigestFree, NoItemWaits, KeyAttrOk, Admissible, Current, AdminFree, Storable, NodeWaits, ItemDone, OtherBuffer]; decide +kernel) | (intros; rfl) | trivial

theorem witness_NamespacesAndErase :
    (∃ cap : Cap, ∃ nsid : Nat, ∃ nsze : Nat, ∃ pi : Nat, ∃ lbaf : BitVec 8, ∃ grain : BitVec 8, ∃ first : Bool, ∃ ruh : List Nat, ∃ k : Ctrl, ∃ s : State, ∃ nsx : Nat, ∃ id : Nat, AdminOk s cap k ∧ lbaf.toNat ≤ 3 ∧ createFieldsOk nsze lbaf.toNat grain.toNat pi ruh = true ∧ s.nsBytes k.inst + 4096 * nsze ≤ s.quotaBytes k.inst ∧ ((List.range 4096).find? (fun n => (KV.get? s.media.nss n).isNone) = some nsx) ∧ ((List.range 256).find? (fun n => (s.nssOf k.inst).all fun e => e.2.nsid ≠ n + 1) = some id) ∧ s.sec.trngFailed = false)
      ∧ (∃ cap : Cap, ∃ nsid : Nat, ∃ nsze : Nat, ∃ pi : Nat, ∃ lbaf : BitVec 8, ∃ grain : BitVec 8, ∃ first : Bool, ∃ kv : Bool, ∃ ruh : List Nat, ∃ k : Ctrl, ∃ s : State, AdminOk s cap k ∧ lbaf.toNat ≤ 3 ∧ createFieldsOk nsze lbaf.toNat grain.toNat pi ruh = true ∧ s.quotaBytes k.inst < s.nsBytes k.inst + 4096 * nsze ∧ (s.nssOf k.inst).length < 256 ∧ s.media.nss.length < 4096)
      ∧ (∃ cap : Cap, ∃ nsid : Nat, ∃ nsze : Nat, ∃ pi : Nat, ∃ lbaf : BitVec 8, ∃ grain : BitVec 8, ∃ first : Bool, ∃ kv : Bool, ∃ ruh : List Nat, ∃ k : Ctrl, ∃ s : State, ∃ nsx : Nat, ∃ n : NsS, AdminOk s cap k ∧ nsid ≠ 0xFFFFFFFF ∧ KV.get? s.media.nss nsx = some n ∧ n.inst = k.inst ∧ n.nsid = nsid ∧ ((∀ e ∈ s.nssOf k.inst, e.2.sanitizing = false)))
      ∧ (∃ cap : Cap, ∃ nsid : Nat, ∃ ctrls : List Nat, ∃ k : Ctrl, ∃ s : State, AdminOk s cap k ∧ (s.nsOf k.inst nsid).isSome = true ∧ ctrls ≠ [] ∧ ((∀ c ∈ ctrls, c ∈ (s.ctrlsOf k.inst).map Prod.fst ∧ c ∉ s.attachedTo k.inst nsid)) ∧ ((∀ c ∈ ctrls, ∃ x, s.ctrl? c = some x ∧ x.inst = k.inst)))
      ∧ (∃ cap : Cap, ∃ nsid : Nat, ∃ pi : Nat, ∃ lbaf : BitVec 8, ∃ first : Bool, ∃ k : Ctrl, ∃ s : State, ∃ nsx : Nat, ∃ n : NsS, AdminOk s cap k ∧ s.nsOf k.inst nsid = some (nsx, n) ∧ KV.get? s.media.nss nsx = some n ∧ lbaf.toNat ≤ 3 ∧ pi ≤ 3 ∧ ((pi = 0 ∨ lbaf.toNat ≠ 0)) ∧ n.sanitizing = false ∧ KV.get? s.sec.erases k.inst = none ∧ s.startedOn [nsx] = false)
      ∧ (∃ cap : Cap, ∃ nsid : Nat, ∃ pi : Nat, ∃ lbaf : BitVec 8, ∃ first : Bool, ∃ k : Ctrl, ∃ s : State, ∃ nsx : Nat, ∃ n : NsS, AdminOk s cap k ∧ s.nsOf k.inst nsid = some (nsx, n) ∧ KV.get? s.media.nss nsx = some n ∧ lbaf.toNat ≤ 3 ∧ pi ≤ 3 ∧ ((pi = 0 ∨ lbaf.toNat ≠ 0)) ∧ n.sanitizing = false ∧ KV.get? s.sec.erases k.inst = none)
      ∧ (∃ cap : Cap, ∃ k : Ctrl, ∃ s : State, AdminOk s cap k ∧ KV.get? s.sec.erases k.inst = none ∧ KV.risingFrom 0 s.media.nss = true)
      ∧ (∃ i : Fin 256, ∃ e : Erase, ∃ s : State, KV.get? s.sec.erases i.val = some e ∧ s.serving = true ∧ e.step = 1 ∧ s.startedOn e.nsxs = false)
      ∧ (∃ i : Fin 256, ∃ e : Erase, ∃ s : State, KV.get? s.sec.erases i.val = some e ∧ s.serving = true ∧ e.step = 2 ∧ s.sec.trngFailed = false)
      ∧ (∃ i : Fin 256, ∃ e : Erase, ∃ s : State, KV.get? s.sec.erases i.val = some e ∧ s.serving = true ∧ e.step = 4 ∧ s.bandsLeft e = [] ∧ e.purge = false ∧ e.waiter = .nobody) := by
  refine ⟨⟨acap, 0, 256, 0, 0, 2, false, [0], ctl1, host, 0, 0, ?_, ?_, ?_, ?_, ?_, ?_, ?_⟩,
    ⟨acap, 0, 2 ^ 40, 0, 0, 2, false, false, [0], ctl1, host, ?_, ?_, ?_, ?_, ?_, ?_⟩,
    ⟨acap, 1, 0, 0, 0, 0, false, false, [], ctlNs, withNs false host, 0, nsS false, ?_, ?_, ?_, ?_, ?_, ?_⟩,
    ⟨acap, 1, [1], ctl1, host.modMedia (fun m => { m with nss := [(0, nsS false)] }), ?_, ?_, ?_, ?_, (by intro c h; rw [List.mem_singleton.mp h]; exact ⟨ctl1, by decide +kernel, rfl⟩)⟩,
    ⟨acap, 1, 1, 1, false, ctlNs, withNs false host, 0, nsS false, ?_, ?_, ?_, ?_, ?_, ?_, ?_, ?_, ?_⟩,
    ⟨acap, 1, 1, 1, false, ctlNs, withNs false host, 0, nsS false, ?_, ?_, ?_, ?_, ?_, ?_, ?_, ?_⟩,
    ⟨acap, ctlNs, withNs false host, ?_, ?_, ?_⟩,
    ⟨0, erase0 1, erasing 1, ?_, ?_, ?_, ?_⟩,
    ⟨0, erase0 2, erasing 2, ?_, ?_, ?_, ?_⟩,
    ⟨0, erase0 4, erasing 4, ?_, ?_, ?_, ?_, ?_, ?_⟩⟩
  all_goals first
    | decide +kernel | exact authMet_of (by decide +kernel) | exact adminOk_of (by decide +kernel) | exact ok_of (by decide +kernel)
    | exact err_of (by decide +kernel) | exact calm_of (by decide +kernel) | exact ready_of (by decide +kernel) | exact current_of (by decide +kernel)
    | (simp only [Reached, AdminOk, Awake, Ready, Calm, IoOk, ConnectOk, LinkOk, DigestFree, NoItemWaits, KeyAttrOk, Admissible, Current, AdminFree, Storable, NodeWaits, ItemDone, OtherBuffer]; decide +kernel) | (intros; rfl) | trivial

theorem witness_FirmwareUpdate :
    (∃ cap : Cap, ∃ off : Nat, ∃ data : List Byte, ∃ k : Ctrl, ∃ s : State, AdminOk s cap k ∧ k.inst = 0 ∧ off % 4096 = 0 ∧ data.length % 4096 = 0 ∧ 0 < data.length ∧ data.length ≤ 2 ^ 21 ∧ off + data.length ≤ 2 ^ 26)
      ∧ (∃ cap : Cap, ∃ off : Nat, ∃ declared : Nat, ∃ data : List Byte, ∃ k : Ctrl, ∃ s : State, AdminOk s cap k ∧ k.inst = 0 ∧ (off % 4096 ≠ 0 ∨ declared % 4096 ≠ 0 ∨ declared = 0 ∨ 2 ^ 26 < off + declared))
      ∧ (∃ cap : Cap, ∃ slot : BitVec 3, ∃ b : Bundle, ∃ k : Ctrl, ∃ s : State, AdminOk s cap k ∧ k.inst = 0 ∧ s.serving = true ∧ s.slotBundle slot.toNat = some b ∧ s.bundlePasses b = true)
      ∧ (∃ cap : Cap, ∃ action : BitVec 3, ∃ slot : BitVec 3, ∃ k : Ctrl, ∃ s : State, AdminOk s cap k ∧ k.inst = 0 ∧ s.serving = true ∧ action.toNat ≤ 3 ∧ slot.toNat ∉ [1, 2])
      ∧ (∃ s : State, s.cmd.act = .draining ∧ s.prog.flows = [])
      ∧ (∃ s : State, ∃ c : Nat, ∃ slot : Nat, ∃ x : Ctx, s.cmd.act = .swapping ∧ s.cmd.actCmd = some (some c, slot) ∧ s.cmd.heldConnects = [] ∧ s.ctx? c = some x ∧ Current s x)
      ∧ (∃ s : State, ∃ c : Nat, ∃ slot : Nat, ∃ x : Ctx, s.cmd.act = .swapping ∧ s.cmd.actCmd = some (some c, slot) ∧ s.cmd.heldConnects = [] ∧ s.ctx? c = some x ∧ Current s x) := by
  refine ⟨⟨acap, 4096, zeros 4096, ctl1, host, ?_, ?_, ?_, ?_, ?_, ?_, ?_⟩,
    ⟨acap, 1, 4096, [], ctl1, host, ?_, ?_, ?_⟩,
    ⟨acap, 2, bundle0, ctl1, host.modFw fun f => { f with slot2 := some bundle0 }, ?_, ?_, ?_, ?_, ?_⟩,
    ⟨acap, 0, 3, ctl1, host, ?_, ?_, ?_, ?_, ?_⟩,
    ⟨host.modCmd fun m => { m with act := .draining }, ?_, ?_⟩,
    ⟨swapping, 1, 2, ctx1 wr .admitted, ?_, ?_, ?_, ?_, ?_⟩,
    ⟨swapping, 1, 2, ctx1 wr .admitted, ?_, ?_, ?_, ?_, ?_⟩⟩
  all_goals first
    | decide +kernel | exact authMet_of (by decide +kernel) | exact adminOk_of (by decide +kernel) | exact ok_of (by decide +kernel)
    | exact err_of (by decide +kernel) | exact calm_of (by decide +kernel) | exact ready_of (by decide +kernel) | exact current_of (by decide +kernel)
    | (simp only [Reached, AdminOk, Awake, Ready, Calm, IoOk, ConnectOk, LinkOk, DigestFree, NoItemWaits, KeyAttrOk, Admissible, Current, AdminFree, Storable, NodeWaits, ItemDone, OtherBuffer]; decide +kernel) | (intros; rfl) | trivial

theorem witness_IoCommandsTakeContexts :
    (∃ op : Instr, ∃ cap : Cap, ∃ k : Ctrl, ∃ q : IoQueue, ∃ s : State, ∃ expected : Nat, IoOk s op cap k q ∧ cap.roundNow = false ∧ (s.keepAlive cap.ctrl).precheck k.inst cap.ctrl op = .ok expected ∧ (takesData op = false ∨ (capsuleData op = [] ∧ 0 < expected)))
      ∧ (∃ op : Instr, ∃ cap : Cap, ∃ k : Ctrl, ∃ q : IoQueue, ∃ s : State, ∃ st : Status, IoOk s op cap k q ∧ cap.roundNow = false ∧ (s.keepAlive cap.ctrl).precheck k.inst cap.ctrl op = .error st)
      ∧ (∃ op : Instr, ∃ cap : Cap, ∃ k : Ctrl, ∃ q : IoQueue, ∃ s : State, op.ioCap = some cap ∧ s.ctrl? cap.ctrl = some k ∧ cap.qid ≠ 0 ∧ KV.get? k.queues cap.qid = some q ∧ s.cmd.drainStopped = false ∧ k.resetting = false ∧ (s.instOf k.inst).resetting = false ∧ s.cmd.act = .idle ∧ (q.waiting ≠ [] ∨ s.hasRoom cap.ctrl cap.qid k q = false))
      ∧ (∃ op : Instr, ∃ cap : Cap, ∃ k : Ctrl, ∃ q : IoQueue, ∃ rest : List Instr, ∃ s : State, ∃ expected : Nat, op.ioCap = some cap ∧ s.ctrl? cap.ctrl = some k ∧ cap.qid ≠ 0 ∧ KV.get? k.queues cap.qid = some q ∧ q.waiting = op :: rest ∧ s.cmd.act = .idle ∧ s.hasRoom cap.ctrl cap.qid k q = true ∧ ((∀ e ∈ s.cmd.ctxs, e.2.ctrl = cap.ctrl → e.2.qid = cap.qid → e.2.cid ≠ cap.cid)) ∧ ((s.modCtrl cap.ctrl fun k => { k with queues := KV.adjust k.queues cap.qid fun q => { q with waiting := rest } }).precheck k.inst cap.ctrl op = .ok expected) ∧ takesData op = false)
      ∧ (∃ c : Nat, ∃ qid : Nat, ∃ k : Ctrl, ∃ s : State, s.ctrl? c = some k) := by
  refine ⟨⟨rd, iocap, ctlNs, q1, hostNs, 0, ?_, ?_, ?_, (.inl rfl)⟩,
    ⟨rd, iocap, ctl1, q1, host, ⟨0, 2, true⟩, ?_, ?_, ?_⟩,
    ⟨rd, iocap, { ctl1 with queues := [(1, { q1 with waiting := [rd] })] }, { q1 with waiting := [rd] }, host.modCmd fun m => { m with ctrls := [(1, { ctl1 with queues := [(1, { q1 with waiting := [rd] })] })] }, ?_, ?_, ?_, ?_, ?_, ?_, ?_, ?_, ?_⟩,
    ⟨rd, iocap, { ctlNs with queues := [(1, { q1 with waiting := [rd] })] }, { q1 with waiting := [rd] }, [], hostNs.modCmd (fun m => { m with ctrls := [(1, { ctlNs with queues := [(1, { q1 with waiting := [rd] })] })] }), 0, ?_, ?_, ?_, ?_, ?_, ?_, ?_, ?_, ?_, ?_⟩,
    ⟨1, 1, ctl1, host, ?_⟩⟩
  all_goals first
    | decide +kernel | exact authMet_of (by decide +kernel) | exact adminOk_of (by decide +kernel) | exact ok_of (by decide +kernel)
    | exact err_of (by decide +kernel) | exact calm_of (by decide +kernel) | exact ready_of (by decide +kernel) | exact current_of (by decide +kernel)
    | (simp only [Reached, AdminOk, Awake, Ready, Calm, IoOk, ConnectOk, LinkOk, DigestFree, NoItemWaits, KeyAttrOk, Admissible, Current, AdminFree, Storable, NodeWaits, ItemDone, OtherBuffer]; decide +kernel) | (intros; rfl) | trivial

theorem witness_InCapsuleData :
    (∃ op : Instr, ∃ cap : Cap, ∃ k : Ctrl, ∃ q : IoQueue, ∃ s : State, ∃ expected : Nat, ∃ d : List Byte, IoOk s op cap k q ∧ cap.roundNow = false ∧ (s.keepAlive cap.ctrl).precheck k.inst cap.ctrl op = .ok expected ∧ takesData op = true ∧ d = capsuleData op ∧ expected < d.length)
      ∧ (∃ op : Instr, ∃ cap : Cap, ∃ k : Ctrl, ∃ q : IoQueue, ∃ s : State, ∃ expected : Nat, ∃ d : List Byte, IoOk s op cap k q ∧ cap.roundNow = false ∧ (s.keepAlive cap.ctrl).precheck k.inst cap.ctrl op = .ok expected ∧ takesData op = true ∧ d = capsuleData op ∧ 0 < d.length ∧ d.length < expected)
      ∧ (∃ op : Instr, ∃ cap : Cap, ∃ k : Ctrl, ∃ q : IoQueue, ∃ s : State, ∃ expected : Nat, ∃ d : List Byte, IoOk s op cap k q ∧ cap.roundNow = false ∧ (s.keepAlive cap.ctrl).precheck k.inst cap.ctrl op = .ok expected ∧ takesData op = true ∧ d = capsuleData op ∧ d.length = expected ∧ ((∃ c r sl prp, op = .compare c r sl prp d) ∨ (∃ c i n, op = .loadProgram c i n d) ∨ (∃ c rsid off n, op = .memoryWrite c rsid off n d)))
      ∧ (∃ op : Instr, ∃ cap : Cap, ∃ k : Ctrl, ∃ q : IoQueue, ∃ s : State, ∃ expected : Nat, ∃ d : List Byte, IoOk s op cap k q ∧ cap.roundNow = false ∧ (s.keepAlive cap.ctrl).precheck k.inst cap.ctrl op = .ok expected ∧ takesData op = true ∧ d = capsuleData op ∧ d.length = expected ∧ ∃ c, ∃ r, ∃ fua, ∃ sl, ∃ fdp, ∃ prp, ∃ nsx, ∃ n, ∃ l, op = .write c r fua sl fdp prp d ∧ s.nsOf k.inst r.nsid = some (nsx, n) ∧ n.storeForm r.pi r.nlb d = .ok l) := by
  refine ⟨⟨cmpr 4097, iocap, ctlNs, q1, hostNs, 4096, zeros 4097, ?_, ?_, ?_, ?_, ?_, ?_⟩,
    ⟨cmpr 4095, iocap, ctlNs, q1, hostNs, 4096, zeros 4095, ?_, ?_, ?_, ?_, ?_, ?_, ?_⟩,
    ⟨cmpr 4096, iocap, ctlNs, q1, hostNs, 4096, zeros 4096, ?_, ?_, ?_, ?_, ?_, ?_, (.inl ⟨iocap, rng, false, false, rfl⟩)⟩,
    ⟨.write iocap rng false false none false (zeros 4096), iocap, ctlNs, q1, hostNs, 4096, zeros 4096, ?_, ?_, ?_, ?_, ?_, ?_, iocap, rng, false, false, none, false, 0, nsS false, sliceB (sliceB (zeros 4096) 0 4096) 0 4096, (rfl), ?_, (storeForm_plain _)⟩⟩
  all_goals first
    | decide +kernel | exact authMet_of (by decide +kernel) | exact adminOk_of (by decide +kernel) | exact ok_of (by decide +kernel)
    | exact err_of (by decide +kernel) | exact calm_of (by decide +kernel) | exact ready_of (by decide +kernel) | exact current_of (by decide +kernel)
    | (simp only [Reached, AdminOk, Awake, Ready, Calm, IoOk, ConnectOk, LinkOk, DigestFree, NoItemWaits, KeyAttrOk, Admissible, Current, AdminFree, Storable, NodeWaits, ItemDone, OtherBuffer]; decide +kernel) | (intros; rfl) | trivial

theorem witness_CommandPathEvents :
    (∃ c : Nat, ∃ x : Ctx, ∃ cap : Cap, ∃ s : State, s.ctx? c = some x ∧ Current s x ∧ ∃ rsid, ∃ off, ∃ len, x.op = .memoryRead cap rsid off len)
      ∧ (∃ c : Nat, ∃ x : Ctx, ∃ cap : Cap, ∃ s : State, s.ctx? c = some x ∧ Current s x ∧ ∃ rsid, ∃ off, ∃ len, x.op = .memoryRead cap rsid off len)
      ∧ (∃ c : Nat, ∃ x : Ctx, ∃ cap : Cap, ∃ s : State, s.ctx? c = some x ∧ Current s x ∧ ∃ rsid, ∃ off, ∃ len, x.op = .memoryRead cap rsid off len)
      ∧ (∃ c : Nat, ∃ x : Ctx, ∃ cap : Cap, ∃ s : State, s.ctx? c = some x ∧ Current s x ∧ ∃ rsid, ∃ off, ∃ n, ∃ l, x.op = .memoryWrite cap rsid off n l ∧ off + x.got.length ≤ 2 ^ 40)
      ∧ (∃ c : Nat, ∃ x : Ctx, ∃ cap : Cap, ∃ s : State, s.ctx? c = some x ∧ Current s x ∧ ∃ rsid, ∃ off, ∃ n, ∃ l, x.op = .memoryWrite cap rsid off n l ∧ off + x.got.length ≤ 2 ^ 40)
      ∧ (∃ c : Nat, ∃ x : Ctx, ∃ cap : Cap, ∃ s : State, s.ctx? c = some x ∧ Current s x ∧ ∃ rsid, ∃ off, ∃ n, ∃ l, x.op = .memoryWrite cap rsid off n l ∧ off + x.got.length ≤ 2 ^ 40 ∧ ∃ i, ∃ r, ∃ o, ((i, r, o) ∉ (List.range x.got.length).map (fun j => (x.inst, rsid.toNat, off + j))) ∧ r < 2 ^ 16 ∧ o < 2 ^ 40)
      ∧ (∃ c : Nat, ∃ x : Ctx, ∃ cap : Cap, ∃ s : State, s.ctx? c = some x ∧ Current s x ∧ ∃ rsid, ∃ off, ∃ len, ∃ v, x.op = .memoryFill cap rsid off len v ∧ off + len ≤ 2 ^ 40)
      ∧ (∃ c : Nat, ∃ x : Ctx, ∃ cap : Cap, ∃ s : State, s.ctx? c = some x ∧ Current s x ∧ ∃ rsid, ∃ off, ∃ len, ∃ v, x.op = .memoryFill cap rsid off len v ∧ off + len ≤ 2 ^ 40)
      ∧ (∃ c : Nat, ∃ x : Ctx, ∃ cap : Cap, ∃ s : State, s.ctx? c = some x ∧ Current s x ∧ ∃ rsid, ∃ len, x.op = .memoryRangeSetManagement cap rsid (some len) ∧ rsid ≠ 0xFFFF ∧ len ≠ 0 ∧ KV.get? s.prog.mrs (mrsKey x.inst rsid.toNat) = none ∧ s.slmLacks x.inst len = false)
      ∧ (∃ c : Nat, ∃ x : Ctx, ∃ cap : Cap, ∃ s : State, s.ctx? c = some x ∧ Current s x ∧ ∃ rsid, ∃ len, x.op = .memoryRangeSetManagement cap rsid (some len) ∧ rsid ≠ 0xFFFF ∧ len ≠ 0 ∧ KV.get? s.prog.mrs (mrsKey x.inst rsid.toNat) = none ∧ s.slmLacks x.inst len = false)
      ∧ (∃ c : Nat, ∃ x : Ctx, ∃ cap : Cap, ∃ s : State, s.ctx? c = some x ∧ Current s x ∧ ∃ nsid, ∃ hs, ∃ nsx, ∃ n, x.op = .ioManagementSend cap nsid hs ∧ s.nsOf x.inst nsid = some (nsx, n) ∧ KV.get? s.media.nss nsx = some n)
      ∧ (∃ c : Nat, ∃ x : Ctx, ∃ cap : Cap, ∃ s : State, s.ctx? c = some x ∧ Current s x ∧ ∃ nsid, ∃ hs, ∃ nsx, ∃ n, x.op = .ioManagementSend cap nsid hs ∧ s.nsOf x.inst nsid = some (nsx, n) ∧ KV.get? s.media.nss nsx = some n)
      ∧ (∃ c : Nat, ∃ x : Ctx, ∃ cap : Cap, ∃ s : State, s.ctx? c = some x ∧ Current s x ∧ ∃ nsid, ∃ l, x.op = .datasetManagement cap nsid false l)
      ∧ (∃ c : Nat, ∃ x : Ctx, ∃ cap : Cap, ∃ s : State, s.ctx? c = some x ∧ Current s x ∧ ∃ nsid, ∃ l, x.op = .datasetManagement cap nsid false l)
      ∧ (∃ s : State, s.serving = true ∧ s.inst.applyDue = false ∧ ((∀ e ∈ s.cmd.ctxs, e.2.qid ≠ 0 → e.2.state ≠ .admitted)))
      ∧ (∃ c : Nat, ∃ d : Nat, ∃ k : Ctrl, ∃ s : State, Awake s ∧ s.ctrl? c = some k ∧ k.kaDue = some d ∧ s.cmd.act = .idle)
      ∧ (∃ n : Nat, ∃ c : Conn, ∃ s : State, s.conn? n = some c)
      ∧ (∃ c : Nat, ∃ d : Nat, ∃ x : Ctx, ∃ s : State, s.ctx? c = some x ∧ x.xferDue = some d ∧ s.cmd.act = .idle ∧ Current s x)
      ∧ (∃ c : Nat, ∃ d : Nat, ∃ x : Ctx, ∃ s : State, s.ctx? c = some x ∧ x.resetDue = some d ∧ x.state = .issued ∧ ((∀ f ∈ s.prog.flows, f.2.ctx ≠ c)))
      ∧ (∃ c : Nat, ∃ k : Ctrl, ∃ s : State, s.ctrl? c = some k ∧ k.resetting = true ∧ ((∀ e ∈ s.cmd.ctxs, e.2.ctrl ≠ c))) := by
  refine ⟨⟨1, ctx1 (.memoryRead iocap 1 0 8) .issued, iocap, holding (ctx1 (.memoryRead iocap 1 0 8) .issued), ?_, ?_, 1, 0, 8, ?_⟩,
    ⟨1, ctx1 (.memoryRead iocap 1 0 8) .issued, iocap, holding (ctx1 (.memoryRead iocap 1 0 8) .issued), ?_, ?_, 1, 0, 8, ?_⟩,
    ⟨1, ctx1 (.memoryRead iocap 1 0 8) .issued, iocap, holding (ctx1 (.memoryRead iocap 1 0 8) .issued), ?_, ?_, 1, 0, 8, ?_⟩,
    ⟨1, ctx1 (.memoryWrite iocap 1 0 1 [5]) .issued, iocap, holding (ctx1 (.memoryWrite iocap 1 0 1 [5]) .issued), ?_, ?_, 1, 0, 1, [5], ?_, ?_⟩,
    ⟨1, ctx1 (.memoryWrite iocap 1 0 1 [5]) .issued, iocap, holding (ctx1 (.memoryWrite iocap 1 0 1 [5]) .issued), ?_, ?_, 1, 0, 1, [5], ?_, ?_⟩,
    ⟨1, ctx1 (.memoryWrite iocap 1 0 1 [5]) .issued, iocap, holding (ctx1 (.memoryWrite iocap 1 0 1 [5]) .issued), ?_, ?_, 1, 0, 1, [5], ?_, ?_, 0, 2, 0, ?_, ?_, ?_⟩,
    ⟨1, ctx1 (.memoryFill iocap 1 0 8 5) .issued, iocap, holding (ctx1 (.memoryFill iocap 1 0 8 5) .issued), ?_, ?_, 1, 0, 8, 5, ?_, ?_⟩,
    ⟨1, ctx1 (.memoryFill iocap 1 0 8 5) .issued, iocap, holding (ctx1 (.memoryFill iocap 1 0 8 5) .issued), ?_, ?_, 1, 0, 8, 5, ?_, ?_⟩,
    ⟨1, ctx1 (.memoryRangeSetManagement iocap 1 (some 8)) .issued, iocap, holding (ctx1 (.memoryRangeSetManagement iocap 1 (some 8)) .issued), ?_, ?_, 1, 8, ?_, ?_, ?_, ?_, ?_⟩,
    ⟨1, ctx1 (.memoryRangeSetManagement iocap 1 (some 8)) .issued, iocap, holding (ctx1 (.memoryRangeSetManagement iocap 1 (some 8)) .issued), ?_, ?_, 1, 8, ?_, ?_, ?_, ?_, ?_⟩,
    ⟨1, ctx1 (.ioManagementSend iocap 1 [0]) .issued, iocap, withNsX (holding (ctx1 (.ioManagementSend iocap 1 [0]) .issued)), ?_, ?_, 1, [0], 0, nsS false, ?_, ?_, ?_⟩,
    ⟨1, ctx1 (.ioManagementSend iocap 1 [0]) .issued, iocap, withNsX (holding (ctx1 (.ioManagementSend iocap 1 [0]) .issued)), ?_, ?_, 1, [0], 0, nsS false, ?_, ?_, ?_⟩,
    ⟨1, ctx1 (.datasetManagement iocap 1 false []) .issued, iocap, holding (ctx1 (.datasetManagement iocap 1 false []) .issued), ?_, ?_, 1, [], ?_⟩,
    ⟨1, ctx1 (.datasetManagement iocap 1 false []) .issued, iocap, holding (ctx1 (.datasetManagement iocap 1 false []) .issued), ?_, ?_, 1, [], ?_⟩,
    ⟨host, ?_, ?_, ?_⟩,
    ⟨1, 5, { ctl1 with kaDue := some 5 }, host.modCmd fun m => { m with ctrls := [(1, { ctl1 with kaDue := some 5 })] }, ?_, ?_, ?_, ?_⟩,
    ⟨1, tcp, host, ?_⟩,
    ⟨1, 5, { ctx1 wr .admitted with xferDue := some 5 }, holding { ctx1 wr .admitted with xferDue := some 5 }, ?_, ?_, ?_, ?_⟩,
    ⟨1, 5, { ctx1 wr .issued with resetDue := some 5 }, holding { ctx1 wr .issued with resetDue := some 5 }, ?_, ?_, ?_, ?_⟩,
    ⟨1, { ctl1 with resetting := true }, host.modCmd fun m => { m with ctrls := [(1, { ctl1 with resetting := true })] }, ?_, ?_, ?_⟩⟩
  all_goals first
    | decide +kernel | exact authMet_of (by decide +kernel) | exact adminOk_of (by decide +kernel) | exact ok_of (by decide +kernel)
    | exact err_of (by decide +kernel) | exact calm_of (by decide +kernel) | exact ready_of (by decide +kernel) | exact current_of (by decide +kernel)
    | (simp only [Reached, AdminOk, Awake, Ready, Calm, IoOk, ConnectOk, LinkOk, DigestFree, NoItemWaits, KeyAttrOk, Admissible, Current, AdminFree, Storable, NodeWaits, ItemDone, OtherBuffer]; decide +kernel) | (intros; rfl) | trivial

theorem witness_InstanceResetsAndMailboxes :
    (∃ who : Fin 256, ∃ i : Fin 256, ∃ s : State, Reached s (.tenant who) (Pg.INST i.val) Fd.INST_RESET_GO.off ∧ i.val ≠ 0 ∧ (s.instOf i.val).resetting = false)
      ∧ (∃ who : Fin 256, ∃ i : Fin 256, ∃ s : State, Reached s (.tenant who) (Pg.INST i.val) Fd.INST_RESET_GO.off ∧ i.val ≠ 0 ∧ (s.instOf i.val).resetting = true)
      ∧ (∃ path : Path, ∃ i : Fin 256, ∃ s : State, Reached s path Pg.INSTM Fd.INSTM_ACTION_GO.off ∧ i.val ≠ 0 ∧ s.enabled i.val = false ∧ s.enableBit i.val = false ∧ s.purging i.val = false)
      ∧ (∃ who : Fin 256, ∃ i : Fin 256, ∃ s : State, Reached s (.tenant who) (Pg.INST i.val) Fd.INST_T2M_DOORBELL_RING.off ∧ i.val ≠ 0 ∧ (s.instOf i.val).t2mPending = false)
      ∧ (∃ who : Fin 256, ∃ i : Fin 256, ∃ s : State, Reached s (.tenant who) (Pg.INST i.val) Fd.INST_T2M_DOORBELL_RING.off ∧ i.val ≠ 0 ∧ (s.instOf i.val).t2mPending = true)
      ∧ (∃ path : Path, ∃ i : Fin 256, ∃ s : State, Reached s path Pg.INSTM Fd.INSTM_MBI_ACK_GO.off ∧ (s.instOf i.val).t2mPending = true)
      ∧ (∃ path : Path, ∃ i : Nat, ∃ s : State, Reached s path Pg.INSTM Fd.INSTM_MBO_SEND_GO.off ∧ i = s.cfg Pg.INSTM Fd.INSTM_MBO_SEL_INDEX ∧ i ≠ 0 ∧ s.enabled i = true ∧ 16 ≤ (s.instOf i).queue.length)
      ∧ (∃ path : Path, ∃ i : Nat, ∃ s : State, Reached s path Pg.INSTM Fd.INSTM_MBO_SEND_GO.off ∧ i = s.cfg Pg.INSTM Fd.INSTM_MBO_SEL_INDEX ∧ i ≠ 0 ∧ s.enabled i = true ∧ (s.instOf i).queue = [])
      ∧ (∃ path : Path, ∃ i : Fin 256, ∃ s : State, Reached s path (Pg.INST i.val) Fd.INST_M2T_ACK_ACK.off)
      ∧ (∃ path : Path, ∃ i : Fin 256, ∃ s : State, Reached s path (Pg.INST i.val) Fd.INST_M2T_ACK_ACK.off)
      ∧ (∃ i : Fin 256, ∃ d : Nat, ∃ s : State, (s.instOf i.val).windowDue = some d ∧ s.mode.mode ≠ .holdup)
      ∧ (∃ i : Fin 256, ∃ s : State, (s.instOf i.val).resetting = true ∧ (s.instOf i.val).resetHeld = none ∧ (s.instOf i.val).disableHeld = false ∧ ((∀ e ∈ s.cmd.ctxs, e.2.inst ≠ i.val)) ∧ s.cmd.heldConnects = []) := by
  refine ⟨⟨1, 1, inst1, ?_, ?_, ?_⟩,
    ⟨1, 1, inst1.modInstOf 1 fun x => { x with resetting := true }, ?_, ?_, ?_⟩,
    ⟨.mp, 1, up, ?_, ?_, ?_, ?_, ?_⟩,
    ⟨1, 1, inst1, ?_, ?_, ?_⟩,
    ⟨1, 1, inst1.modInstOf 1 fun x => { x with t2mPending := true }, ?_, ?_, ?_⟩,
    ⟨.mp, 1, up.modInstOf 1 fun x => { x with t2mPending := true }, ?_, ?_⟩,
    ⟨.mp, 1, (inst1.setFld Pg.INSTM Fd.INSTM_MBO_SEL_INDEX 1).modInstOf 1 fun x => { x with queue := List.replicate 16 ⟨true, 0, 0, []⟩ }, ?_, ?_, ?_, ?_, ?_⟩,
    ⟨.mp, 1, inst1.setFld Pg.INSTM Fd.INSTM_MBO_SEL_INDEX 1, ?_, ?_, ?_, ?_, ?_⟩,
    ⟨.mp, 1, inst1, ?_⟩,
    ⟨.mp, 1, inst1, ?_⟩,
    ⟨1, 5, up.modInstOf 1 fun x => { x with windowDue := some 5 }, ?_, ?_⟩,
    ⟨1, up.modInstOf 1 fun x => { x with resetting := true }, ?_, ?_, ?_, ?_, ?_⟩⟩
  all_goals first
    | decide +kernel | exact authMet_of (by decide +kernel) | exact adminOk_of (by decide +kernel) | exact ok_of (by decide +kernel)
    | exact err_of (by decide +kernel) | exact calm_of (by decide +kernel) | exact ready_of (by decide +kernel) | exact current_of (by decide +kernel)
    | (simp only [Reached, AdminOk, Awake, Ready, Calm, IoOk, ConnectOk, LinkOk, DigestFree, NoItemWaits, KeyAttrOk, Admissible, Current, AdminFree, Storable, NodeWaits, ItemDone, OtherBuffer]; decide +kernel) | (intros; rfl) | trivial

end Sys2Proof.Tests
end

