-- ==== Sys2Proof/Tests/WitnessControl.lean ====
section
/-! SUPPORT. For each obligation about the control space, the modes, the supplies and the failures: a concrete state and operands that meet its hypotheses, clause by clause. -/

namespace Sys2Proof.Tests

open Sys2Proof Machine

set_option Elab.async false
set_option linter.all false

theorem witness_RegisterWriteChangesRwFields :
    (∃ path : Path, ∃ addr : BitVec 26, ∃ v : Word, ∃ s : State, addr.toNat % 4 = 0 ∧ 0x40 ≤ addr.toNat % 4096 ∧ ((0x400 ≤ addr.toNat % 4096 → hasCap (addr.toNat / 4096) 1 = true)) ∧ Reached s path (addr.toNat / 4096) (addr.toNat % 4096) ∧ NoAction (addr.toNat / 4096) (addr.toNat % 4096) ∧ pageType (addr.toNat / 4096) ≠ PT.TEST ∧ pageType (addr.toNat / 4096) ≠ PT.INST ∧ RegMap.any (pageType (addr.toNat / 4096)) (addr.toNat % 4096) (·.acc = .rw) = true ∧ RegMap.any (pageType (addr.toNat / 4096)) (addr.toNat % 4096) (·.acc = .rws) = false) := by
  refine ⟨.mp, ad Pg.LOG 0x54, 5, up, ?_, ?_, ?_, ?_, (fun s p v => rfl), ?_, ?_, ?_, ?_⟩
  all_goals first
    | decide +kernel | exact authMet_of (by decide +kernel) | exact adminOk_of (by decide +kernel) | exact ok_of (by decide +kernel)
    | exact err_of (by decide +kernel) | exact calm_of (by decide +kernel) | exact ready_of (by decide +kernel) | exact current_of (by decide +kernel)
    | (simp only [Reached, AdminOk, Awake, Ready, Calm, IoOk, ConnectOk, LinkOk, DigestFree, NoItemWaits, KeyAttrOk, Admissible, Current, AdminFree, Storable, NodeWaits, ItemDone, OtherBuffer]; decide +kernel) | (intros; rfl) | trivial

theorem witness_StagingImage :
    (∃ path : Path, ∃ addr : BitVec 26, ∃ v : Word, ∃ s : State, addr.toNat % 4 = 0 ∧ 0x40 ≤ addr.toNat % 4096 ∧ ((0x400 ≤ addr.toNat % 4096 → hasCap (addr.toNat / 4096) 1 = true)) ∧ Reached s path (addr.toNat / 4096) (addr.toNat % 4096) ∧ NoAction (addr.toNat / 4096) (addr.toNat % 4096) ∧ RegMap.any (pageType (addr.toNat / 4096)) (addr.toNat % 4096) (·.acc = .rw) = false ∧ RegMap.any (pageType (addr.toNat / 4096)) (addr.toNat % 4096) (·.acc = .rws) = true ∧ window (pageType (addr.toNat / 4096)) = none)
      ∧ (∃ path : Path, ∃ page : PageNo, ∃ s : State, Reached s path page.val 0x0C)
      ∧ (∃ path : Path, ∃ page : PageNo, ∃ s : State, Reached s path page.val 0x0C ∧ (s.tickPage page.val).mayStage path page.val = true)
      ∧ (∃ page : PageNo, ∃ s : State, (s.page page.val).owner ≠ 0) := by
  refine ⟨⟨.mp, ad Pg.LOG Fd.LOG_NOTIFY_MIN_SEV.off, 5, up, ?_, ?_, ?_, ?_, (fun s p v => rfl), ?_, ?_, ?_⟩,
    ⟨.mp, 6, up, ?_⟩,
    ⟨.mp, 6, up, ?_, ?_⟩,
    ⟨6, up.modPage 6 fun p => { p with owner := 1 }, ?_⟩⟩
  all_goals first
    | decide +kernel | exact authMet_of (by decide +kernel) | exact adminOk_of (by decide +kernel) | exact ok_of (by decide +kernel)
    | exact err_of (by decide +kernel) | exact calm_of (by decide +kernel) | exact ready_of (by decide +kernel) | exact current_of (by decide +kernel)
    | (simp only [Reached, AdminOk, Awake, Ready, Calm, IoOk, ConnectOk, LinkOk, DigestFree, NoItemWaits, KeyAttrOk, Admissible, Current, AdminFree, Storable, NodeWaits, ItemDone, OtherBuffer]; decide +kernel) | (intros; rfl) | trivial

theorem witness_CommitIsAllOrNothing :
    (∃ path : Path, ∃ page : PageNo, ∃ s : State, Reached s path page.val 0x14 ∧ hasCap page.val 0 = true ∧ page.val ≠ Pg.SEC ∧ ((s.tickPage page.val).page page.val).job = none)
      ∧ (∃ path : Path, ∃ page : PageNo, ∃ s : State, Reached s path page.val 0x14 ∧ hasCap page.val 0 = true ∧ ((s.tickPage page.val).page page.val).job.isSome = true)
      ∧ (∃ page : PageNo, ∃ ecc : Bool, ∃ s : State, ∃ j : CommitJob, ∃ reason : Nat, ∃ rule : Nat, (s.page page.val).job = some j ∧ j.waiter = .nobody ∧ s.commitReason page.val j.snap ecc = (reason, rule) ∧ reason ≠ 0 ∧ reason ≠ 8 ∧ reason ≠ 6)
      ∧ (∃ page : PageNo, ∃ ecc : Bool, ∃ s : State, ∃ j : CommitJob, ∃ reason : Nat, ∃ rule : Nat, (s.page page.val).job = some j ∧ j.waiter = .nobody ∧ s.commitReason page.val j.snap ecc = (reason, rule) ∧ (reason = 0 ∨ reason = 8) ∧ pageType page.val ∉ [PT.MODE, PT.NET, PT.DEV, PT.CLK, PT.NETX, PT.CLS, PT.INSTM, PT.MEDIA, PT.MAPC, PT.CLU] ∧ KV.risingFrom 0 j.snap = true) := by
  refine ⟨⟨.mp, 6, up, ?_, ?_, ?_, ?_⟩,
    ⟨.mp, 6, up.modPage 6 fun p => { p with job := some ⟨[], false, 0, .nobody⟩ }, ?_, ?_, ?_⟩,
    ⟨6, false, up.modPage 6 fun p => { p with expired := true, job := some ⟨[], false, 0, .nobody⟩ }, ⟨[], false, 0, .nobody⟩, 5, 0, ?_, ?_, ?_, ?_, ?_, ?_⟩,
    ⟨6, false, up.modPage 6 fun p => { p with job := some ⟨[], false, 0, .nobody⟩ }, ⟨[], false, 0, .nobody⟩, 8, 0, ?_, ?_, ?_, ?_, ?_, ?_⟩⟩
  all_goals first
    | decide +kernel | exact authMet_of (by decide +kernel) | exact adminOk_of (by decide +kernel) | exact ok_of (by decide +kernel)
    | exact err_of (by decide +kernel) | exact calm_of (by decide +kernel) | exact ready_of (by decide +kernel) | exact current_of (by decide +kernel)
    | (simp only [Reached, AdminOk, Awake, Ready, Calm, IoOk, ConnectOk, LinkOk, DigestFree, NoItemWaits, KeyAttrOk, Admissible, Current, AdminFree, Storable, NodeWaits, ItemDone, OtherBuffer]; decide +kernel) | (intros; rfl) | trivial

theorem witness_ExpertUnlock :
    (∃ path : Path, ∃ page : PageNo, ∃ s : State, (path = .mp ∨ path = .manager) ∧ Reached s path page.val 0x1C ∧ hasCap page.val 1 = true ∧ ((s.tickPage page.val).page page.val).lockUntil = none ∧ ∃ v : Word, v.toNat = 0x5EA50000 + page.val * 4096 % 65536)
      ∧ (∃ path : Path, ∃ page : PageNo, ∃ s : State, (path = .mp ∨ path = .manager) ∧ Reached s path page.val 0x1C ∧ hasCap page.val 1 = true ∧ ((s.tickPage page.val).page page.val).lockUntil = none ∧ ∃ v : Word, ∃ a : Nat, v.toNat = 0xFFFFFFFF - (0x5EA50000 + page.val * 4096 % 65536) ∧ (((s.tickPage page.val).page page.val).unlock path).armed = some a ∧ s.now - a ≤ 1000000000)
      ∧ (∃ path : Path, ∃ page : PageNo, ∃ s : State, (path = .mp ∨ path = .manager) ∧ Reached s path page.val 0x1C ∧ hasCap page.val 1 = true ∧ ((s.tickPage page.val).page page.val).lockUntil = none ∧ ∃ v : Word, v.toNat ≠ 0x5EA50000 + page.val * 4096 % 65536 ∧ v.toNat ≠ 0xFFFFFFFF - (0x5EA50000 + page.val * 4096 % 65536) ∧ (((s.tickPage page.val).page page.val).mp.fails ++ ((s.tickPage page.val).page page.val).mgr.fails).length < 3)
      ∧ (∃ path : Path, ∃ page : PageNo, ∃ s : State, (path = .mp ∨ path = .manager) ∧ Reached s path page.val 0x1C ∧ hasCap page.val 1 = true ∧ ((s.tickPage page.val).page page.val).lockUntil = none ∧ ∃ v : Word, v.toNat ≠ 0x5EA50000 + page.val * 4096 % 65536 ∧ v.toNat ≠ 0xFFFFFFFF - (0x5EA50000 + page.val * 4096 % 65536) ∧ (3 ≤ ((((s.tickPage page.val).page page.val).mp.fails ++ ((s.tickPage page.val).page page.val).mgr.fails).filter fun a => decide (s.now - a < 60000000000)).length))
      ∧ (∃ path : Path, ∃ page : PageNo, ∃ v : Word, ∃ s : State, (path = .mp ∨ path = .manager) ∧ Reached s path page.val 0x1C ∧ hasCap page.val 1 = true ∧ ((s.tickPage page.val).page page.val).lockUntil.isSome = true)
      ∧ (∃ path : Path, ∃ page : PageNo, ∃ s : State, ∃ d : Nat, (path = .mp ∨ path = .manager) ∧ page.val ≠ Pg.SEC ∧ ((s.page page.val).unlock path).openUntil = some d)
      ∧ (∃ page : PageNo, ∃ s : State, ∃ d : Nat, (s.page page.val).lockUntil = some d) := by
  refine ⟨⟨.mp, 7, up, ?_, ?_, ?_, ?_, 0x5EA57000, ?_⟩,
    ⟨.mp, 7, up.modPage 7 fun p => { p with mp := ⟨some 0, none, []⟩ }, ?_, ?_, ?_, ?_, 0xA15A8FFF, 0, ?_, ?_, ?_⟩,
    ⟨.mp, 7, up, ?_, ?_, ?_, ?_, 0, ?_, ?_, ?_⟩,
    ⟨.mp, 7, up.modPage 7 fun p => { p with mp := ⟨none, none, [0, 0, 0]⟩ }, ?_, ?_, ?_, ?_, 0, ?_, ?_, ?_⟩,
    ⟨.mp, 7, 0, up.modPage 7 fun p => { p with lockUntil := some 1 }, ?_, ?_, ?_, ?_⟩,
    ⟨.mp, 0, up.modPage 0 fun p => { p with mp := ⟨none, some 1, []⟩ }, 1, ?_, ?_, ?_⟩,
    ⟨7, up.modPage 7 fun p => { p with lockUntil := some 1 }, 1, ?_⟩⟩
  all_goals first
    | decide +kernel | exact authMet_of (by decide +kernel) | exact adminOk_of (by decide +kernel) | exact ok_of (by decide +kernel)
    | exact err_of (by decide +kernel) | exact calm_of (by decide +kernel) | exact ready_of (by decide +kernel) | exact current_of (by decide +kernel)
    | (simp only [Reached, AdminOk, Awake, Ready, Calm, IoOk, ConnectOk, LinkOk, DigestFree, NoItemWaits, KeyAttrOk, Admissible, Current, AdminFree, Storable, NodeWaits, ItemDone, OtherBuffer]; decide +kernel) | (intros; rfl) | trivial

theorem witness_EventSetAndClear :
    (∃ path : Path, ∃ page : PageNo, ∃ v : Word, ∃ s : State, Reached s path page.val 0x2C)
      ∧ (∃ path : Path, ∃ page : PageNo, ∃ v : Word, ∃ s : State, Reached s path page.val 0x30) := by
  refine ⟨⟨.mp, 6, 0, up, ?_⟩,
    ⟨.mp, 6, 0, up, ?_⟩⟩
  all_goals first
    | decide +kernel | exact authMet_of (by decide +kernel) | exact adminOk_of (by decide +kernel) | exact ok_of (by decide +kernel)
    | exact err_of (by decide +kernel) | exact calm_of (by decide +kernel) | exact ready_of (by decide +kernel) | exact current_of (by decide +kernel)
    | (simp only [Reached, AdminOk, Awake, Ready, Calm, IoOk, ConnectOk, LinkOk, DigestFree, NoItemWaits, KeyAttrOk, Admissible, Current, AdminFree, Storable, NodeWaits, ItemDone, OtherBuffer]; decide +kernel) | (intros; rfl) | trivial

theorem witness_ControlReadAndWrite :
    (∃ path : Path, ∃ s : State, Reached s path Pg.DEV Fd.DEV_TIME_LO_NS.off)
      ∧ (∃ cap : Cap, ∃ addr : BitVec 26, ∃ n : BitVec 11, ∃ s : State, ∃ k : Ctrl, AdminOk s cap k ∧ accessOk (adminPath k.inst) addr (adminAddr k.inst addr).1 (adminAddr k.inst addr).2 n.toNat = true)
      ∧ (∃ cap : Cap, ∃ addr : BitVec 26, ∃ n : BitVec 11, ∃ s : State, ∃ k : Ctrl, AdminOk s cap k ∧ accessOk (adminPath k.inst) addr (adminAddr k.inst addr).1 (adminAddr k.inst addr).2 n.toNat = false)
      ∧ (∃ cap : Cap, ∃ addr : BitVec 26, ∃ n : BitVec 11, ∃ ws : List Word, ∃ s : State, ∃ k : Ctrl, ∃ pg : Nat, ∃ off : Nat, ∃ u : State, AdminOk s cap k ∧ (pg, off) = adminAddr k.inst addr ∧ u = (s.charged cap k).tickPage pg ∧ accessOk (adminPath k.inst) addr pg off n.toNat = true ∧ ws.length = n.toNat ∧ u.unitState pg = 0 ∧ ((∀ o, inExpert pg o = true → u.expertOpen (adminPath k.inst) pg = true)) ∧ u.stagedRefused (adminPath k.inst) pg off (ws.map BitVec.toNat) = none ∧ pg ≠ Pg.MODE ∧ ((0x14 < off ∨ off + 4 * n.toNat ≤ 0x14))) := by
  refine ⟨⟨.mp, up, ?_⟩,
    ⟨acap, ad Pg.DEV 0, 1, host, ctl1, ?_, ?_⟩,
    ⟨acap, ad Pg.DEV 2, 1, host, ctl1, ?_, ?_⟩,
    ⟨acap, ad Pg.LOG 0x54, 1, [5], host, ctl1, Pg.LOG, 0x54, (host.charged acap ctl1).tickPage Pg.LOG, ?_, ?_, ?_, ?_, ?_, ?_, (fun o h => by simp [inExpert, show hasCap Pg.LOG 1 = false from by decide] at h), ?_, ?_, ?_⟩⟩
  all_goals first
    | decide +kernel | exact authMet_of (by decide +kernel) | exact adminOk_of (by decide +kernel) | exact ok_of (by decide +kernel)
    | exact err_of (by decide +kernel) | exact calm_of (by decide +kernel) | exact ready_of (by decide +kernel) | exact current_of (by decide +kernel)
    | (simp only [Reached, AdminOk, Awake, Ready, Calm, IoOk, ConnectOk, LinkOk, DigestFree, NoItemWaits, KeyAttrOk, Admissible, Current, AdminFree, Storable, NodeWaits, ItemDone, OtherBuffer]; decide +kernel) | (intros; rfl) | trivial

theorem witness_RegisterProtection :
    (∃ a : BitVec 26, ∃ s : State, s.scrubbed a = true ∧ a.toNat % 4096 ≠ 0x0C ∧ a.toNat % 4096 ≠ 0x24 ∧ RegMap.anyKept (pageType (a.toNat / 4096)) (a.toNat % 4096) = true ∧ ((∀ r, newestRec (s.mode.copyA.read [] (a.toNat / 4096)) (s.mode.copyB.read [] (a.toNat / 4096)) = some r → ∃ l, r.body = .page l)))
      ∧ (∃ a : BitVec 26, ∃ s : State, s.scrubbed a = true ∧ (s.page (a.toNat / 4096)).errCode = 0 ∧ (s.page (a.toNat / 4096)).uncorr = []) := by
  refine ⟨⟨ad Pg.LOG Fd.LOG_NOTIFY_MIN_SEV.off, up, ?_, ?_, ?_, ?_, (by intro r h; cases h)⟩,
    ⟨ad Pg.LOG 0x54, up, ?_, ?_, ?_⟩⟩
  all_goals first
    | decide +kernel | exact authMet_of (by decide +kernel) | exact adminOk_of (by decide +kernel) | exact ok_of (by decide +kernel)
    | exact err_of (by decide +kernel) | exact calm_of (by decide +kernel) | exact ready_of (by decide +kernel) | exact current_of (by decide +kernel)
    | (simp only [Reached, AdminOk, Awake, Ready, Calm, IoOk, ConnectOk, LinkOk, DigestFree, NoItemWaits, KeyAttrOk, Admissible, Current, AdminFree, Storable, NodeWaits, ItemDone, OtherBuffer]; decide +kernel) | (intros; rfl) | trivial

theorem witness_RetainedSettingsStore :
    (∃ page : PageNo, ∃ s : State, (s.page page.val).saveDue.isSome = true ∧ (s.mode.copyA.open_ = true ∨ s.mode.copyB.open_ = true))
      ∧ (∃ s : State, s.mode.copyA.compacting = true)
      ∧ (∃ s : State, s.mode.copyB.compacting = true)
      ∧ (∃ s : State, s.mode.mode = .service ∧ s.mode.copyA.headerOk = false)
      ∧ (∃ s : State, s.mode.mode = .service ∧ s.mode.copyB.headerOk = false) := by
  refine ⟨⟨6, up.modPage 6 fun p => { p with saveDue := some 1 }, ?_, ?_⟩,
    ⟨up.modMode fun m => { m with copyA := { m.copyA with compacting := true } }, ?_⟩,
    ⟨up.modMode fun m => { m with copyB := { m.copyB with compacting := true } }, ?_⟩,
    ⟨up.modMode fun m => { m with copyA := { m.copyA with headerOk := false } }, ?_, ?_⟩,
    ⟨up.modMode fun m => { m with copyB := { m.copyB with headerOk := false } }, ?_, ?_⟩⟩
  all_goals first
    | decide +kernel | exact authMet_of (by decide +kernel) | exact adminOk_of (by decide +kernel) | exact ok_of (by decide +kernel)
    | exact err_of (by decide +kernel) | exact calm_of (by decide +kernel) | exact ready_of (by decide +kernel) | exact current_of (by decide +kernel)
    | (simp only [Reached, AdminOk, Awake, Ready, Calm, IoOk, ConnectOk, LinkOk, DigestFree, NoItemWaits, KeyAttrOk, Admissible, Current, AdminFree, Storable, NodeWaits, ItemDone, OtherBuffer]; decide +kernel) | (intros; rfl) | trivial

theorem witness_ModeRequestsAllowed :
    (∃ path : Path, ∃ s : State, Reached s path Pg.MODE 0x44 ∧ s.mode.shutdown = none ∧ s.mode.mode ≠ .holdup ∧ s.mode.mode = .standby ∧ s.mainOk = true ∧ s.pwr.pwrdis = false)
      ∧ (∃ path : Path, ∃ s : State, Reached s path Pg.MODE 0x44 ∧ s.mode.shutdown = none ∧ s.mode.mode ≠ .holdup ∧ s.serving = true)
      ∧ (∃ path : Path, ∃ s : State, Reached s path Pg.MODE 0x44 ∧ s.mode.shutdown = none ∧ s.mode.mode ≠ .holdup ∧ s.mode.mode = .standby ∧ s.mainOk = true)
      ∧ (∃ path : Path, ∃ s : State, Reached s path Pg.MODE 0x44 ∧ s.mode.shutdown = none ∧ s.mode.mode ≠ .holdup ∧ s.serving = true)
      ∧ (∃ path : Path, ∃ s : State, Reached s path Pg.MODE 0x44 ∧ s.mode.shutdown = none ∧ s.mode.mode ≠ .holdup ∧ s.mode.mode = .diagnostic)
      ∧ (∃ path : Path, ∃ s : State, Reached s path Pg.MODE 0x44 ∧ s.mode.shutdown = none ∧ s.mode.mode ≠ .holdup ∧ (s.mode.mode = .service ∨ s.mode.mode = .reduced))
      ∧ (∃ path : Path, ∃ s : State, Reached s path Pg.MODE 0x44 ∧ s.mode.shutdown = none ∧ s.mode.mode ≠ .holdup ∧ s.mode.mode = .preserve ∧ ((∀ b, b < 10 → s.mode.preserveCause.testBit b = true → (s.tickPage Pg.MODE).causeHolds b = false))) := by
  refine ⟨⟨.mp, inMode .standby, ?_, ?_, ?_, ?_, ?_, ?_⟩,
    ⟨.mp, up, ?_, ?_, ?_, ?_⟩,
    ⟨.mp, inMode .standby, ?_, ?_, ?_, ?_, ?_⟩,
    ⟨.mp, up, ?_, ?_, ?_, ?_⟩,
    ⟨.mp, inMode .diagnostic, ?_, ?_, ?_, ?_⟩,
    ⟨.mp, up, ?_, ?_, ?_, ?_⟩,
    ⟨.mp, (inMode .preserve), ?_, ?_, ?_, ?_, ?_⟩⟩
  all_goals first
    | decide +kernel | exact authMet_of (by decide +kernel) | exact adminOk_of (by decide +kernel) | exact ok_of (by decide +kernel)
    | exact err_of (by decide +kernel) | exact calm_of (by decide +kernel) | exact ready_of (by decide +kernel) | exact current_of (by decide +kernel)
    | (simp only [Reached, AdminOk, Awake, Ready, Calm, IoOk, ConnectOk, LinkOk, DigestFree, NoItemWaits, KeyAttrOk, Admissible, Current, AdminFree, Storable, NodeWaits, ItemDone, OtherBuffer]; decide +kernel) | (intros; rfl) | trivial

theorem witness_ModeRequestsRefused :
    (∃ path : Path, ∃ s : State, ∃ c : Instr, ∃ r : Nat, (c, r) ∈ [(Instr.startRequest path, 1), (.shutdownRequest path, 2), (.diagnosticRequest path, 3), (.leaveDiagnosticRequest path, 4), (.preserveEnterRequest path, 5), (.preserveReleaseRequest path, 6)] ∧ Reached s path Pg.MODE 0x44 ∧ s.mode.shutdown = none ∧ s.mode.mode ≠ .holdup ∧ (s.tickPage Pg.MODE).reqAllowed r = false ∧ (s.page Pg.MODE).errCode = 0 ∧ s.mode.mpRestarting = false) := by
  refine ⟨.mp, up, .startRequest .mp, 1, ?_, ?_, ?_, ?_, ?_, ?_, ?_⟩
  all_goals first
    | decide +kernel | exact authMet_of (by decide +kernel) | exact adminOk_of (by decide +kernel) | exact ok_of (by decide +kernel)
    | exact err_of (by decide +kernel) | exact calm_of (by decide +kernel) | exact ready_of (by decide +kernel) | exact current_of (by decide +kernel)
    | (simp only [Reached, AdminOk, Awake, Ready, Calm, IoOk, ConnectOk, LinkOk, DigestFree, NoItemWaits, KeyAttrOk, Admissible, Current, AdminFree, Storable, NodeWaits, ItemDone, OtherBuffer]; decide +kernel) | (intros; rfl) | trivial

theorem witness_StartsAndStages :
    (∃ s : State, s.mode.mode = .standby ∧ s.autoCond = true ∧ s.mode.autoEdge = true ∧ s.mode.autoBlocked = false)
      ∧ (∃ s : State, s.mode.mode = .standby ∧ s.mainOk = true ∧ s.pwr.pwrdis = false ∧ s.mode.autoBlocked = true ∧ s.mode.holdCause = .resetSignal ∧ s.pwr.resetLow = false)
      ∧ (∃ s : State, ∃ x : StageRun, ∃ r : MethodEnd, s.mode.stage = some x ∧ r.ok = false ∧ x.second = false ∧ x.slot < 8)
      ∧ (∃ s : State, ∃ x : StageRun, ∃ r : MethodEnd, s.mode.stage = some x ∧ r.ok = true ∧ (x.slot = 0 ∨ x.slot = 1 ∨ x.slot = 3) ∧ s.mode.deferred = [] ∧ s.mode.ledger ≠ [] ∧ s.rec_.slots.length = 14)
      ∧ (∃ s : State, ∃ x : StageRun, s.mode.stage = some x ∧ x.second = false ∧ 0 < x.slot ∧ x.slot < 8)
      ∧ (∃ path : Path, ∃ v : Word, ∃ s : State, Reached s path Pg.MODE 0x58) := by
  refine ⟨⟨(inMode .standby).modMode fun m => { m with autoEdge := true }, ?_, ?_, ?_, ?_⟩,
    ⟨(inMode .standby).modMode fun m => { m with autoBlocked := true, holdCause := .resetSignal }, ?_, ?_, ?_, ?_, ?_, ?_⟩,
    ⟨(inMode .start).modMode fun m => { m with stage := some run1 }, run1, endBad, ?_, ?_, ?_, ?_⟩,
    ⟨(inMode .start).modMode fun m => { m with stage := some run1, ledger := [rec1] }, run1, endOk, ?_, ?_, ?_, ?_, ?_, ?_⟩,
    ⟨(inMode .start).modMode fun m => { m with stage := some { run1 with slot := 1 } }, { run1 with slot := 1 }, ?_, ?_, ?_, ?_⟩,
    ⟨.mp, 0, up, ?_⟩⟩
  all_goals first
    | decide +kernel | exact authMet_of (by decide +kernel) | exact adminOk_of (by decide +kernel) | exact ok_of (by decide +kernel)
    | exact err_of (by decide +kernel) | exact calm_of (by decide +kernel) | exact ready_of (by decide +kernel) | exact current_of (by decide +kernel)
    | (simp only [Reached, AdminOk, Awake, Ready, Calm, IoOk, ConnectOk, LinkOk, DigestFree, NoItemWaits, KeyAttrOk, Admissible, Current, AdminFree, Storable, NodeWaits, ItemDone, OtherBuffer]; decide +kernel) | (intros; rfl) | trivial

theorem witness_OrderlyShutdown :
    (∃ s : State, ∃ r : ShutdownRun, s.mode.shutdown = some r ∧ r.escalated = false ∧ r.step = 4)
      ∧ (∃ s : State, ∃ r : ShutdownRun, s.mode.shutdown = some r ∧ r.escalated = false ∧ r.step = 3)
      ∧ (∃ s : State, ∃ r : ShutdownRun, s.mode.shutdown = some r ∧ r.step = 2 ∧ s.cmd.ctxs = [] ∧ s.cmd.ctrls = [])
      ∧ (∃ s : State, ∃ r : ShutdownRun, s.mode.shutdown = some r ∧ r.escalated = false ∧ (r.step = 5 ∨ r.step = 6)) := by
  refine ⟨⟨up.modMode fun m => { m with shutdown := some ⟨4, 0, false, false⟩ }, ⟨4, 0, false, false⟩, ?_, ?_, ?_⟩,
    ⟨up.modMode fun m => { m with shutdown := some ⟨3, 0, false, false⟩ }, ⟨3, 0, false, false⟩, ?_, ?_, ?_⟩,
    ⟨up.modMode fun m => { m with shutdown := some ⟨2, 0, false, false⟩ }, ⟨2, 0, false, false⟩, ?_, ?_, ?_, ?_⟩,
    ⟨up.modMode fun m => { m with shutdown := some ⟨5, 0, false, false⟩ }, ⟨5, 0, false, false⟩, ?_, ?_, ?_⟩⟩
  all_goals first
    | decide +kernel | exact authMet_of (by decide +kernel) | exact adminOk_of (by decide +kernel) | exact ok_of (by decide +kernel)
    | exact err_of (by decide +kernel) | exact calm_of (by decide +kernel) | exact ready_of (by decide +kernel) | exact current_of (by decide +kernel)
    | (simp only [Reached, AdminOk, Awake, Ready, Calm, IoOk, ConnectOk, LinkOk, DigestFree, NoItemWaits, KeyAttrOk, Admissible, Current, AdminFree, Storable, NodeWaits, ItemDone, OtherBuffer]; decide +kernel) | (intros; rfl) | trivial

theorem witness_SuppliesAndSidebands :
    (∃ mv : BitVec 16, ∃ s : State, 40000 ≤ mv.toNat ∧ mv.toNat ≤ 60000)
      ∧ (∃ mv : BitVec 16, ∃ s : State, 10800 ≤ mv.toNat ∧ mv.toNat ≤ 13200)
      ∧ (∃ mv : BitVec 16, ∃ s : State, mv.toNat < 10800)
      ∧ (∃ s : State, s.mode.mode = .standby)
      ∧ (∃ a : Bool, ∃ b : Bool, ∃ la : List Nat, ∃ lb : List Nat, ∃ s : State, s.mode.mode = .off ∧ s.isUp Dom.MGMT = true)
      ∧ (∃ s : State, s.serving = true ∧ s.mode.shutdown = none ∧ s.pwr.pwrdis = false)
      ∧ (∃ s : State, s.mode.mode ≠ .off ∧ s.pwr.resetLow = false)
      ∧ (∃ s : State, ∃ a : Nat, s.serving = true ∧ s.pwr.resetLow = true ∧ s.pwr.resetLowAt = some a ∧ s.test.run = none)
      ∧ (∃ s : State, ∃ a : Nat, s.mode.mode = .standby ∧ s.mainOk = true ∧ s.pwr.pwrdis = false ∧ s.pwr.resetLow = true ∧ s.pwr.resetLowAt = some a) := by
  refine ⟨⟨40000, up, ?_, ?_⟩,
    ⟨10800, up, ?_, ?_⟩,
    ⟨10799, up, ?_⟩,
    ⟨inMode .standby, ?_⟩,
    ⟨true, true, [], [], inMode .off, ?_, ?_⟩,
    ⟨up, ?_, ?_, ?_⟩,
    ⟨up, ?_, ?_⟩,
    ⟨up.modPwr fun p => { p with resetLow := true, resetLowAt := some 0 }, 0, ?_, ?_, ?_, ?_⟩,
    ⟨(inMode .standby).modPwr fun p => { p with resetLow := true, resetLowAt := some 0 }, 0, ?_, ?_, ?_, ?_, ?_⟩⟩
  all_goals first
    | decide +kernel | exact authMet_of (by decide +kernel) | exact adminOk_of (by decide +kernel) | exact ok_of (by decide +kernel)
    | exact err_of (by decide +kernel) | exact calm_of (by decide +kernel) | exact ready_of (by decide +kernel) | exact current_of (by decide +kernel)
    | (simp only [Reached, AdminOk, Awake, Ready, Calm, IoOk, ConnectOk, LinkOk, DigestFree, NoItemWaits, KeyAttrOk, Admissible, Current, AdminFree, Storable, NodeWaits, ItemDone, OtherBuffer]; decide +kernel) | (intros; rfl) | trivial

theorem witness_SensorsAndCeiling :
    (∃ l : List (Fin 128 × BitVec 24), ∃ s : State, Awake s ∧ (l.map Prod.fst).Nodup ∧ ((∀ e ∈ l, (sensRange e.1.val).1 ≤ e.2.toInt ∧ e.2.toInt ≤ (sensRange e.1.val).2 ∧ s.sensLevel e.1.val e.2.toInt ≠ .trip)) ∧ ((∀ e ∈ s.sens.sensors, e.2.state ≠ .failed)))
      ∧ (∃ i : Fin 128, ∃ s : State, Awake s ∧ (s.sensor i.val).state ≠ .failed)
      ∧ (∃ s : State, ∃ d : Nat, Awake s ∧ s.sens.nextStep = some d)
      ∧ (∃ s : State, ∃ d : Nat, Awake s ∧ s.sens.clearSince = some d) := by
  refine ⟨⟨[(0, 30)], up, ?_, ?_, (fun e he => by rw [List.mem_singleton.mp he]; decide +kernel), ?_⟩,
    ⟨0, up, ?_, ?_⟩,
    ⟨up.modSens fun m => { m with nextStep := some 1 }, 1, ?_, ?_⟩,
    ⟨up.modSens fun m => { m with clearSince := some 1 }, 1, ?_, ?_⟩⟩
  all_goals first
    | decide +kernel | exact authMet_of (by decide +kernel) | exact adminOk_of (by decide +kernel) | exact ok_of (by decide +kernel)
    | exact err_of (by decide +kernel) | exact calm_of (by decide +kernel) | exact ready_of (by decide +kernel) | exact current_of (by decide +kernel)
    | (simp only [Reached, AdminOk, Awake, Ready, Calm, IoOk, ConnectOk, LinkOk, DigestFree, NoItemWaits, KeyAttrOk, Admissible, Current, AdminFree, Storable, NodeWaits, ItemDone, OtherBuffer]; decide +kernel) | (intros; rfl) | trivial

theorem witness_SourcesOfTime :
    (∃ e : Fin 512, ∃ dom : BitVec 8, ∃ off : Int, ∃ s : State, ((KV.getD [] s.net.addrs e.val).getD 0x10 0).getLsbD 0 = true ∧ ((KV.getD [] s.net.addrs e.val).getD 0x10 0).getLsbD 3 = true ∧ s.isUp Dom.NETCORE = true ∧ s.cfg Pg.DEV Fd.DEV_PTP_ENABLE = 1 ∧ s.cfg Pg.DEV Fd.DEV_PTP_DOMAIN = dom.toNat ∧ off.natAbs ≤ 1000)
      ∧ (∃ e : Fin 512, ∃ dom : BitVec 8, ∃ off : Int, ∃ s : State, ((KV.getD [] s.net.addrs e.val).getD 0x10 0).getLsbD 0 = true ∧ ((KV.getD [] s.net.addrs e.val).getD 0x10 0).getLsbD 3 = true ∧ s.isUp Dom.NETCORE = true ∧ s.cfg Pg.DEV Fd.DEV_PTP_ENABLE = 1 ∧ s.cfg Pg.DEV Fd.DEV_PTP_DOMAIN = dom.toNat ∧ 1000 < off.natAbs)
      ∧ (∃ s : State, ∃ a : Nat, s.time.ptpGoodSince = some a ∧ s.time.ptpLocked = false ∧ s.cfg Pg.DEV Fd.DEV_PTP_ENABLE = 1)
      ∧ (∃ path : Path, ∃ s : State, Reached s path Pg.DEV 0x408 ∧ s.time.ptpLocked = true)
      ∧ (∃ path : Path, ∃ s : State, Reached s path Pg.DEV 0x408 ∧ s.time.ptpLocked = false ∧ 0 ≤ (s.now : Int) + s.time.base)
      ∧ (∃ falling : Bool, ∃ s : State, s.mode.mode ≠ .off ∧ ((∀ a, s.time.lastPps = some a → a + 100 ≤ s.now)) ∧ 0 ≤ (s.now : Int) + s.time.base)
      ∧ (∃ s : State, ∃ a : Nat, Awake s ∧ s.time.lastPps = some a) := by
  refine ⟨⟨0, 0, 1000, ptpUp, ?_, ?_, ?_, ?_, ?_, ?_⟩,
    ⟨0, 0, 1001, ptpUp, ?_, ?_, ?_, ?_, ?_, ?_⟩,
    ⟨ptpUp.modTime fun t => { t with ptpGoodSince := some 0 }, 0, ?_, ?_, ?_⟩,
    ⟨.mp, (ex 0).modTime fun t => { t with ptpLocked := true }, ?_, ?_⟩,
    ⟨.mp, ex 0, ?_, ?_, ?_⟩,
    ⟨false, up.modTime fun t => { t with lastPps := none }, ?_, (by intro a h; cases h), ?_⟩,
    ⟨up.modTime fun t => { t with lastPps := some 0 }, 0, ?_, ?_⟩⟩
  all_goals first
    | decide +kernel | exact authMet_of (by decide +kernel) | exact adminOk_of (by decide +kernel) | exact ok_of (by decide +kernel)
    | exact err_of (by decide +kernel) | exact calm_of (by decide +kernel) | exact ready_of (by decide +kernel) | exact current_of (by decide +kernel)
    | (simp only [Reached, AdminOk, Awake, Ready, Calm, IoOk, ConnectOk, LinkOk, DigestFree, NoItemWaits, KeyAttrOk, Admissible, Current, AdminFree, Storable, NodeWaits, ItemDone, OtherBuffer]; decide +kernel) | (intros; rfl) | trivial

theorem witness_CagesClocksAndProcessor :
    (∃ p : Fin 2, ∃ s : State, Awake s ∧ s.cagePower p.val = true)
      ∧ (∃ p : Fin 2, ∃ w : Nat, ∃ s : State, s.mode.mode ≠ .off)
      ∧ (∃ p : Fin 2, ∃ s : State, s.mode.mode ≠ .off)
      ∧ (∃ d : Fin 25, ∃ s : State, clockPll d.val = true ∧ s.clockUp d.val = true ∧ s.pwr.pllLost.testBit d.val = false)
      ∧ (∃ d : Fin 25, ∃ s : State, Awake s ∧ s.pwr.relock.testBit d.val = true ∧ s.pwr.pllLost.testBit d.val = true)
      ∧ (∃ s : State, s.mode.mode ≠ .off)
      ∧ (∃ s : State, s.mode.mode ≠ .off)
      ∧ (∃ slot : Fin 4, ∃ resp : List Byte, ∃ s : State, s.mode.mode = .diagnostic)
      ∧ (∃ s : State, s.serving = true ∧ s.mode.mpRestarting = false ∧ s.log.mirrored < s.log.head)
      ∧ (∃ s : State, s.serving = true ∧ s.mode.mpRestarting = false ∧ s.log.mirrored < s.log.head)
      ∧ (∃ s : State, s.mode.mpRestarting = true ∧ s.sens.held = []) := by
  refine ⟨⟨0, up.modPwr fun p => { p with cage0 := ⟨true, 180, false⟩ }, ?_, ?_⟩,
    ⟨0, 180, up, ?_⟩,
    ⟨0, up, ?_⟩,
    ⟨3, up, ?_, ?_, ?_⟩,
    ⟨3, up.modPwr fun p => { p with pllLost := 8, relock := 8 }, ?_, ?_, ?_⟩,
    ⟨up, ?_⟩,
    ⟨up, ?_⟩,
    ⟨0, [], inMode .diagnostic, ?_⟩,
    ⟨up.modLog fun l => { l with head := 1 }, ?_, ?_, ?_⟩,
    ⟨up.modLog fun l => { l with head := 1 }, ?_, ?_, ?_⟩,
    ⟨up.modMode fun m => { m with mpRestarting := true }, ?_, ?_⟩⟩
  all_goals first
    | decide +kernel | exact authMet_of (by decide +kernel) | exact adminOk_of (by decide +kernel) | exact ok_of (by decide +kernel)
    | exact err_of (by decide +kernel) | exact calm_of (by decide +kernel) | exact ready_of (by decide +kernel) | exact current_of (by decide +kernel)
    | (simp only [Reached, AdminOk, Awake, Ready, Calm, IoOk, ConnectOk, LinkOk, DigestFree, NoItemWaits, KeyAttrOk, Admissible, Current, AdminFree, Storable, NodeWaits, ItemDone, OtherBuffer]; decide +kernel) | (intros; rfl) | trivial

theorem witness_WindowAndMeasurement :
    (∃ mv : BitVec 16, ∃ s : State, s.mode.mode ≠ .off)
      ∧ (∃ s : State, ∃ d : Nat, s.mode.mode ≠ .off ∧ s.mode.mode ≠ .holdup ∧ s.hold.measDue = some d ∧ s.hold.meas = none)
      ∧ (∃ path : Path, ∃ s : State, Reached s path Pg.HOLD 0x40C ∧ s.mode.mode ≠ .holdup ∧ s.hold.meas = none)
      ∧ (∃ us : Nat, ∃ s : State, ∃ r : MeasRun, s.hold.meas = some r ∧ us ≤ (if r.method = .recharge then 500000 else 250000) ∧ r.runs.length < 7)
      ∧ (∃ us : Nat, ∃ s : State, ∃ r : MeasRun, ∃ l : List Nat, ∃ m : Nat, s.hold.meas = some r ∧ r.sep = false ∧ r.method = .discharge ∧ us ≤ 250000 ∧ r.runs.length = 7 ∧ l.Perm (r.runs ++ [us]) ∧ l.Pairwise (· ≤ ·) ∧ m = (l.getD 3 0 + l.getD 4 0) / 2 ∧ 40000 ≤ m ∧ m ≤ 200000)
      ∧ (∃ s : State, ∃ r : MeasRun, s.hold.meas = some r ∧ r.sep = false)
      ∧ (∃ mv : BitVec 16, ∃ s : State, Awake s ∧ s.mode.stage = none ∧ mv.toNat < 54000)
      ∧ (∃ s : State, Awake s ∧ s.hold.hcFault = false) := by
  refine ⟨⟨54000, up, ?_⟩,
    ⟨up.modHold fun h => { h with measDue := some 1 }, 1, ?_, ?_, ?_, ?_⟩,
    ⟨.mp, ex 4, ?_, ?_, ?_⟩,
    ⟨250000, up.modHold fun h => { h with meas := some ⟨.discharge, false, []⟩ }, ⟨.discharge, false, []⟩, ?_, ?_, ?_⟩,
    ⟨40000, up.modHold fun h => { h with meas := some ⟨.discharge, false, List.replicate 7 40000⟩ }, ⟨.discharge, false, List.replicate 7 40000⟩, List.replicate 8 40000, 40000, ?_, ?_, ?_, ?_, ?_, ?_, ?_, ?_, ?_, ?_⟩,
    ⟨up.modHold fun h => { h with meas := some ⟨.discharge, false, []⟩ }, ⟨.discharge, false, []⟩, ?_, ?_⟩,
    ⟨53999, up, ?_, ?_, ?_⟩,
    ⟨up, ?_, ?_⟩⟩
  all_goals first
    | decide +kernel | exact authMet_of (by decide +kernel) | exact adminOk_of (by decide +kernel) | exact ok_of (by decide +kernel)
    | exact err_of (by decide +kernel) | exact calm_of (by decide +kernel) | exact ready_of (by decide +kernel) | exact current_of (by decide +kernel)
    | (simp only [Reached, AdminOk, Awake, Ready, Calm, IoOk, ConnectOk, LinkOk, DigestFree, NoItemWaits, KeyAttrOk, Admissible, Current, AdminFree, Storable, NodeWaits, ItemDone, OtherBuffer]; decide +kernel) | (intros; rfl) | trivial

theorem witness_PowerFailAndFlush :
    (∃ s : State, s.serving = true ∧ s.test.run = none)
      ∧ (∃ us : Nat, ∃ mj : Nat, ∃ s : State, ∃ f : FlushRun, s.hold.flush = some f ∧ f.step = 1)
      ∧ (∃ us : Nat, ∃ mj : Nat, ∃ s : State, ∃ f : FlushRun, s.hold.flush = some f ∧ f.step = 3)
      ∧ (∃ us : Nat, ∃ mj : Nat, ∃ s : State, ∃ f : FlushRun, s.hold.flush = some f ∧ f.step = 7 ∧ s.mode.mode = .holdup)
      ∧ (∃ us : Nat, ∃ mj : Nat, ∃ s : State, ∃ f : FlushRun, s.hold.flush = some f ∧ f.step = 8 ∧ s.mode.mode = .holdup ∧ s.mode.shutdown = none ∧ s.mode.deferred = [] ∧ 10800 ≤ s.pwr.auxMv ∧ s.pwr.auxMv ≤ 13200)
      ∧ (∃ us : Nat, ∃ mj : Nat, ∃ s : State, ∃ f : FlushRun, s.hold.flush = some f ∧ f.step = 8 ∧ s.mode.mode = .holdup ∧ s.mode.shutdown = none ∧ s.pwr.auxMv < 10800)
      ∧ (∃ s : State, ∃ f : FlushRun, s.hold.flush = some f ∧ f.step = 5) := by
  refine ⟨⟨up, ?_, ?_⟩,
    ⟨1, 1, flushing 1, { flush0 with step := 1 }, ?_, ?_⟩,
    ⟨1, 1, flushing 3, { flush0 with step := 3 }, ?_, ?_⟩,
    ⟨1, 1, flushing 7, { flush0 with step := 7 }, ?_, ?_, ?_⟩,
    ⟨1, 1, flushing 8, { flush0 with step := 8 }, ?_, ?_, ?_, ?_, ?_, ?_, ?_⟩,
    ⟨1, 1, (flushing 8).modPwr (fun p => { p with auxMv := 10799 }), { flush0 with step := 8 }, ?_, ?_, ?_, ?_, ?_⟩,
    ⟨flushing 5, { flush0 with step := 5 }, ?_, ?_⟩⟩
  all_goals first
    | decide +kernel | exact authMet_of (by decide +kernel) | exact adminOk_of (by decide +kernel) | exact ok_of (by decide +kernel)
    | exact err_of (by decide +kernel) | exact calm_of (by decide +kernel) | exact ready_of (by decide +kernel) | exact current_of (by decide +kernel)
    | (simp only [Reached, AdminOk, Awake, Ready, Calm, IoOk, ConnectOk, LinkOk, DigestFree, NoItemWaits, KeyAttrOk, Admissible, Current, AdminFree, Storable, NodeWaits, ItemDone, OtherBuffer]; decide +kernel) | (intros; rfl) | trivial

theorem witness_MediaAndMemoryFailures :
    (∃ lane : Fin 64, ∃ die : Fin 16, ∃ s : State, Awake s ∧ s.dieUp (16 * lane.val + die.val) = true ∧ s.isUp (Dom.LPHY (lane.val / 16)) = true)
      ∧ (∃ lane : Fin 64, ∃ s : State, Awake s ∧ lane.val ∉ s.fence.lanes ∧ lane.val / 16 ∉ s.fence.quads ∧ s.isUp (Dom.LPHY (lane.val / 16)) = true)
      ∧ (∃ lane : Fin 64, ∃ s : State, s.serving = true)
      ∧ (∃ q : Quad, ∃ c : Fin 5, ∃ s : State, Awake s ∧ 5 * q.ix + c.val ∉ s.fence.channels ∧ s.isUp (Dom.MEM q.ix) = true)
      ∧ (∃ q : Quad, ∃ s : State, Awake s ∧ q.ix ∉ s.fence.quads ∧ s.isUp Dom.FABRIC = true) := by
  refine ⟨⟨0, 0, up, ?_, ?_, ?_⟩,
    ⟨0, up, ?_, ?_, ?_, ?_⟩,
    ⟨0, up, ?_⟩,
    ⟨.spr, 0, up, ?_, ?_, ?_⟩,
    ⟨.spr, up, ?_, ?_, ?_⟩⟩
  all_goals first
    | decide +kernel | exact authMet_of (by decide +kernel) | exact adminOk_of (by decide +kernel) | exact ok_of (by decide +kernel)
    | exact err_of (by decide +kernel) | exact calm_of (by decide +kernel) | exact ready_of (by decide +kernel) | exact current_of (by decide +kernel)
    | (simp only [Reached, AdminOk, Awake, Ready, Calm, IoOk, ConnectOk, LinkOk, DigestFree, NoItemWaits, KeyAttrOk, Admissible, Current, AdminFree, Storable, NodeWaits, ItemDone, OtherBuffer]; decide +kernel) | (intros; rfl) | trivial

theorem witness_CoreAndUnitFailures :
    (∃ c : CoreId, ∃ why : CoreFault, ∃ s : State, Awake s ∧ s.isUp (Dom.CPU c.quad.ix) = true ∧ coreFenced s.fence c.quad.ix c.core.val = false)
      ∧ (∃ q : Quad, ∃ c : Fin 4, ∃ s : State, Awake s ∧ 4 * q.ix + c.val ∉ s.fence.clusters ∧ s.isUp (Dom.CPU q.ix) = true)
      ∧ (∃ q : Quad, ∃ c : Fin 8, ∃ s : State, Awake s ∧ 8 * q.ix + c.val ∉ s.fence.mediaCores ∧ s.isUp (Dom.ENG q.ix) = true)
      ∧ (∃ q : Quad, ∃ k : EngineKind, ∃ u : Fin 8, ∃ s : State, Awake s ∧ u.val < k.count ∧ s.fence.unitFenced q.ix k u.val = false ∧ s.isUp (Dom.ENG q.ix) = true)
      ∧ (∃ q : Quad, ∃ k : EngineKind, ∃ u : Fin 8, ∃ pass : Bool, ∃ s : State, unitKey q.ix k u.val ∈ s.fence.units ∧ u.val < k.count ∧ s.isUp (Dom.ENG q.ix) = true)
      ∧ (∃ path : Path, ∃ q : Quad, ∃ cl : Fin 4, ∃ core : Fin 16, ∃ s : State, Reached s path (Pg.CLU q.ix cl.val) Fd.CLU_TEST_GO_GO.off)
      ∧ (∃ c : CoreId, ∃ pass : Bool, ∃ s : State, s.isUp (Dom.CPU c.quad.ix) = true ∧ ((s.core c.key).testing = true ∨ c.key ∈ s.fence.cores))
      ∧ (∃ s : State, s.mode.mode ≠ .off) := by
  refine ⟨⟨⟨.spr, 0⟩, .selfCheck, up, ?_, ?_, ?_⟩,
    ⟨.spr, 0, up, ?_, ?_, ?_⟩,
    ⟨.spr, 0, up, ?_, ?_, ?_⟩,
    ⟨.spr, .digest, 1, up, ?_, ?_, ?_, ?_⟩,
    ⟨.spr, .digest, 1, true, up.modFence fun f => { f with units := [unitKey 0 .digest 1] }, ?_, ?_, ?_⟩,
    ⟨.mp, .spr, 0, 0, ex (Pg.CLU 0 0), ?_⟩,
    ⟨⟨.spr, 0⟩, true, up.modFence fun f => { f with cores := [0] }, ?_, ?_⟩,
    ⟨up, ?_⟩⟩
  all_goals first
    | decide +kernel | exact authMet_of (by decide +kernel) | exact adminOk_of (by decide +kernel) | exact ok_of (by decide +kernel)
    | exact err_of (by decide +kernel) | exact calm_of (by decide +kernel) | exact ready_of (by decide +kernel) | exact current_of (by decide +kernel)
    | (simp only [Reached, AdminOk, Awake, Ready, Calm, IoOk, ConnectOk, LinkOk, DigestFree, NoItemWaits, KeyAttrOk, Admissible, Current, AdminFree, Storable, NodeWaits, ItemDone, OtherBuffer]; decide +kernel) | (intros; rfl) | trivial

theorem witness_FabricLinks :
    (∃ l : Fin 9, ∃ ok : Bool, ∃ w : Fin 68, ∃ s : State, s.isUp Dom.FABRIC = true ∧ (s.link l.val).fenced = false ∧ (s.link l.val).repairing = none)
      ∧ (∃ l : Fin 9, ∃ w : Fin 68, ∃ s : State, Awake s ∧ (s.link l.val).repairing = none ∧ 16 ≤ KV.getD 0 (s.link l.val).run w.val ∧ (s.link l.val).fenced = false) := by
  refine ⟨⟨0, true, 0, up, ?_, ?_, ?_⟩,
    ⟨0, 0, up.modLink 0 fun x => { x with run := [(0, 16)] }, ?_, ?_, ?_, ?_⟩⟩
  all_goals first
    | decide +kernel | exact authMet_of (by decide +kernel) | exact adminOk_of (by decide +kernel) | exact ok_of (by decide +kernel)
    | exact err_of (by decide +kernel) | exact calm_of (by decide +kernel) | exact ready_of (by decide +kernel) | exact current_of (by decide +kernel)
    | (simp only [Reached, AdminOk, Awake, Ready, Calm, IoOk, ConnectOk, LinkOk, DigestFree, NoItemWaits, KeyAttrOk, Admissible, Current, AdminFree, Storable, NodeWaits, ItemDone, OtherBuffer]; decide +kernel) | (intros; rfl) | trivial

theorem witness_TestsAndLoopbacks :
    (∃ path : Path, ∃ s : State, Reached s path Pg.TEST 0x48 ∧ s.test.run = none ∧ s.mode.mode = .diagnostic ∧ selOk (s.live (Pg.TEST * 4096 + 0x40)) (s.live (Pg.TEST * 4096 + 0x44)) = true ∧ selIface (s.live (Pg.TEST * 4096 + 0x40)) ≠ 1)
      ∧ (∃ path : Path, ∃ rise : Bool, ∃ s : State, Reached s path Pg.TEST 0x48 ∧ s.test.run = none ∧ s.mode.mode ≠ .diagnostic)
      ∧ (∃ path : Path, ∃ s : State, ∃ r : TestRun, Reached s path Pg.TEST 0x48 ∧ s.test.run = some r)
      ∧ (∃ path : Path, ∃ s : State, ∃ r : TestRun, Reached s path Pg.TEST 0x404 ∧ s.test.run = some r)
      ∧ (∃ errs : Nat, ∃ bits : Nat, ∃ criterion : Bool, ∃ wires : List (Fin 68), ∃ first : Word, ∃ s : State, ∃ r : TestRun, s.test.run = some r ∧ ((errs = 0 ∨ r.ctrl.testBit 24 = false)) ∧ (r.injected = true ∨ criterion = true)) := by
  refine ⟨⟨.mp, inMode .diagnostic, ?_, ?_, ?_, ?_, ?_⟩,
    ⟨.mp, true, up, ?_, ?_, ?_⟩,
    ⟨.mp, up.modTest (fun t => { t with run := some ⟨0, 0, 0, 0, false⟩ }), ⟨0, 0, 0, 0, false⟩, ?_, ?_⟩,
    ⟨.mp, (ex Pg.TEST).modTest (fun t => { t with run := some ⟨0, 0, 0, 0, false⟩ }), ⟨0, 0, 0, 0, false⟩, ?_, ?_⟩,
    ⟨0, 0, true, [], 0, up.modTest (fun t => { t with run := some ⟨0, 0, 0, 0, false⟩ }), ⟨0, 0, 0, 0, false⟩, ?_, ?_, ?_⟩⟩
  all_goals first
    | decide +kernel | exact authMet_of (by decide +kernel) | exact adminOk_of (by decide +kernel) | exact ok_of (by decide +kernel)
    | exact err_of (by decide +kernel) | exact calm_of (by decide +kernel) | exact ready_of (by decide +kernel) | exact current_of (by decide +kernel)
    | (simp only [Reached, AdminOk, Awake, Ready, Calm, IoOk, ConnectOk, LinkOk, DigestFree, NoItemWaits, KeyAttrOk, Admissible, Current, AdminFree, Storable, NodeWaits, ItemDone, OtherBuffer]; decide +kernel) | (intros; rfl) | trivial

end Sys2Proof.Tests
end

