-- ==== Sys2Proof/Tests/WitnessEngines.lean ====
section
/-! SUPPORT. For each obligation about the engines, the keys and the management bus: a concrete state and operands that meet its hypotheses, clause by clause. -/

namespace Sys2Proof.Tests

open Sys2Proof Machine

set_option Elab.async false
set_option linter.all false

theorem witness_EnginesAndIndex :
    (∃ t : TaskRef, ∃ e : EngItem, ∃ f : Flow, ∃ n : Node, ∃ k : Token, ∃ s : State, ItemDone s t 1 e f n k ∧ ((∀ x, KV.get? (s.mat! t.quad.ix).sections (64 * f.inst + 4 * f.prog + n.entry % 4) = some x → x.broken = true)))
      ∧ (∃ t : TaskRef, ∃ e : EngItem, ∃ f : Flow, ∃ n : Node, ∃ k : Token, ∃ x : Section, ∃ l : List Byte, ∃ h : Nat, ∃ w : State, ∃ s : State, ItemDone s t 1 e f n k ∧ KV.get? (s.mat! t.quad.ix).sections (64 * f.inst + 4 * f.prog + n.entry % 4) = some x ∧ x.broken = false ∧ bitsOf n.entry 7 4 ≠ 3 ∧ l = matchRecord x.bytes (bitsOf n.entry 7 4) (s.cfg (Pg.MAT t.quad.ix) Fd.MAT_LIMIT_MAX_ENTRIES) (scanAll x.bytes (s.scanData f k)).1 ∧ s.bufAlloc t.quad.ix e.task.inst 1 l.length = some (h, w) ∧ OtherBuffer k h)
      ∧ (∃ t : TaskRef, ∃ e : EngItem, ∃ f : Flow, ∃ n : Node, ∃ k : Token, ∃ s : State, ItemDone s t 2 e f n k ∧ (inflateOf (n.entry % 16) (if k.buf then k.aux.toNat / 2 ^ 32 else 0) (s.tokenData k)).1 ≠ 0)
      ∧ (∃ t : TaskRef, ∃ e : EngItem, ∃ f : Flow, ∃ n : Node, ∃ k : Token, ∃ s : State, ItemDone s t 2 e f n k ∧ ∃ h : Nat, ∃ w : State, ∃ l : List Byte, inflateOf (n.entry % 16) (if k.buf then k.aux.toNat / 2 ^ 32 else 0) (s.tokenData k) = (0, l) ∧ s.bufAlloc t.quad.ix e.task.inst 2 (inflateSize (n.entry % 16) (if k.buf then k.aux.toNat / 2 ^ 32 else 0) (s.tokenData k)) = some (h, w) ∧ OtherBuffer k h)
      ∧ (∃ t : TaskRef, ∃ e : EngItem, ∃ f : Flow, ∃ n : Node, ∃ k : Token, ∃ a : Nat, ∃ h : Nat, ∃ w : State, ∃ l : List Byte, ∃ s : State, ItemDone s t 3 e f n k ∧ a = (if k.buf then k.aux.toNat / 2 ^ 32 else 0) ∧ l = compressed (n.entry % 16) (bitsOf n.entry 7 4) (bitsOf n.entry 10 8 + 8 * (if a < (s.tokenData k).length then a else 0)) (s.tokenData k) ∧ l.length ≤ 2 ^ 20 ∧ s.bufAlloc t.quad.ix e.task.inst 2 (min (2 ^ 20) (cmpBound (s.tokenData k).length a)) = some (h, w) ∧ OtherBuffer k h)
      ∧ (∃ t : TaskRef, ∃ e : EngItem, ∃ f : Flow, ∃ n : Node, ∃ k : Token, ∃ s : State, Awake s ∧ ItemDone s t 3 e f n k ∧ s.fence.unitFenced t.quad.ix .compressor t.unit.val = false)
      ∧ (∃ quad : Quad, ∃ dir : CmpDir, ∃ unit : Fin 4, ∃ e : EngItem, ∃ kind : Nat, ∃ s : State, kind = (match dir with | .compress => 3 | .decompress => 2) ∧ (((s.disp quad.ix).engine.filter fun x => x.kind = kind).find? (fun x => x.unit = some unit.val) = some e) ∧ (((s.disp quad.ix).engine.filter fun x => x.kind = kind && x.suspended).length < 16) ∧ (((s.disp quad.ix).engine.filter fun x => x.kind = kind && x.suspended && x.task.inst = e.task.inst).length < s.cfg (Pg.CMP quad.ix) Fd.CMP_YIELD_MAX_SUSP))
      ∧ (∃ path : Path, ∃ quad : Quad, ∃ s : State, Reached s path (Pg.MAT quad.ix) Fd.MAT_PROBE_GO_GO.off ∧ (s.mat! quad.ix).probeBusy = false ∧ ((s.tickPage (Pg.MAT quad.ix)).probeSection quad.ix).isSome = true)
      ∧ (∃ path : Path, ∃ quad : Quad, ∃ s : State, Reached s path (Pg.MAT quad.ix) Fd.MAT_PROBE_GO_GO.off ∧ (s.mat! quad.ix).probeBusy = false ∧ ((s.tickPage (Pg.MAT quad.ix)).probeSection quad.ix) = none)
      ∧ (∃ path : Path, ∃ quad : Quad, ∃ s : State, Reached s path (Pg.MAT quad.ix) Fd.MAT_PROBE_GO_GO.off ∧ (s.mat! quad.ix).probeBusy = false)
      ∧ (∃ quad : Quad, ∃ s : State, (s.mat! quad.ix).probeBusy = true)
      ∧ (∃ quad : Quad, ∃ inst : Fin 256, ∃ prog : Fin 16, ∃ sect : Fin 4, ∃ ok : Bool, ∃ x : Section, ∃ s : State, Awake s ∧ KV.get? (s.mat! quad.ix).sections (64 * inst.val + 4 * prog.val + sect.val) = some x)
      ∧ (∃ t : TaskRef, ∃ eqFault : Bool, ∃ neqFault : Bool, ∃ e : EngItem, ∃ f : Flow, ∃ n : Node, ∃ k : Token, ∃ c : Nat, ∃ h : Nat, ∃ x : DigCtx, ∃ w : State, ∃ s : State, ItemDone s t 4 e f n k ∧ s.unitCtx t.quad.ix t.unit.val = some (c, x) ∧ x.direct = false ∧ x.flow = t.flow ∧ x.seq = t.seq ∧ x.node = t.node ∧ n.entry.testBit 5 = false ∧ (s.digQ t.quad.ix).waits = [] ∧ s.bufAlloc t.quad.ix e.task.inst 3 80 = some (h, w) ∧ OtherBuffer k h)
      ∧ (∃ t : TaskRef, ∃ eqFault : Bool, ∃ neqFault : Bool, ∃ e : EngItem, ∃ f : Flow, ∃ n : Node, ∃ k : Token, ∃ c : Nat, ∃ x : DigCtx, ∃ s : State, Awake s ∧ ItemDone s t 4 e f n k ∧ s.unitCtx t.quad.ix t.unit.val = some (c, x) ∧ x.direct = false ∧ x.flow = t.flow ∧ x.seq = t.seq ∧ x.node = t.node ∧ n.entry.testBit 5 = true ∧ n.entry.testBit 4 = false ∧ digLen x.alg ≤ x.msg.length ∧ eqFault ≠ neqFault ∧ s.fence.unitFenced t.quad.ix .digest t.unit.val = false)
      ∧ (∃ quad : Quad, ∃ unit : Fin 4, ∃ c : Nat, ∃ k : Nat, ∃ i : Nat, ∃ x : DigCtx, ∃ d : Drr, ∃ s : State, KV.get? (s.digQ quad.ix).onUnit unit.val = some c ∧ (((s.digQ quad.ix).ctxs.filter fun y => (! y.2.direct || (s.digQ quad.ix).req.any (·.due.isNone)) && ! (s.digQ quad.ix).onUnit.any fun u => u.2 = y.1) = [(k, x)]) ∧ x.inst = i ∧ d = KV.getD .init (s.disp quad.ix).eng 4 ∧ d.last = i ∧ 0 < KV.getD 0 d.credit i)
      ∧ (∃ c : Nat, ∃ k : Nat, ∃ nsid : Nat, ∃ x : Ctx, ∃ n : NsS, ∃ cap : Cap, ∃ key : List Byte, ∃ s : State, s.ctx? c = some x ∧ Current s x ∧ x.op = .exist cap nsid key ∧ s.nsOf x.inst nsid = some (k, n) ∧ (s.mat! (s.indexQuad k (n.bucketOf k key))).searches.head? = some c)
      ∧ (∃ c : Nat, ∃ k : Nat, ∃ nsid : Nat, ∃ x : Ctx, ∃ n : NsS, ∃ cap : Cap, ∃ key : List Byte, ∃ slot : Nat, ∃ o : KvSlot, ∃ s : State, s.ctx? c = some x ∧ Current s x ∧ x.op = .delete cap nsid key ∧ s.nsOf x.inst nsid = some (k, n) ∧ (s.mat! (s.indexQuad k (n.bucketOf k key))).updates.head? = some c ∧ (s.findKey (s.indexQuad k (n.bucketOf k key)) k n key).1 = some (slot, o))
      ∧ (∃ c : Nat, ∃ k : Nat, ∃ nsid : Nat, ∃ declared : Nat, ∃ x : Ctx, ∃ n : NsS, ∃ cap : Cap, ∃ key : List Byte, ∃ data : List Byte, ∃ noOver : Bool, ∃ must : Bool, ∃ slot : Nat, ∃ s : State, s.ctx? c = some x ∧ x.op = .store cap nsid key noOver must declared data ∧ s.nsOf x.inst nsid = some (k, n) ∧ (s.mat! (s.indexQuad k (n.bucketOf k key))).updates.head? = some c ∧ (s.findKey (s.indexQuad k (n.bucketOf k key)) k n key).1 = none ∧ must = false ∧ s.keyCount k < n.grains ∧ s.emptySlot k (n.bucketOf k key) = some slot) := by
  refine ⟨⟨tref, item 1, flow0, node 1 1 1 0, tok 0 2, engining 1 0 (tok 0 2), ?_, (fun x h => by cases h)⟩,
    ⟨tref, item 1, flow0, node 1 1 1 0, tok 0 2, sect, matchRecord sect.bytes 0 (matching.cfg (Pg.MAT 0) Fd.MAT_LIMIT_MAX_ENTRIES) (scanAll sect.bytes (matching.scanData flow0 (tok 0 2))).1, (alloc 0 0 1 (matchRecord sect.bytes 0 (matching.cfg (Pg.MAT 0) Fd.MAT_LIMIT_MAX_ENTRIES) (scanAll sect.bytes (matching.scanData flow0 (tok 0 2))).1).length matching).1, (alloc 0 0 1 (matchRecord sect.bytes 0 (matching.cfg (Pg.MAT 0) Fd.MAT_LIMIT_MAX_ENTRIES) (scanAll sect.bytes (matching.scanData flow0 (tok 0 2))).1).length matching).2, matching, ?_, ?_, ?_, ?_, (rfl), (alloc_of (by decide +kernel)), ?_⟩,
    ⟨tref, item 2, flow0, node 2 1 1 4, tok 0 2, engining 2 4 (tok 0 2), ?_, ?_⟩,
    ⟨tref, item 2, flow0, node 2 1 1 4, trlTok, inflating, ?_, (alloc 0 0 2 1 inflating).1, (alloc 0 0 2 1 inflating).2, [5], ?_, (alloc_of (by decide +kernel)), ?_⟩,
    ⟨tref, item 3, flow0, node 3 1 1 0, tok 0 2, 0, (alloc 0 0 2 (min (2 ^ 20) (cmpBound (dfl.tokenData (tok 0 2)).length 0)) dfl).1, (alloc 0 0 2 (min (2 ^ 20) (cmpBound (dfl.tokenData (tok 0 2)).length 0)) dfl).2, dflOut, dfl, ?_, ?_, (by unfold dflOut; exact Eq.refl _), (dflOut_le), (alloc_of (by decide +kernel)), ?_⟩,
    ⟨tref, item 3, flow0, node 3 1 1 0, tok 0 2, engining 3 0 (tok 0 2), ?_, ?_, ?_⟩,
    ⟨.spr, .compress, 0, item 3, 3, engining 3 0 (tok 0 2), ?_, ?_, ?_, ?_⟩,
    ⟨.mp, .spr, ((ex (Pg.MAT 0)).setFld (Pg.MAT 0) Fd.MAT_PROBE_SEL_VALID 1).modMatQ 0 fun m => { m with sections := [(0, sect)] }, ?_, ?_, ?_⟩,
    ⟨.mp, .spr, ex (Pg.MAT 0), ?_, ?_, ?_⟩,
    ⟨.mp, .spr, ex (Pg.MAT 0), ?_, ?_⟩,
    ⟨.spr, up.modMatQ 0 fun m => { m with probeBusy := true }, ?_⟩,
    ⟨.spr, 0, 0, 0, false, sect, matching, ?_, ?_⟩,
    ⟨tref, false, false, item 4, flow0, node 4 1 1 0, tok 0 2, 3, (alloc 0 0 3 80 (digesting 0)).1, dctx false, (alloc 0 0 3 80 (digesting 0)).2, digesting 0, ?_, ?_, ?_, ?_, ?_, ?_, ?_, ?_, (alloc_of (by decide +kernel)), ?_⟩,
    ⟨tref, true, false, item 4, flow0, node 4 1 1 32, tok 0 2, 3, dctx false, digesting 32, ?_, ?_, ?_, ?_, ?_, ?_, ?_, ?_, ?_, ?_, ?_, ?_⟩,
    ⟨.spr, 0, 3, 4, 0, dctx false, ⟨[(0, 5)], 0⟩, ((digesting 0).modDigQ 0 fun d => { d with ctxs := [(3, dctx false), (4, dctx false)] }).modDisp 0 fun d => { d with eng := [(4, ⟨[(0, 5)], 0⟩)] }, ?_, ?_, ?_, ?_, ?_, ?_⟩,
    ⟨1, 0, 1, ctx1 (.exist iocap 1 kvKey1) .issued, nsS true, iocap, kvKey1, kvOp (.exist iocap 1 kvKey1), ?_, ?_, ?_, ?_, ?_⟩,
    ⟨1, 0, 1, ctx1 (.delete iocap 1 kvKey1) .issued, nsS true, iocap, kvKey1, 1, kvS, (kvOp (.delete iocap 1 kvKey1)).modMat fun m => { m with kv := [(kvKey 0 kvB 1, kvS)] }, ?_, ?_, ?_, ?_, ?_, ?_⟩,
    ⟨1, 0, 1, 1, ctx1 (.store iocap 1 kvKey1 false false 1 [5]) .issued, nsS true, iocap, kvKey1, [5], false, false, 1, kvOp (.store iocap 1 kvKey1 false false 1 [5]), ?_, ?_, ?_, ?_, ?_, ?_, ?_, ?_⟩⟩
  all_goals first
    | decide +kernel | exact authMet_of (by decide +kernel) | exact adminOk_of (by decide +kernel) | exact ok_of (by decide +kernel)
    | exact err_of (by decide +kernel) | exact calm_of (by decide +kernel) | exact ready_of (by decide +kernel) | exact current_of (by decide +kernel)
    | (simp only [Reached, AdminOk, Awake, Ready, Calm, IoOk, ConnectOk, LinkOk, DigestFree, NoItemWaits, KeyAttrOk, Admissible, Current, AdminFree, Storable, NodeWaits, ItemDone, OtherBuffer]; decide +kernel) | (intros; rfl) | trivial

theorem witness_DigestsAndKeys :
    (∃ path : Path, ∃ quad : Quad, ∃ cmd : Word, ∃ c : Nat, ∃ s : State, DigestFree s path quad.ix ∧ (s.digQ quad.ix).session = none ∧ (s.digQ quad.ix).freeCtx 0 = some c ∧ bitsOf cmd.toNat 7 4 ≤ 6 ∧ ((cmd.toNat.testBit 8 = true → bitsOf cmd.toNat 7 4 ≤ 4 ∧ (s.keySlot (bitsOf cmd.toNat 21 12)).usable 1 0 0 = true)))
      ∧ (∃ path : Path, ∃ quad : Quad, ∃ cmd : Word, ∃ c : Nat, ∃ s : State, DigestFree s path quad.ix ∧ (s.digQ quad.ix).session = none ∧ (s.digQ quad.ix).freeCtx 0 = some c ∧ bitsOf cmd.toNat 7 4 ≤ 6 ∧ ((cmd.toNat.testBit 8 = true → bitsOf cmd.toNat 7 4 ≤ 4 ∧ (s.keySlot (bitsOf cmd.toNat 21 12)).usable 1 0 0 = true)) ∧ bitsOf cmd.toNat 30 22 ≤ 256 ∧ ((cmd.toNat.testBit 9 = true → bitsOf cmd.toNat 30 22 ≤ 192)))
      ∧ (∃ path : Path, ∃ quad : Quad, ∃ cmd : Word, ∃ c : Nat, ∃ x : DigCtx, ∃ s : State, DigestFree s path quad.ix ∧ (s.digQ quad.ix).session = some c ∧ KV.get? (s.digQ quad.ix).ctxs c = some x ∧ bitsOf cmd.toNat 30 22 ≤ 256 ∧ ((cmd.toNat.testBit 9 = true → bitsOf cmd.toNat 30 22 ≤ 192)) ∧ ∃ e, e ∈ [(2, Instr.digUpdate path quad cmd), (3, .digFinal path quad cmd)])
      ∧ (∃ path : Path, ∃ quad : Quad, ∃ cmd : Word, ∃ s : State, DigestFree s path quad.ix ∧ (s.digQ quad.ix).session = none ∧ ∃ e, e ∈ [Instr.digUpdate path quad cmd, .digFinal path quad cmd] ∧ bitsOf cmd.toNat 30 22 ≤ 256 ∧ ((cmd.toNat.testBit 9 = true → bitsOf cmd.toNat 30 22 ≤ 192)))
      ∧ (∃ path : Path, ∃ quad : Quad, ∃ cmd : Word, ∃ s : State, DigestFree s path quad.ix ∧ bitsOf cmd.toNat 7 4 ≤ 1 ∧ bitsOf ((s.tickPage (Pg.DIG quad.ix)).live (Pg.DIG quad.ix * 4096 + Fd.DIG_REQ_HKDF_SALT_LEN.off)) 7 0 ≤ 128 ∧ bitsOf ((s.tickPage (Pg.DIG quad.ix)).live (Pg.DIG quad.ix * 4096 + Fd.DIG_REQ_HKDF_SALT_LEN.off)) 15 8 ≤ 128 ∧ (s.keySlot (bitsOf cmd.toNat 21 12)).usable 1 1 0 = true)
      ∧ (∃ path : Path, ∃ quad : Quad, ∃ cmd : Word, ∃ s : State, DigestFree s path quad.ix ∧ NoItemWaits s quad.ix)
      ∧ (∃ quad : Quad, ∃ r : DigReq, ∃ c : Nat, ∃ d : Nat, ∃ s : State, (s.digQ quad.ix).req = some r ∧ r.due = some d ∧ (s.digQ quad.ix).freeCtx 0 = some c ∧ NoItemWaits s quad.ix ∧ digDirect ∈ (s.digQ quad.ix).waits)
      ∧ (∃ quad : Quad, ∃ r : DigReq, ∃ d : Nat, ∃ s : State, (s.digQ quad.ix).req = some r ∧ r.due = some d ∧ NoItemWaits s quad.ix)
      ∧ (∃ quad : Quad, ∃ r : DigReq, ∃ c : Nat, ∃ x : DigCtx, ∃ u : Nat, ∃ s : State, (s.digQ quad.ix).req = some r ∧ r.due = none ∧ (s.digQ quad.ix).session = some c ∧ KV.get? (s.digQ quad.ix).ctxs c = some x ∧ (u, c) ∈ (s.digQ quad.ix).onUnit ∧ NoItemWaits s quad.ix ∧ r.op = 2)
      ∧ (∃ quad : Quad, ∃ r : DigReq, ∃ c : Nat, ∃ x : DigCtx, ∃ u : Nat, ∃ s : State, (s.digQ quad.ix).req = some r ∧ r.due = none ∧ (s.digQ quad.ix).session = some c ∧ KV.get? (s.digQ quad.ix).ctxs c = some x ∧ (u, c) ∈ (s.digQ quad.ix).onUnit ∧ NoItemWaits s quad.ix ∧ (r.op = 3 ∨ r.op = 4) ∧ r.compare = false ∧ r.derive = false)
      ∧ (∃ quad : Quad, ∃ r : DigReq, ∃ c : Nat, ∃ x : DigCtx, ∃ u : Nat, ∃ s : State, (s.digQ quad.ix).req = some r ∧ r.due = none ∧ (s.digQ quad.ix).session = some c ∧ KV.get? (s.digQ quad.ix).ctxs c = some x ∧ (u, c) ∈ (s.digQ quad.ix).onUnit ∧ NoItemWaits s quad.ix ∧ (r.op = 3 ∨ r.op = 4) ∧ r.compare = true ∧ r.derive = false)
      ∧ (∃ quad : Quad, ∃ r : DigReq, ∃ eq : Bool, ∃ neq : Bool, ∃ s : State, Awake s ∧ (s.digQ quad.ix).req = some r ∧ r.due = none ∧ r.op = 5 ∧ s.targetOk r (bitsOf r.target 23 16) = true)
      ∧ (∃ quad : Quad, ∃ c : Nat, ∃ s : State, (s.digQ quad.ix).session = some c ∧ (s.digQ quad.ix).req = none ∧ NoItemWaits s quad.ix)
      ∧ (∃ path : Path, ∃ u : State, ∃ s : State, Awake s ∧ Reached s path Pg.SEC Fd.SEC_KEY_OP_OP.off ∧ u = s.tickPage Pg.SEC ∧ KeyAttrOk u ∧ ((u.secAttr Fd.SEC_KEY_ATTR_TYPE = 4 → Config.onCurve ((u.regBytes Pg.SEC Fd.SEC_KEY_DATA_DATA 34).take (u.secAttr Fd.SEC_KEY_ATTR_LEN)) = true)))
      ∧ (∃ path : Path, ∃ u : State, ∃ s : State, Awake s ∧ Reached s path Pg.SEC Fd.SEC_KEY_OP_OP.off ∧ u = s.tickPage Pg.SEC ∧ KeyAttrOk u ∧ ∃ wrap : BitVec 10, (u.keySlot wrap.toNat).usable 2 2 0 = true)
      ∧ (∃ path : Path, ∃ u : State, ∃ s : State, Awake s ∧ Reached s path Pg.SEC Fd.SEC_KEY_OP_OP.off ∧ u = s.tickPage Pg.SEC ∧ KeyAttrOk u ∧ u.secAttr Fd.SEC_KEY_ATTR_TYPE ≠ 4 ∧ s.sec.trngFailed = false)
      ∧ (∃ path : Path, ∃ u : State, ∃ s : State, Reached s path Pg.SEC Fd.SEC_KEY_OP_OP.off ∧ u = s.tickPage Pg.SEC ∧ 16 ≤ u.cfg Pg.SEC Fd.SEC_KEY_SEL_SLOT ∧ Awake s)
      ∧ (∃ path : Path, ∃ u : State, ∃ s : State, Reached s path Pg.SEC Fd.SEC_KEY_OP_OP.off ∧ u = s.tickPage Pg.SEC ∧ 16 ≤ u.cfg Pg.SEC Fd.SEC_KEY_SEL_SLOT ∧ (u.keySlot (u.cfg Pg.SEC Fd.SEC_KEY_SEL_SLOT)).type ≠ 0 ∧ u.secAttr Fd.SEC_KEY_ATTR_TYPE ≤ 3 ∧ ∃ i, i ∈ [Instr.keyLoad path, .keyLoadWrapped path 0, .keyGenerate path true])
      ∧ (∃ s : State, Awake s ∧ s.isUp Dom.SEC = true ∧ s.sec.trngFailed = false) := by
  refine ⟨⟨.mp, .spr, 0, 0, ex (Pg.DIG 0), ?_, ?_, ?_, ?_, ?_⟩,
    ⟨.mp, .spr, 0, 0, ex (Pg.DIG 0), ?_, ?_, ?_, ?_, ?_, ?_, ?_⟩,
    ⟨.mp, .spr, 0, 0, dctx true, dsess none, ?_, ?_, ?_, ?_, ?_, (2, .digUpdate .mp .spr 0), (by simp)⟩,
    ⟨.mp, .spr, 0, ex (Pg.DIG 0), ?_, ?_, .digUpdate .mp .spr 0, (by simp), ?_, ?_⟩,
    ⟨.mp, .spr, 0x10000, (ex (Pg.DIG 0)).modSec fun m => { m with keys := [(16, ⟨1, true, 2, 0, 2, 32, zeros 32, zeros 32⟩)] }, ?_, ?_, ?_, ?_, ?_⟩,
    ⟨.mp, .spr, 0, dsess none, ?_, ?_⟩,
    ⟨.spr, dreq 1 (some 5), 0, 5, up.modDigQ 0 fun d => { d with req := some (dreq 1 (some 5)), waits := [digDirect] }, ?_, ?_, ?_, ?_, ?_⟩,
    ⟨.spr, dreq 1 (some 5), 5, up.modDigQ 0 fun d => { d with req := some (dreq 1 (some 5)), waits := [digDirect] }, ?_, ?_, ?_⟩,
    ⟨.spr, dreq 2 none, 0, dctx true, 0, dsess (some (dreq 2 none)), ?_, ?_, ?_, ?_, ?_, ?_, ?_⟩,
    ⟨.spr, dreq 3 none, 0, dctx true, 0, dsess (some (dreq 3 none)), ?_, ?_, ?_, ?_, ?_, ?_, ?_, ?_, ?_⟩,
    ⟨.spr, dreq 0x203 none, 0, dctx true, 0, dsess (some (dreq 0x203 none)), ?_, ?_, ?_, ?_, ?_, ?_, ?_, ?_, ?_⟩,
    ⟨.spr, { dreq 5 none with target := 0x200410, acl := 0 }, false, false, up.modDigQ 0 fun d => { d with req := some { dreq 5 none with target := 0x200410, acl := 0 } }, ?_, ?_, ?_, ?_, ?_⟩,
    ⟨.spr, 0, dsess none, ?_, ?_, ?_⟩,
    ⟨.mp, keying.tickPage Pg.SEC, keying, ?_, ?_, ?_, ?_, ?_⟩,
    ⟨.mp, keying.tickPage Pg.SEC, keying, ?_, ?_, ?_, ?_, 17, ?_⟩,
    ⟨.mp, keying.tickPage Pg.SEC, keying, ?_, ?_, ?_, ?_, ?_, ?_⟩,
    ⟨.mp, keyed.tickPage Pg.SEC, keyed, ?_, ?_, ?_, ?_⟩,
    ⟨.mp, keyed.tickPage Pg.SEC, keyed, ?_, ?_, ?_, ?_, ?_, .keyLoad .mp, (by simp)⟩,
    ⟨up, ?_, ?_, ?_⟩⟩
  all_goals first
    | decide +kernel | exact authMet_of (by decide +kernel) | exact adminOk_of (by decide +kernel) | exact ok_of (by decide +kernel)
    | exact err_of (by decide +kernel) | exact calm_of (by decide +kernel) | exact ready_of (by decide +kernel) | exact current_of (by decide +kernel)
    | (simp only [Reached, AdminOk, Awake, Ready, Calm, IoOk, ConnectOk, LinkOk, DigestFree, NoItemWaits, KeyAttrOk, Admissible, Current, AdminFree, Storable, NodeWaits, ItemDone, OtherBuffer]; decide +kernel) | (intros; rfl) | trivial

theorem witness_ManagementBus :
    (∃ eid : BitVec 8, ∃ s : State, s.busUp = true)
      ∧ (∃ s : State, s.busUp = true)
      ∧ (∃ s : State, s.busUp = true)
      ∧ (∃ s : State, s.busUp = true)
      ∧ (∃ m : BitVec 8, ∃ s : State, s.busUp = true)
      ∧ (∃ d : BitVec 8, ∃ s : State, s.busUp = true)
      ∧ (∃ clear : Bool, ∃ first : Nat, ∃ s : State, s.busUp = true)
      ∧ (∃ clear : Bool, ∃ first : Nat, ∃ s : State, s.busUp = true)
      ∧ (∃ id : BitVec 8, ∃ v : Nat, ∃ s : State, s.busUp = true)
      ∧ (∃ id : BitVec 8, ∃ v : Nat, ∃ s : State, s.busUp = true)
      ∧ (∃ tag : Byte, ∃ a : BitVec 26, ∃ n : BitVec 11, ∃ s : State, s.busUp = true ∧ (accessOk .manager a (pageOf a) (offOf a) n.toNat = false ∨ 12 < n.toNat))
      ∧ (∃ tag : Byte, ∃ a : BitVec 26, ∃ n : BitVec 11, ∃ s : State, s.busUp = true ∧ (accessOk .manager a (pageOf a) (offOf a) n.toNat = false ∨ 12 < n.toNat) ∧ ∃ l : List Word, ∃ c : Bool, True)
      ∧ (∃ tag : Byte, ∃ a : BitVec 26, ∃ n : BitVec 11, ∃ s : State, s.busUp = true ∧ accessOk .manager a (pageOf a) (offOf a) n.toNat = true ∧ n.toNat ≤ 12)
      ∧ (∃ tag : Byte, ∃ a : BitVec 26, ∃ n : BitVec 11, ∃ s : State, s.busUp = true ∧ ∃ l : List Word, ∃ pt : Nat, ∃ off : Nat, ∃ f : Field, accessOk .manager a (pageOf a) (offOf a) n.toNat = true ∧ n = 1 ∧ pt = pageType (pageOf a) ∧ off = offOf a ∧ off < 0x400 ∧ s.inHoldup = false ∧ NoAction (pageOf a) off ∧ ((∀ g ∈ RegMap.at pt off, g.acc = .rw)) ∧ f ∈ RegMap.at pt off ∧ (s.tickPage (pageOf a)).unitState (pageOf a) = 0)
      ∧ (∃ tag : Byte, ∃ l : List Byte, ∃ s : State, s.busUp = true)
      ∧ (∃ tag : Byte, ∃ off : Nat, ∃ s : State, s.busUp = true ∧ ∃ l, s.mctp.nonce = some l)
      ∧ (∃ tag : Byte, ∃ off : Nat, ∃ s : State, s.busUp = true ∧ s.mctp.nonce = none)
      ∧ (∃ tag : Byte, ∃ off : Nat, ∃ s : State, s.busUp = true ∧ off ≠ 0)
      ∧ (∃ tag : Byte, ∃ first : BitVec 32, ∃ n : Nat, ∃ s : State, s.busUp = true)
      ∧ (∃ tag : Byte, ∃ ns : Dword, ∃ s : State, s.busUp = true ∧ s.time.ptpLocked = true)
      ∧ (∃ tag : Byte, ∃ ns : Dword, ∃ s : State, s.busUp = true ∧ s.time.ptpLocked = false ∧ 0 ≤ (s.now : Int) + s.time.base)
      ∧ (∃ tag : Byte, ∃ first : Nat, ∃ n : Nat, ∃ s : State, s.busUp = true)
      ∧ (∃ i : Instr, ∃ s : State, s.busUp = false ∧ (i ∈ [Instr.mctpGetEndpointId, .mctpGetMessageTypeSupport, .mctpGetVendorMessageSupport] ∨ (∃ e, i = .mctpSetEndpointId e) ∨ (∃ tag ns, i = .mctpTimeSet tag ns) ∨ (∃ tag a n, i = .mctpControlRead tag a n) ∨ (∃ tag a n l c, i = .mctpControlWrite tag a n l c) ∨ (∃ tag l, i = .mctpAttestNonce tag l))) := by
  refine ⟨⟨9, up, ?_⟩,
    ⟨up, ?_⟩,
    ⟨up, ?_⟩,
    ⟨up, ?_⟩,
    ⟨0, up, ?_⟩,
    ⟨0, up, ?_⟩,
    ⟨false, 0, up, ?_⟩,
    ⟨false, 0, up, ?_⟩,
    ⟨1, 1, up, ?_⟩,
    ⟨1, 1, up, ?_⟩,
    ⟨0, ad Pg.LOG 0x54, 13, up, ?_, ?_⟩,
    ⟨0, ad Pg.LOG 0x54, 13, up, ?_, ?_, [], false, ?_⟩,
    ⟨0, ad Pg.LOG 0x54, 12, up, ?_, ?_, ?_⟩,
    ⟨0, ad Pg.LOG 0x54, 1, up, ?_, [5], pageType Pg.LOG, 0x54, (RegMap.at (pageType Pg.LOG) 0x54).headD Fd.LOG_NOTIFY_MIN_SEV, ?_, ?_, ?_, ?_, ?_, ?_, (fun s p v => rfl), ?_, ?_, ?_⟩,
    ⟨0, zeros 32, up, ?_⟩,
    ⟨0, 0, up.modMctp (fun m => { m with nonce := some (zeros 32) }), ?_, zeros 32, ?_⟩,
    ⟨0, 0, up, ?_, ?_⟩,
    ⟨0, 608, up, ?_, ?_⟩,
    ⟨0, 1, 48, up, ?_⟩,
    ⟨0, 5, up.modTime fun m => { m with ptpLocked := true }, ?_, ?_⟩,
    ⟨0, 5, up, ?_, ?_, ?_⟩,
    ⟨0, 0, 12, up, ?_⟩,
    ⟨.mctpGetEndpointId, inMode .off, ?_, (.inl (by simp))⟩⟩
  all_goals first
    | decide +kernel | exact authMet_of (by decide +kernel) | exact adminOk_of (by decide +kernel) | exact ok_of (by decide +kernel)
    | exact err_of (by decide +kernel) | exact calm_of (by decide +kernel) | exact ready_of (by decide +kernel) | exact current_of (by decide +kernel)
    | (simp only [Reached, AdminOk, Awake, Ready, Calm, IoOk, ConnectOk, LinkOk, DigestFree, NoItemWaits, KeyAttrOk, Admissible, Current, AdminFree, Storable, NodeWaits, ItemDone, OtherBuffer]; decide +kernel) | (intros; rfl) | trivial

end Sys2Proof.Tests
end

