-- ==== Sys2Proof/Tests/WitnessKwalia.lean ====
section
/-! SUPPORT. For each obligation about the queue and the Kwalia cores: a concrete state and operands that meet its hypotheses, clause by clause. -/

namespace Sys2Proof.Tests

open Sys2Proof Machine

set_option Elab.async false
set_option linter.all false

theorem witness_StepRunsTheFrontOfTheQueue :
    (∃ s : State, s.pending = []) := by
  refine ⟨up, ?_⟩
  all_goals first
    | decide +kernel | exact authMet_of (by decide +kernel) | exact adminOk_of (by decide +kernel) | exact ok_of (by decide +kernel)
    | exact err_of (by decide +kernel) | exact calm_of (by decide +kernel) | exact ready_of (by decide +kernel) | exact current_of (by decide +kernel)
    | (simp only [Reached, AdminOk, Awake, Ready, Calm, IoOk, ConnectOk, LinkOk, DigestFree, NoItemWaits, KeyAttrOk, Admissible, Current, AdminFree, Storable, NodeWaits, ItemDone, OtherBuffer]; decide +kernel) | (intros; rfl) | trivial

theorem witness_KwRegisterAlu :
    (∃ x : RArgs, ∃ s : State, ∃ r : TaskRun, ∃ mk : RArgs → Instr, mk ∈ [Instr.kDivs, .kDivu, .kRems, .kRemu] ∧ Ready s x.core (mk x) r ∧ r.holds x.g = true ∧ r.dze = true ∧ r.rg x.b = 0) := by
  refine ⟨rx 1 3, onCore { runI (.kDivs (rx 1 3)) with dze := true }, { runI (.kDivs (rx 1 3)) with dze := true }, .kDivs, (by simp), ?_, ?_, ?_, ?_⟩
  all_goals first
    | decide +kernel | exact authMet_of (by decide +kernel) | exact adminOk_of (by decide +kernel) | exact ok_of (by decide +kernel)
    | exact err_of (by decide +kernel) | exact calm_of (by decide +kernel) | exact ready_of (by decide +kernel) | exact current_of (by decide +kernel)
    | (simp only [Reached, AdminOk, Awake, Ready, Calm, IoOk, ConnectOk, LinkOk, DigestFree, NoItemWaits, KeyAttrOk, Admissible, Current, AdminFree, Storable, NodeWaits, ItemDone, OtherBuffer]; decide +kernel) | (intros; rfl) | trivial

theorem witness_KwImmediates :
    (∃ x : UArgs, ∃ s : State, ∃ r : TaskRun, Ready s x.core (.kMovi x) r ∧ r.holds x.g = true)
      ∧ (∃ x : UArgs, ∃ s : State, ∃ r : TaskRun, Ready s x.core (.kMovh x) r ∧ r.holds x.g = true) := by
  refine ⟨⟨ux, onCore (runI (.kMovi ux)), runI (.kMovi ux), ?_, ?_⟩,
    ⟨ux, onCore (runI (.kMovh ux)), runI (.kMovh ux), ?_, ?_⟩⟩
  all_goals first
    | decide +kernel | exact authMet_of (by decide +kernel) | exact adminOk_of (by decide +kernel) | exact ok_of (by decide +kernel)
    | exact err_of (by decide +kernel) | exact calm_of (by decide +kernel) | exact ready_of (by decide +kernel) | exact current_of (by decide +kernel)
    | (simp only [Reached, AdminOk, Awake, Ready, Calm, IoOk, ConnectOk, LinkOk, DigestFree, NoItemWaits, KeyAttrOk, Admissible, Current, AdminFree, Storable, NodeWaits, ItemDone, OtherBuffer]; decide +kernel) | (intros; rfl) | trivial

theorem witness_KwLoadsAndStores :
    (∃ x : MArgs, ∃ s : State, ∃ r : TaskRun, ∃ l : List Byte, Ready s x.core (.kVld x) r ∧ r.mask x.g ≠ 0 ∧ x.addr r % 64 = 0 ∧ kwRead s r (x.addr r) 64 = some l)
      ∧ (∃ x : MArgs, ∃ s : State, ∃ r : TaskRun, Ready s x.core (.kVst x) r ∧ r.mask x.g ≠ 0 ∧ x.addr r % 64 = 0 ∧ x.addr r + 64 ≤ r.node.scratchKib * 1024) := by
  refine ⟨⟨mx, onCore (runI (.kVld mx)), runI (.kVld mx), (runI (.kVld mx)).scratch.readBytes 0 64, ?_, ?_, ?_, ?_⟩,
    ⟨mx, onCore (runI (.kVst mx)), runI (.kVst mx), ?_, ?_, ?_, ?_⟩⟩
  all_goals first
    | decide +kernel | exact authMet_of (by decide +kernel) | exact adminOk_of (by decide +kernel) | exact ok_of (by decide +kernel)
    | exact err_of (by decide +kernel) | exact calm_of (by decide +kernel) | exact ready_of (by decide +kernel) | exact current_of (by decide +kernel)
    | (simp only [Reached, AdminOk, Awake, Ready, Calm, IoOk, ConnectOk, LinkOk, DigestFree, NoItemWaits, KeyAttrOk, Admissible, Current, AdminFree, Storable, NodeWaits, ItemDone, OtherBuffer]; decide +kernel) | (intros; rfl) | trivial

theorem witness_KwMemoryFaultsAndExceptions :
    (∃ x : MArgs, ∃ s : State, ∃ r : TaskRun, ∃ e : (MArgs → Instr) × Nat, e ∈ [(Instr.kLdw, 4), (.kLdh, 2), (.kLdhu, 2), (.kLdb, 1), (.kLdbu, 1), (.kStw, 4), (.kSth, 2), (.kStb, 1)] ∧ Ready s x.core (e.1 x) r ∧ r.holds x.g = true ∧ x.addr r % e.2 ≠ 0)
      ∧ (∃ x : MArgs, ∃ s : State, ∃ r : TaskRun, ∃ e : (MArgs → Instr) × Nat, e ∈ [(Instr.kLdw, 4), (.kLdh, 2), (.kLdhu, 2), (.kLdb, 1), (.kLdbu, 1), (.kStw, 4), (.kSth, 2), (.kStb, 1)] ∧ Ready s x.core (e.1 x) r ∧ r.holds x.g = true ∧ x.addr r % e.2 = 0 ∧ r.window (x.addr r) e.2 = none)
      ∧ (∃ x : MArgs, ∃ s : State, ∃ r : TaskRun, ∃ mk : MArgs → Instr, mk ∈ [Instr.kVld, .kVst] ∧ Ready s x.core (mk x) r ∧ r.mask x.g ≠ 0 ∧ x.addr r % 64 ≠ 0)
      ∧ (∃ x : MArgs, ∃ s : State, ∃ r : TaskRun, ∃ mk : MArgs → Instr, mk ∈ [Instr.kVld, .kVst] ∧ Ready s x.core (mk x) r ∧ r.mask x.g ≠ 0 ∧ x.addr r % 64 = 0 ∧ r.window (x.addr r) 64 = none)
      ∧ (∃ s : State, ∃ c : Nat, ∃ code : Nat, ∃ r : TaskRun, ∃ f : Flow, (s.core c).run = some r ∧ s.flow? r.task.flow = some f)
      ∧ (∃ s : State, ∃ c : Nat, ∃ code : Nat, ∃ r : TaskRun, ∃ f : Flow, (s.core c).run = some r ∧ s.flow? r.task.flow = some f)
      ∧ (∃ s : State, ∃ c : Nat, ∃ code : Nat, ∃ r : TaskRun, ∃ f : Flow, (s.core c).run = some r ∧ s.flow? r.task.flow = some f)
      ∧ (∃ s : State, ∃ c : Nat, ∃ code : Nat, ∃ r : TaskRun, ∃ f : Flow, (s.core c).run = some r ∧ s.flow? r.task.flow = some f)
      ∧ (∃ s : State, ∃ c : Nat, ∃ code : Nat, ∃ r : TaskRun, ∃ f : Flow, (s.core c).run = some r ∧ s.flow? r.task.flow = some f ∧ ∃ k, k ≠ c)
      ∧ (∃ s : State, ∃ c : Nat, ∃ code : Nat, ∃ r : TaskRun, ∃ f : Flow, (s.core c).run = some r ∧ s.flow? r.task.flow = some f)
      ∧ (∃ s : State, ∃ c : Nat, ∃ code : Nat, ∃ r : TaskRun, ∃ f : Flow, (s.core c).run = some r ∧ s.flow? r.task.flow = some f) := by
  refine ⟨⟨mx, onCore (TaskRun.g2 (runI (.kLdw mx)) 2), TaskRun.g2 (runI (.kLdw mx)) 2, (.kLdw, 4), (by simp), ?_, ?_, ?_⟩,
    ⟨mx, onCore (TaskRun.g2 (runI (.kLdw mx)) 0x10000000), TaskRun.g2 (runI (.kLdw mx)) 0x10000000, (.kLdw, 4), (by simp), ?_, ?_, ?_, ?_⟩,
    ⟨mx, onCore (TaskRun.g2 (runI (.kVld mx)) 4), TaskRun.g2 (runI (.kVld mx)) 4, .kVld, (by simp), ?_, ?_, ?_⟩,
    ⟨mx, onCore (TaskRun.g2 (runI (.kVld mx)) 0x10000000), TaskRun.g2 (runI (.kVld mx)) 0x10000000, .kVld, (by simp), ?_, ?_, ?_, ?_⟩,
    ⟨onCore (run0 0), 0, Exc.ALIGN, run0 0, flow0, ?_, ?_⟩,
    ⟨onCore (run0 0), 0, Exc.ALIGN, run0 0, flow0, ?_, ?_⟩,
    ⟨onCore (run0 0), 0, Exc.ALIGN, run0 0, flow0, ?_, ?_⟩,
    ⟨onCore (run0 0), 0, Exc.ALIGN, run0 0, flow0, ?_, ?_⟩,
    ⟨onCore (run0 0), 0, Exc.ALIGN, run0 0, flow0, ?_, ?_, 1, ?_⟩,
    ⟨onCore (run0 0), 0, Exc.ALIGN, run0 0, flow0, ?_, ?_⟩,
    ⟨onCore (run0 0), 0, Exc.ALIGN, run0 0, flow0, ?_, ?_⟩⟩
  all_goals first
    | decide +kernel | exact authMet_of (by decide +kernel) | exact adminOk_of (by decide +kernel) | exact ok_of (by decide +kernel)
    | exact err_of (by decide +kernel) | exact calm_of (by decide +kernel) | exact ready_of (by decide +kernel) | exact current_of (by decide +kernel)
    | (simp only [Reached, AdminOk, Awake, Ready, Calm, IoOk, ConnectOk, LinkOk, DigestFree, NoItemWaits, KeyAttrOk, Admissible, Current, AdminFree, Storable, NodeWaits, ItemDone, OtherBuffer]; decide +kernel) | (intros; rfl) | trivial

theorem witness_KwBranchesAndCalls :
    (∃ x : BArgs, ∃ s : State, ∃ r : TaskRun, Ready s x.core (.kBr x) r ∧ r.holds x.g = true ∧ r.rep = false ∧ r.ldepth ≤ 3 ∧ 0 ≤ (r.pc : Int) + 4 * x.off.toInt ∧ (r.pc : Int) + 4 * x.off.toInt < 2 ^ 32)
      ∧ (∃ x : CArgs, ∃ a : Fin 32, ∃ s : State, ∃ r : TaskRun, Ready s x.core (.kJr x a) r ∧ r.holds x.g = true ∧ r.rep = false ∧ r.ldepth ≤ 3 ∧ (r.rg a).toNat % 4 = 0)
      ∧ (∃ x : BArgs, ∃ s : State, ∃ r : TaskRun, Ready s x.core (.kCall x) r ∧ r.holds x.g = true ∧ r.rep = false ∧ 0 ≤ (r.pc : Int) + 4 * x.off.toInt ∧ (r.pc : Int) + 4 * x.off.toInt < 2 ^ 32 ∧ (r.rstack.length < 16 ∨ r.rswrap = true))
      ∧ (∃ x : CArgs, ∃ a : Fin 32, ∃ s : State, ∃ r : TaskRun, Ready s x.core (.kCallr x a) r ∧ r.holds x.g = true ∧ r.rep = false ∧ (r.rg a).toNat % 4 = 0 ∧ (r.rstack.length < 16 ∨ r.rswrap = true))
      ∧ (∃ x : CArgs, ∃ s : State, ∃ r : TaskRun, ∃ p : Nat, ∃ q : List Nat, Ready s x.core (.kRet x) r ∧ r.holds x.g = true ∧ r.rep = false ∧ r.rstack = p :: q) := by
  refine ⟨⟨bx, onCore (runI (.kBr bx)), runI (.kBr bx), ?_, ?_, ?_, ?_, ?_, ?_⟩,
    ⟨cx, 2, onCore (runI (.kJr cx 2)), runI (.kJr cx 2), ?_, ?_, ?_, ?_, ?_⟩,
    ⟨bx, onCore (runI (.kCall bx)), runI (.kCall bx), ?_, ?_, ?_, ?_, ?_, ?_⟩,
    ⟨cx, 2, onCore (runI (.kCallr cx 2)), runI (.kCallr cx 2), ?_, ?_, ?_, ?_, ?_⟩,
    ⟨cx, onCore { runI (.kRet cx) with rstack := [8] }, { runI (.kRet cx) with rstack := [8] }, 8, [], ?_, ?_, ?_, ?_⟩⟩
  all_goals first
    | decide +kernel | exact authMet_of (by decide +kernel) | exact adminOk_of (by decide +kernel) | exact ok_of (by decide +kernel)
    | exact err_of (by decide +kernel) | exact calm_of (by decide +kernel) | exact ready_of (by decide +kernel) | exact current_of (by decide +kernel)
    | (simp only [Reached, AdminOk, Awake, Ready, Calm, IoOk, ConnectOk, LinkOk, DigestFree, NoItemWaits, KeyAttrOk, Admissible, Current, AdminFree, Storable, NodeWaits, ItemDone, OtherBuffer]; decide +kernel) | (intros; rfl) | trivial

theorem witness_KwReturnStack :
    (∃ x : BArgs, ∃ s : State, ∃ r : TaskRun, Ready s x.core (.kCall x) r ∧ r.holds x.g = true ∧ r.rep = false ∧ (r.rstack.length < 16 ∨ r.rswrap = true))
      ∧ (∃ x : CArgs, ∃ a : Fin 32, ∃ s : State, ∃ r : TaskRun, Ready s x.core (.kCallr x a) r ∧ r.holds x.g = true ∧ r.rep = false ∧ (r.rstack.length < 16 ∨ r.rswrap = true) ∧ (r.rg a).toNat % 4 = 0)
      ∧ (∃ x : CArgs, ∃ s : State, ∃ r : TaskRun, ∃ p : Nat, ∃ q : List Nat, Ready s x.core (.kRet x) r ∧ r.holds x.g = true ∧ r.rep = false ∧ r.rstack = p :: q)
      ∧ (∃ x : BArgs, ∃ s : State, ∃ r : TaskRun, Ready s x.core (.kCall x) r ∧ r.holds x.g = true ∧ r.rep = false ∧ r.rstack.length = 16 ∧ r.rswrap = false)
      ∧ (∃ x : CArgs, ∃ a : Fin 32, ∃ s : State, ∃ r : TaskRun, Ready s x.core (.kCallr x a) r ∧ r.holds x.g = true ∧ r.rep = false ∧ r.rstack.length = 16 ∧ r.rswrap = false)
      ∧ (∃ x : CArgs, ∃ s : State, ∃ r : TaskRun, Ready s x.core (.kRet x) r ∧ r.holds x.g = true ∧ r.rep = false ∧ r.rstack = []) := by
  refine ⟨⟨bx, onCore { runI (.kCall bx) with rstack := List.replicate 16 8, rswrap := true }, { runI (.kCall bx) with rstack := List.replicate 16 8, rswrap := true }, ?_, ?_, ?_, ?_⟩,
    ⟨cx, 2, onCore { runI (.kCallr cx 2) with rstack := List.replicate 15 8 }, { runI (.kCallr cx 2) with rstack := List.replicate 15 8 }, ?_, ?_, ?_, ?_, ?_⟩,
    ⟨cx, onCore { runI (.kRet cx) with rstack := [8] }, { runI (.kRet cx) with rstack := [8] }, 8, [], ?_, ?_, ?_, ?_⟩,
    ⟨bx, onCore { runI (.kCall bx) with rstack := List.replicate 16 8 }, { runI (.kCall bx) with rstack := List.replicate 16 8 }, ?_, ?_, ?_, ?_, ?_⟩,
    ⟨cx, 2, onCore { runI (.kCallr cx 2) with rstack := List.replicate 16 8 }, { runI (.kCallr cx 2) with rstack := List.replicate 16 8 }, ?_, ?_, ?_, ?_, ?_⟩,
    ⟨cx, onCore (runI (.kRet cx)), runI (.kRet cx), ?_, ?_, ?_, ?_⟩⟩
  all_goals first
    | decide +kernel | exact authMet_of (by decide +kernel) | exact adminOk_of (by decide +kernel) | exact ok_of (by decide +kernel)
    | exact err_of (by decide +kernel) | exact calm_of (by decide +kernel) | exact ready_of (by decide +kernel) | exact current_of (by decide +kernel)
    | (simp only [Reached, AdminOk, Awake, Ready, Calm, IoOk, ConnectOk, LinkOk, DigestFree, NoItemWaits, KeyAttrOk, Admissible, Current, AdminFree, Storable, NodeWaits, ItemDone, OtherBuffer]; decide +kernel) | (intros; rfl) | trivial

theorem witness_KwLoopsRepeatAndCompletion :
    (∃ x : CArgs, ∃ s : State, ∃ r : TaskRun, ∃ i : Instr, ∃ count : Word, ∃ off : BitVec 12, ((∃ a, i = .kLoop x a off ∧ count = r.rg a) ∨ (∃ n, i = .kLoopi x n off ∧ count = n.zeroExtend 32)) ∧ Ready s x.core i r ∧ r.holds x.g = true ∧ r.rep = false ∧ r.ldepth < 3 ∧ 0 < off.toNat ∧ r.pc + 4 * off.toNat < 2 ^ 32 ∧ ((r.ldepth = 0 ∨ r.pc + 4 * off.toNat ≤ (r.le.getD (r.ldepth - 1) 0).toNat)) ∧ r.ls.length = 3 ∧ r.le.length = 3 ∧ r.lc.length = 3)
      ∧ (∃ x : CArgs, ∃ n : RepCount, ∃ s : State, ∃ r : TaskRun, Ready s x.core (.kRep x n) r ∧ r.holds x.g = true ∧ r.rep = false ∧ ((∀ m, m < r.ldepth → (r.le.getD m 0).toNat ≠ r.pc)) ∧ n.value r ≤ 65535)
      ∧ (∃ x : CArgs, ∃ s : State, ∃ r : TaskRun, Ready s x.core (.kNop x) r ∧ r.holds x.g = true)
      ∧ (∃ x : CArgs, ∃ s : State, ∃ r : TaskRun, Ready s x.core (.kEnd x) r ∧ r.holds x.g = true ∧ r.rep = false ∧ ((∀ k, k < r.node.outputs → (KV.get? r.sends k).isSome = true)))
      ∧ (∃ x : CArgs, ∃ s : State, ∃ r : TaskRun, ∃ k : Nat, Ready s x.core (.kEnd x) r ∧ r.holds x.g = true ∧ r.rep = false ∧ k < r.node.outputs ∧ KV.get? r.sends k = none)
      ∧ (∃ r : TaskRun, r.rep = true ∧ 1 < r.repcnt.toNat)
      ∧ (∃ r : TaskRun, r.rep = false ∧ ((r.ldepth = 0 ∨ (r.le.getD (r.ldepth - 1) 0).toNat ≠ r.pc)))
      ∧ (∃ r : TaskRun, r.rep = false ∧ 0 < r.ldepth ∧ (r.le.getD (r.ldepth - 1) 0).toNat = r.pc ∧ 1 < (r.lc.getD (r.ldepth - 1) 0).toNat)
      ∧ (∃ r : TaskRun, r.rep = false ∧ r.ldepth = 1 ∧ (r.le.getD 0 0).toNat = r.pc ∧ (r.lc.getD 0 0).toNat ≤ 1) := by
  refine ⟨⟨cx, onCore (runI (.kLoop cx 2 2)), runI (.kLoop cx 2 2), .kLoop cx 2 2, 0, 2, (.inl ⟨2, rfl, rfl⟩), ?_, ?_, ?_, ?_, ?_, ?_, ?_, ?_, ?_, ?_⟩,
    ⟨cx, .imm 4, onCore (runI (.kRep cx (.imm 4))), runI (.kRep cx (.imm 4)), ?_, ?_, ?_, (fun m h => absurd h (Nat.not_lt_zero m)), ?_⟩,
    ⟨cx, onCore (runI (.kNop cx)), runI (.kNop cx), ?_, ?_⟩,
    ⟨cx, onCore { runI (.kEnd cx) with sends := [(0, tok 4 2)] }, { runI (.kEnd cx) with sends := [(0, tok 4 2)] }, ?_, ?_, ?_, ?_⟩,
    ⟨cx, onCore (runI (.kEnd cx)), runI (.kEnd cx), 0, ?_, ?_, ?_, ?_, ?_⟩,
    ⟨{ run0 0 with rep := true, repcnt := 2 }, ?_, ?_⟩,
    ⟨run0 0, ?_, ?_⟩,
    ⟨{ run0 0 with ldepth := 1, lc := [2, 0, 0] }, ?_, ?_, ?_, ?_⟩,
    ⟨{ run0 0 with ldepth := 1, lc := [1, 0, 0] }, ?_, ?_, ?_, ?_⟩⟩
  all_goals first
    | decide +kernel | exact authMet_of (by decide +kernel) | exact adminOk_of (by decide +kernel) | exact ok_of (by decide +kernel)
    | exact err_of (by decide +kernel) | exact calm_of (by decide +kernel) | exact ready_of (by decide +kernel) | exact current_of (by decide +kernel)
    | (simp only [Reached, AdminOk, Awake, Ready, Calm, IoOk, ConnectOk, LinkOk, DigestFree, NoItemWaits, KeyAttrOk, Admissible, Current, AdminFree, Storable, NodeWaits, ItemDone, OtherBuffer]; decide +kernel) | (intros; rfl) | trivial

theorem witness_KwSpecialRegisters :
    (∃ x : CArgs, ∃ d : Fin 32, ∃ sr : BitVec 12, ∃ s : State, ∃ r : TaskRun, Ready s x.core (.kMfsr x d sr) r ∧ r.holds x.g = true ∧ sr.toNat ≤ 16 ∧ sr.toNat ≠ 14)
      ∧ (∃ x : CArgs, ∃ d : Fin 32, ∃ s : State, ∃ r : TaskRun, Ready s x.core (.kMfsr x d 14) r ∧ r.holds x.g = true)
      ∧ (∃ x : CArgs, ∃ a : Fin 32, ∃ sr : BitVec 12, ∃ s : State, ∃ r : TaskRun, Ready s x.core (.kMtsr x a sr) r ∧ r.holds x.g = true ∧ sr.toNat ≤ 11 ∧ ((r.rep = true → sr.toNat < 2)))
      ∧ (∃ x : CArgs, ∃ d : Fin 32, ∃ sr : BitVec 12, ∃ s : State, ∃ r : TaskRun, Ready s x.core (.kMfsr x d sr) r ∧ r.holds x.g = true ∧ r.rep = false ∧ 16 < sr.toNat)
      ∧ (∃ x : CArgs, ∃ a : Fin 32, ∃ sr : BitVec 12, ∃ s : State, ∃ r : TaskRun, Ready s x.core (.kMtsr x a sr) r ∧ r.holds x.g = true ∧ r.rep = false ∧ 11 < sr.toNat) := by
  refine ⟨⟨cx, 1, 16, onCore (runI (.kMfsr cx 1 16)), runI (.kMfsr cx 1 16), ?_, ?_, ?_, ?_⟩,
    ⟨cx, 1, onCore (runI (.kMfsr cx 1 14)), runI (.kMfsr cx 1 14), ?_, ?_⟩,
    ⟨cx, 2, 11, onCore (runI (.kMtsr cx 2 11)), runI (.kMtsr cx 2 11), ?_, ?_, ?_, ?_⟩,
    ⟨cx, 1, 17, onCore (runI (.kMfsr cx 1 17)), runI (.kMfsr cx 1 17), ?_, ?_, ?_, ?_⟩,
    ⟨cx, 2, 12, onCore (runI (.kMtsr cx 2 12)), runI (.kMtsr cx 2 12), ?_, ?_, ?_, ?_⟩⟩
  all_goals first
    | decide +kernel | exact authMet_of (by decide +kernel) | exact adminOk_of (by decide +kernel) | exact ok_of (by decide +kernel)
    | exact err_of (by decide +kernel) | exact calm_of (by decide +kernel) | exact ready_of (by decide +kernel) | exact current_of (by decide +kernel)
    | (simp only [Reached, AdminOk, Awake, Ready, Calm, IoOk, ConnectOk, LinkOk, DigestFree, NoItemWaits, KeyAttrOk, Admissible, Current, AdminFree, Storable, NodeWaits, ItemDone, OtherBuffer]; decide +kernel) | (intros; rfl) | trivial

theorem witness_KwPredicatesAndVectors :
    (∃ x : CArgs, ∃ d : Fin 8, ∃ a : Fin 16, ∃ b : Fin 16, ∃ cond : BitVec 7, ∃ s : State, ∃ r : TaskRun, Ready s x.core (.kVcmp x d a b cond) r ∧ r.mask x.g ≠ 0)
      ∧ (∃ x : CArgs, ∃ d : Fin 16, ∃ a : Fin 32, ∃ s : State, ∃ r : TaskRun, Ready s x.core (.kVbcast x d a) r ∧ r.mask x.g ≠ 0)
      ∧ (∃ x : CArgs, ∃ d : Fin 16, ∃ a : Fin 32, ∃ n : Fin 16, ∃ s : State, ∃ r : TaskRun, Ready s x.core (.kVins x d a n) r ∧ r.holds x.g = true)
      ∧ (∃ x : CArgs, ∃ d : Fin 32, ∃ a : Fin 16, ∃ s : State, ∃ r : TaskRun, Ready s x.core (.kVsum x d a) r ∧ r.mask x.g ≠ 0)
      ∧ (∃ core : CoreId, ∃ w : Word, ∃ s : State, ∃ r : TaskRun, (s.core core.key).run = some r ∧ r.stallAt = none ∧ r.rep = false ∧ r.fetch = some w ∧ r.holds ⟨w.msb, Fin.ofNat 8 (w.toNat / 2 ^ 28)⟩ = true ∧ ((w.toNat / 2 ^ 22 % 64 = 0x30 ∨ w.toNat / 2 ^ 22 % 64 = 0x39) ∧ 9 < w.toNat % 128 ∨ w.toNat / 2 ^ 22 % 64 = 0x31 ∧ 14 < w.toNat % 128)) := by
  refine ⟨⟨cx, 1, 2, 3, 9, onCore (runI (.kVcmp cx 1 2 3 9)), runI (.kVcmp cx 1 2 3 9), ?_, ?_⟩,
    ⟨cx, 1, 2, onCore (runI (.kVbcast cx 1 2)), runI (.kVbcast cx 1 2), ?_, ?_⟩,
    ⟨cx, 1, 2, 15, onCore (runI (.kVins cx 1 2 15)), runI (.kVins cx 1 2 15), ?_, ?_⟩,
    ⟨cx, 1, 2, onCore (runI (.kVsum cx 1 2)), runI (.kVsum cx 1 2), ?_, ?_⟩,
    ⟨kid, 0x0C00000A#32, onCore { run0 0 with code := leBytes 4 0x0C00000A }, { run0 0 with code := leBytes 4 0x0C00000A }, ?_, ?_, ?_, ?_, ?_, ?_⟩⟩
  all_goals first
    | decide +kernel | exact authMet_of (by decide +kernel) | exact adminOk_of (by decide +kernel) | exact ok_of (by decide +kernel)
    | exact err_of (by decide +kernel) | exact calm_of (by decide +kernel) | exact ready_of (by decide +kernel) | exact current_of (by decide +kernel)
    | (simp only [Reached, AdminOk, Awake, Ready, Calm, IoOk, ConnectOk, LinkOk, DigestFree, NoItemWaits, KeyAttrOk, Admissible, Current, AdminFree, Storable, NodeWaits, ItemDone, OtherBuffer]; decide +kernel) | (intros; rfl) | trivial

theorem witness_KwTaskStart :
    (∃ quad : Quad, ∃ tk : Task, ∃ k : Nat, ∃ f : Flow, ∃ p : Prog, ∃ n : Node, ∃ s : State, (s.disp quad.ix).ready = [tk] ∧ tk.prio < 4 ∧ (s.disp quad.ix).cores.last = tk.inst ∧ 0 < KV.getD 0 (s.disp quad.ix).cores.credit tk.inst ∧ s.pickCore quad.ix tk = some k ∧ s.flow? tk.flow = some f ∧ s.progOf f = some p ∧ s.nodeOf f tk.node = some n ∧ ((∀ e ∈ (s.disp quad.ix).entries, e.2.fired = true)) ∧ f.d.params.length = 64) := by
  refine ⟨.spr, task0, 0, pflow, prog0 [node 0 1 1 0], node 0 1 1 0, (((flowing [node 0 1 1 0] pflow).modKw fun k => { k with tested := true }).modDisp 0 fun d => { d with ready := [task0], cores := ⟨[(0, 5)], 0⟩ }), ?_, ?_, ?_, ?_, ?_, ?_, ?_, ?_, ?_, ?_⟩
  all_goals first
    | decide +kernel | exact authMet_of (by decide +kernel) | exact adminOk_of (by decide +kernel) | exact ok_of (by decide +kernel)
    | exact err_of (by decide +kernel) | exact calm_of (by decide +kernel) | exact ready_of (by decide +kernel) | exact current_of (by decide +kernel)
    | (simp only [Reached, AdminOk, Awake, Ready, Calm, IoOk, ConnectOk, LinkOk, DigestFree, NoItemWaits, KeyAttrOk, Admissible, Current, AdminFree, Storable, NodeWaits, ItemDone, OtherBuffer]; decide +kernel) | (intros; rfl) | trivial

theorem witness_KwSendsBuffersAndHints :
    (∃ x : CArgs, ∃ arc : Fin 4, ∃ a : Fin 32, ∃ s : State, ∃ r : TaskRun, Ready s x.core (.kSendv x arc a) r ∧ r.holds x.g = true ∧ (r.rg a).toNat % 16 = 0 ∧ (r.rg a).toNat + 16 ≤ r.node.scratchKib * 1024 ∧ arc.val < r.node.outputs ∧ KV.get? r.sends arc.val = none)
      ∧ (∃ x : CArgs, ∃ arc : Fin 4, ∃ a : Fin 32, ∃ b : Fin 32, ∃ s : State, ∃ r : TaskRun, ∃ sl : Slot, Ready s x.core (.kSendb x arc a b) r ∧ r.holds x.g = true ∧ (r.rg a).toNat < 8 ∧ KV.get? r.slots (r.rg a).toNat = some sl ∧ sl.live = true ∧ (r.rg b).toNat ≤ sl.extent ∧ arc.val < r.node.outputs ∧ KV.get? r.sends arc.val = none)
      ∧ (∃ x : CArgs, ∃ arc : Fin 4, ∃ a : Fin 32, ∃ b : Fin 32, ∃ s : State, ∃ r : TaskRun, ∃ y : Token, Ready s x.core (.kSendb x arc a b) r ∧ r.holds x.g = true ∧ 8 ≤ (r.rg a).toNat ∧ (r.rg a).toNat < 12 ∧ r.inputs[(r.rg a).toNat - 8]? = some (some y) ∧ y.buf = true ∧ r.inLive.getD ((r.rg a).toNat - 8) false = true ∧ (r.rg b).toNat ≤ y.aux.toNat % 2 ^ 32 ∧ arc.val < r.node.outputs ∧ KV.get? r.sends arc.val = none)
      ∧ (∃ x : CArgs, ∃ arc : Fin 4, ∃ s : State, ∃ r : TaskRun, Ready s x.core (.kSendn x arc) r ∧ r.holds x.g = true ∧ arc.val < r.node.outputs ∧ KV.get? r.sends arc.val = none)
      ∧ (∃ x : CArgs, ∃ a : Fin 32, ∃ s : State, ∃ r : TaskRun, Ready s x.core (.kSendh x a) r ∧ r.holds x.g = true ∧ (r.rg a).toNat % 8 = 0 ∧ (r.rg a).toNat + 8 ≤ r.node.scratchKib * 1024 ∧ r.hints.length < 16)
      ∧ (∃ x : CArgs, ∃ arc : Fin 4, ∃ s : State, ∃ r : TaskRun, Ready s x.core (.kSendn x arc) r ∧ r.holds x.g = true ∧ (r.node.outputs ≤ arc.val ∨ (KV.get? r.sends arc.val).isSome = true))
      ∧ (∃ x : CArgs, ∃ d : Fin 32, ∃ a : Fin 32, ∃ s : State, ∃ s' : State, ∃ r : TaskRun, ∃ j : Nat, ∃ h : Nat, Ready s x.core (.kBalloc x d a) r ∧ r.holds x.g = true ∧ 1 ≤ (r.rg a).toNat ∧ (r.rg a).toNat ≤ 2 ^ 20 ∧ j < 8 ∧ KV.get? r.slots j = none ∧ ((∀ k, k < j → (KV.get? r.slots k).isSome = true)) ∧ s.bufAlloc x.core.quad.ix r.task.inst 4 (r.rg a).toNat = some (h, s'))
      ∧ (∃ x : CArgs, ∃ a : Fin 32, ∃ s : State, ∃ r : TaskRun, ∃ sl : Slot, Ready s x.core (.kBrel x a) r ∧ r.holds x.g = true ∧ (r.rg a).toNat < 8 ∧ KV.get? r.slots (r.rg a).toNat = some sl ∧ sl.live = true ∧ sl.sends = 0)
      ∧ (∃ x : CArgs, ∃ a : Fin 32, ∃ s : State, ∃ r : TaskRun, ∃ y : Token, Ready s x.core (.kBrel x a) r ∧ r.holds x.g = true ∧ 8 ≤ (r.rg a).toNat ∧ (r.rg a).toNat < 12 ∧ r.inputs[(r.rg a).toNat - 8]? = some (some y) ∧ y.buf = true ∧ r.inLive.getD ((r.rg a).toNat - 8) false = true)
      ∧ (∃ x : CArgs, ∃ a : Fin 32, ∃ b : Fin 32, ∃ s : State, ∃ r : TaskRun, ∃ mk : CArgs → Fin 32 → Fin 32 → Instr, mk ∈ [Instr.kL2pf, .kL2rel, .kL2wb] ∧ Ready s x.core (mk x a b) r ∧ r.holds x.g = true ∧ ((r.rg b).toNat = 0 ∨ 64 < (r.rg b).toNat))
      ∧ (∃ x : CArgs, ∃ a : Fin 32, ∃ b : Fin 32, ∃ s : State, ∃ r : TaskRun, ∃ mk : CArgs → Fin 32 → Fin 32 → Instr, ∃ l : List Nat, mk ∈ [Instr.kL2pf, .kL2rel, .kL2wb] ∧ Ready s x.core (mk x a b) r ∧ r.holds x.g = true ∧ r.hintLines (r.rg a).toNat (r.rg b).toNat = some l) := by
  refine ⟨⟨cx, 0, 2, onCore (runI (.kSendv cx 0 2)), runI (.kSendv cx 0 2), ?_, ?_, ?_, ?_, ?_, ?_⟩,
    ⟨cx, 0, 2, 3, onCore (slotted (runI (.kSendb cx 0 2 3))), slotted (runI (.kSendb cx 0 2 3)), ⟨0, 256, 0, true⟩, ?_, ?_, ?_, ?_, ?_, ?_, ?_, ?_⟩,
    ⟨cx, 0, 2, 3, onCore (inputted (runI (.kSendb cx 0 2 3))), inputted (runI (.kSendb cx 0 2 3)), inTok, ?_, ?_, ?_, ?_, ?_, ?_, ?_, ?_, ?_, ?_⟩,
    ⟨cx, 0, onCore (runI (.kSendn cx 0)), runI (.kSendn cx 0), ?_, ?_, ?_, ?_⟩,
    ⟨cx, 2, onCore (runI (.kSendh cx 2)), runI (.kSendh cx 2), ?_, ?_, ?_, ?_, ?_⟩,
    ⟨cx, 1, onCore (runI (.kSendn cx 1)), runI (.kSendn cx 1), ?_, ?_, ?_⟩,
    ⟨cx, 1, 2, onCore (TaskRun.g2 (runI (.kBalloc cx 1 2)) 0x100000), (alloc 0 0 4 0x100000 (onCore (TaskRun.g2 (runI (.kBalloc cx 1 2)) 0x100000))).2, TaskRun.g2 (runI (.kBalloc cx 1 2)) 0x100000, 0, (alloc 0 0 4 0x100000 (onCore (TaskRun.g2 (runI (.kBalloc cx 1 2)) 0x100000))).1, ?_, ?_, ?_, ?_, ?_, ?_, (fun k h => absurd h (Nat.not_lt_zero k)), (alloc_of (by decide +kernel))⟩,
    ⟨cx, 2, onCore (slotted (runI (.kBrel cx 2))), slotted (runI (.kBrel cx 2)), ⟨0, 256, 0, true⟩, ?_, ?_, ?_, ?_, ?_, ?_⟩,
    ⟨cx, 2, onCore (inputted (runI (.kBrel cx 2))), inputted (runI (.kBrel cx 2)), inTok, ?_, ?_, ?_, ?_, ?_, ?_, ?_⟩,
    ⟨cx, 2, 3, onCore (runI (.kL2pf cx 2 3)), runI (.kL2pf cx 2 3), .kL2pf, (by simp), ?_, ?_, ?_⟩,
    ⟨cx, 2, 3, onCore (hinted (runI (.kL2pf cx 2 3))), (hinted (runI (.kL2pf cx 2 3))), .kL2pf, (TaskRun.hintLines (hinted (runI (.kL2pf cx 2 3))) 0x10000000 1).getD [], (by simp), ?_, ?_, (opt_of [] (by decide +kernel))⟩⟩
  all_goals first
    | decide +kernel | exact authMet_of (by decide +kernel) | exact adminOk_of (by decide +kernel) | exact ok_of (by decide +kernel)
    | exact err_of (by decide +kernel) | exact calm_of (by decide +kernel) | exact ready_of (by decide +kernel) | exact current_of (by decide +kernel)
    | (simp only [Reached, AdminOk, Awake, Ready, Calm, IoOk, ConnectOk, LinkOk, DigestFree, NoItemWaits, KeyAttrOk, Admissible, Current, AdminFree, Storable, NodeWaits, ItemDone, OtherBuffer]; decide +kernel) | (intros; rfl) | trivial

theorem witness_KwGuardsAndIllegalWords :
    (∃ i : Instr, ∃ core : CoreId, ∃ g : Guard, ∃ vec : Bool, ∃ s : State, ∃ r : TaskRun, kwGuard i = some (core, g, vec) ∧ ((∀ x n, i ≠ .kRep x n)) ∧ (if vec then r.mask g = 0 else r.holds g = false) ∧ ((r.rep = true → kwNoRep i = false)) ∧ Ready s core i r)
      ∧ (∃ x : CArgs, ∃ n : RepCount, ∃ s : State, ∃ r : TaskRun, Ready s x.core (.kRep x n) r ∧ r.holds x.g = false ∧ r.rep = false ∧ ((r.ldepth = 0 ∨ (r.le.getD (r.ldepth - 1) 0).toNat ≠ r.pc + 4)))
      ∧ (∃ i : Instr, ∃ core : CoreId, ∃ g : Guard, ∃ s : State, ∃ r : TaskRun, kwGuard i = some (core, g, false) ∧ kwNoRep i = true ∧ r.rep = true ∧ Ready s core i r)
      ∧ (∃ x : CArgs, ∃ n : RepCount, ∃ s : State, ∃ r : TaskRun, Ready s x.core (.kRep x n) r ∧ r.holds x.g = true ∧ r.rep = false ∧ (65535 < n.value r ∨ (∃ m, m < r.ldepth ∧ (r.le.getD m 0).toNat = r.pc)))
      ∧ (∃ core : CoreId, ∃ w : Word, ∃ s : State, ∃ r : TaskRun, (s.core core.key).run = some r ∧ r.stallAt = none ∧ r.fetch = some w ∧ kwCanon w = none ∧ r.holds ⟨w.msb, Fin.ofNat 8 (w.toNat / 2 ^ 28)⟩ = true ∧ r.rep = false) := by
  refine ⟨⟨.kNop ⟨kid, ⟨true, 0⟩⟩, kid, ⟨true, 0⟩, false, onCore (runI (.kNop ⟨kid, ⟨true, 0⟩⟩)), runI (.kNop ⟨kid, ⟨true, 0⟩⟩), ?_, (fun x n h => by cases h), ?_, ?_, ?_⟩,
    ⟨⟨kid, ⟨true, 0⟩⟩, .imm 4, onCore (runI (.kRep ⟨kid, ⟨true, 0⟩⟩ (.imm 4))), runI (.kRep ⟨kid, ⟨true, 0⟩⟩ (.imm 4)), ?_, ?_, ?_, ?_⟩,
    ⟨.kBr bx, kid, g0, onCore { runI (.kBr bx) with rep := true, repcnt := 1 }, { runI (.kBr bx) with rep := true, repcnt := 1 }, ?_, ?_, ?_, ?_⟩,
    ⟨cx, .reg 2, onCore (TaskRun.g2 (runI (.kRep cx (.reg 2))) 65536), TaskRun.g2 (runI (.kRep cx (.reg 2))) 65536, ?_, ?_, ?_, (.inl (by decide +kernel))⟩,
    ⟨kid, 0x07FFFFFF, onCore (run0 0x07FFFFFF), run0 0x07FFFFFF, ?_, ?_, ?_, ?_, ?_, ?_⟩⟩
  all_goals first
    | decide +kernel | exact authMet_of (by decide +kernel) | exact adminOk_of (by decide +kernel) | exact ok_of (by decide +kernel)
    | exact err_of (by decide +kernel) | exact calm_of (by decide +kernel) | exact ready_of (by decide +kernel) | exact current_of (by decide +kernel)
    | (simp only [Reached, AdminOk, Awake, Ready, Calm, IoOk, ConnectOk, LinkOk, DigestFree, NoItemWaits, KeyAttrOk, Admissible, Current, AdminFree, Storable, NodeWaits, ItemDone, OtherBuffer]; decide +kernel) | (intros; rfl) | trivial

theorem witness_KwEveryAcceptedWordIsOneInstruction :
    (∃ core : CoreId, ∃ w : Word, ∃ v : Word, kwCanon w = some v)
      ∧ (∃ i : Instr, ∃ v : Word, i.wf = true ∧ (kwGuard i).isSome = true ∧ kwEncode i = some v) := by
  refine ⟨⟨kid, 0x02860004, 0x02860004, ?_⟩,
    ⟨.kMovi ux, (kwEncode (.kMovi ux)).getD 0, ?_, ?_, ?_⟩⟩
  all_goals first
    | decide +kernel | exact authMet_of (by decide +kernel) | exact adminOk_of (by decide +kernel) | exact ok_of (by decide +kernel)
    | exact err_of (by decide +kernel) | exact calm_of (by decide +kernel) | exact ready_of (by decide +kernel) | exact current_of (by decide +kernel)
    | (simp only [Reached, AdminOk, Awake, Ready, Calm, IoOk, ConnectOk, LinkOk, DigestFree, NoItemWaits, KeyAttrOk, Admissible, Current, AdminFree, Storable, NodeWaits, ItemDone, OtherBuffer]; decide +kernel) | (intros; rfl) | trivial

theorem witness_KwStepsKeepTasksWellFormed :
    (∃ i : Instr, ∃ rest : List Instr, ∃ s : State, ∃ t : State, s.pending = i :: rest ∧ (((kwGuard i).isSome = true ∨ (∃ core w, i = .kUnassigned core w) ∨ (∃ q, i = .taskDispatch q) ∨ ∃ core, i = .taskWatchdogExpiry core)) ∧ KwTasksWellFormed s ∧ step s = .next t) := by
  refine ⟨.kUnassigned kid 0, [], { State.reset with pending := [.kUnassigned kid 0] }, { State.reset with pending := [] }, ?_, (.inr (.inl ⟨kid, 0, rfl⟩)), (reset_tasks), ?_⟩
  all_goals first
    | decide +kernel | exact authMet_of (by decide +kernel) | exact adminOk_of (by decide +kernel) | exact ok_of (by decide +kernel)
    | exact err_of (by decide +kernel) | exact calm_of (by decide +kernel) | exact ready_of (by decide +kernel) | exact current_of (by decide +kernel)
    | (simp only [Reached, AdminOk, Awake, Ready, Calm, IoOk, ConnectOk, LinkOk, DigestFree, NoItemWaits, KeyAttrOk, Admissible, Current, AdminFree, Storable, NodeWaits, ItemDone, OtherBuffer]; decide +kernel) | (intros; rfl) | trivial

theorem witness_rows_KwRegisterAlu_first :
    (∃ x : RArgs, ∃ s : State, ∃ r : TaskRun, Ready s x.core (.kAdd x) r ∧ r.holds x.g = true)
      ∧ (∃ x : RArgs, ∃ s : State, ∃ r : TaskRun, Ready s x.core (.kAdc x) r ∧ r.holds x.g = true)
      ∧ (∃ x : RArgs, ∃ s : State, ∃ r : TaskRun, Ready s x.core (.kSub x) r ∧ r.holds x.g = true)
      ∧ (∃ x : RArgs, ∃ s : State, ∃ r : TaskRun, Ready s x.core (.kSbc x) r ∧ r.holds x.g = true)
      ∧ (∃ x : RArgs, ∃ s : State, ∃ r : TaskRun, Ready s x.core (.kNeg x) r ∧ r.holds x.g = true)
      ∧ (∃ x : RArgs, ∃ s : State, ∃ r : TaskRun, Ready s x.core (.kCmp x) r ∧ r.holds x.g = true)
      ∧ (∃ x : RArgs, ∃ s : State, ∃ r : TaskRun, Ready s x.core (.kDivs x) r ∧ r.holds x.g = true ∧ (r.dze = false ∨ r.rg x.b ≠ 0))
      ∧ (∃ x : RArgs, ∃ s : State, ∃ r : TaskRun, Ready s x.core (.kDivu x) r ∧ r.holds x.g = true ∧ (r.dze = false ∨ r.rg x.b ≠ 0))
      ∧ (∃ x : RArgs, ∃ s : State, ∃ r : TaskRun, Ready s x.core (.kRems x) r ∧ r.holds x.g = true ∧ (r.dze = false ∨ r.rg x.b ≠ 0))
      ∧ (∃ x : RArgs, ∃ s : State, ∃ r : TaskRun, Ready s x.core (.kRemu x) r ∧ r.holds x.g = true ∧ (r.dze = false ∨ r.rg x.b ≠ 0)) := by
  refine ⟨?_, ?_, ?_, ?_, ?_, ?_, ?_, ?_, ?_, ?_⟩
  · exact ⟨(rx 1 3), onCore (runI (.kAdd (rx 1 3))), runI (.kAdd (rx 1 3)), ready_of (by decide +kernel), by decide +kernel⟩
  · exact ⟨(rx 1 3), onCore (runI (.kAdc (rx 1 3))), runI (.kAdc (rx 1 3)), ready_of (by decide +kernel), by decide +kernel⟩
  · exact ⟨(rx 1 3), onCore (runI (.kSub (rx 1 3))), runI (.kSub (rx 1 3)), ready_of (by decide +kernel), by decide +kernel⟩
  · exact ⟨(rx 1 3), onCore (runI (.kSbc (rx 1 3))), runI (.kSbc (rx 1 3)), ready_of (by decide +kernel), by decide +kernel⟩
  · exact ⟨(rx 1 0), onCore (runI (.kNeg (rx 1 0))), runI (.kNeg (rx 1 0)), ready_of (by decide +kernel), by decide +kernel⟩
  · exact ⟨(rx 0 3), onCore (runI (.kCmp (rx 0 3))), runI (.kCmp (rx 0 3)), ready_of (by decide +kernel), by decide +kernel⟩
  · exact ⟨(rx 1 3), onCore (runI (.kDivs (rx 1 3))), runI (.kDivs (rx 1 3)), ready_of (by decide +kernel), by decide +kernel, by decide +kernel⟩
  · exact ⟨(rx 1 3), onCore (runI (.kDivu (rx 1 3))), runI (.kDivu (rx 1 3)), ready_of (by decide +kernel), by decide +kernel, by decide +kernel⟩
  · exact ⟨(rx 1 3), onCore (runI (.kRems (rx 1 3))), runI (.kRems (rx 1 3)), ready_of (by decide +kernel), by decide +kernel, by decide +kernel⟩
  · exact ⟨(rx 1 3), onCore (runI (.kRemu (rx 1 3))), runI (.kRemu (rx 1 3)), ready_of (by decide +kernel), by decide +kernel, by decide +kernel⟩

theorem witness_rows_KwRegisterAlu_second :
    (∃ x : RArgs, ∃ s : State, ∃ r : TaskRun, Ready s x.core (.kAnd x) r ∧ r.holds x.g = true)
      ∧ (∃ x : RArgs, ∃ s : State, ∃ r : TaskRun, Ready s x.core (.kOr x) r ∧ r.holds x.g = true)
      ∧ (∃ x : RArgs, ∃ s : State, ∃ r : TaskRun, Ready s x.core (.kXor x) r ∧ r.holds x.g = true)
      ∧ (∃ x : RArgs, ∃ s : State, ∃ r : TaskRun, Ready s x.core (.kAndn x) r ∧ r.holds x.g = true)
      ∧ (∃ x : RArgs, ∃ s : State, ∃ r : TaskRun, Ready s x.core (.kShl x) r ∧ r.holds x.g = true)
      ∧ (∃ x : RArgs, ∃ s : State, ∃ r : TaskRun, Ready s x.core (.kShr x) r ∧ r.holds x.g = true)
      ∧ (∃ x : RArgs, ∃ s : State, ∃ r : TaskRun, Ready s x.core (.kSar x) r ∧ r.holds x.g = true)
      ∧ (∃ x : RArgs, ∃ s : State, ∃ r : TaskRun, Ready s x.core (.kRor x) r ∧ r.holds x.g = true)
      ∧ (∃ x : RArgs, ∃ s : State, ∃ r : TaskRun, Ready s x.core (.kRol x) r ∧ r.holds x.g = true)
      ∧ (∃ x : RArgs, ∃ s : State, ∃ r : TaskRun, Ready s x.core (.kMin x) r ∧ r.holds x.g = true)
      ∧ (∃ x : RArgs, ∃ s : State, ∃ r : TaskRun, Ready s x.core (.kMax x) r ∧ r.holds x.g = true)
      ∧ (∃ x : RArgs, ∃ s : State, ∃ r : TaskRun, Ready s x.core (.kMinu x) r ∧ r.holds x.g = true)
      ∧ (∃ x : RArgs, ∃ s : State, ∃ r : TaskRun, Ready s x.core (.kMaxu x) r ∧ r.holds x.g = true)
      ∧ (∃ x : RArgs, ∃ s : State, ∃ r : TaskRun, Ready s x.core (.kMul x) r ∧ r.holds x.g = true)
      ∧ (∃ x : RArgs, ∃ s : State, ∃ r : TaskRun, Ready s x.core (.kMulhs x) r ∧ r.holds x.g = true)
      ∧ (∃ x : RArgs, ∃ s : State, ∃ r : TaskRun, Ready s x.core (.kMulhu x) r ∧ r.holds x.g = true)
      ∧ (∃ x : RArgs, ∃ s : State, ∃ r : TaskRun, Ready s x.core (.kNot x) r ∧ r.holds x.g = true)
      ∧ (∃ x : RArgs, ∃ s : State, ∃ r : TaskRun, Ready s x.core (.kClz x) r ∧ r.holds x.g = true)
      ∧ (∃ x : RArgs, ∃ s : State, ∃ r : TaskRun, Ready s x.core (.kPopc x) r ∧ r.holds x.g = true)
      ∧ (∃ x : RArgs, ∃ s : State, ∃ r : TaskRun, Ready s x.core (.kBswap x) r ∧ r.holds x.g = true) := by
  refine ⟨?_, ?_, ?_, ?_, ?_, ?_, ?_, ?_, ?_, ?_, ?_, ?_, ?_, ?_, ?_, ?_, ?_, ?_, ?_, ?_⟩
  · exact ⟨(rx 1 3), onCore (runI (.kAnd (rx 1 3))), runI (.kAnd (rx 1 3)), ready_of (by decide +kernel), by decide +kernel⟩
  · exact ⟨(rx 1 3), onCore (runI (.kOr (rx 1 3))), runI (.kOr (rx 1 3)), ready_of (by decide +kernel), by decide +kernel⟩
  · exact ⟨(rx 1 3), onCore (runI (.kXor (rx 1 3))), runI (.kXor (rx 1 3)), ready_of (by decide +kernel), by decide +kernel⟩
  · exact ⟨(rx 1 3), onCore (runI (.kAndn (rx 1 3))), runI (.kAndn (rx 1 3)), ready_of (by decide +kernel), by decide +kernel⟩
  · exact ⟨(rx 1 3), onCore (runI (.kShl (rx 1 3))), runI (.kShl (rx 1 3)), ready_of (by decide +kernel), by decide +kernel⟩
  · exact ⟨(rx 1 3), onCore (runI (.kShr (rx 1 3))), runI (.kShr (rx 1 3)), ready_of (by decide +kernel), by decide +kernel⟩
  · exact ⟨(rx 1 3), onCore (runI (.kSar (rx 1 3))), runI (.kSar (rx 1 3)), ready_of (by decide +kernel), by decide +kernel⟩
  · exact ⟨(rx 1 3), onCore (runI (.kRor (rx 1 3))), runI (.kRor (rx 1 3)), ready_of (by decide +kernel), by decide +kernel⟩
  · exact ⟨(rx 1 3), onCore (runI (.kRol (rx 1 3))), runI (.kRol (rx 1 3)), ready_of (by decide +kernel), by decide +kernel⟩
  · exact ⟨(rx 1 3), onCore (runI (.kMin (rx 1 3))), runI (.kMin (rx 1 3)), ready_of (by decide +kernel), by decide +kernel⟩
  · exact ⟨(rx 1 3), onCore (runI (.kMax (rx 1 3))), runI (.kMax (rx 1 3)), ready_of (by decide +kernel), by decide +kernel⟩
  · exact ⟨(rx 1 3), onCore (runI (.kMinu (rx 1 3))), runI (.kMinu (rx 1 3)), ready_of (by decide +kernel), by decide +kernel⟩
  · exact ⟨(rx 1 3), onCore (runI (.kMaxu (rx 1 3))), runI (.kMaxu (rx 1 3)), ready_of (by decide +kernel), by decide +kernel⟩
  · exact ⟨(rx 1 3), onCore (runI (.kMul (rx 1 3))), runI (.kMul (rx 1 3)), ready_of (by decide +kernel), by decide +kernel⟩
  · exact ⟨(rx 1 3), onCore (runI (.kMulhs (rx 1 3))), runI (.kMulhs (rx 1 3)), ready_of (by decide +kernel), by decide +kernel⟩
  · exact ⟨(rx 1 3), onCore (runI (.kMulhu (rx 1 3))), runI (.kMulhu (rx 1 3)), ready_of (by decide +kernel), by decide +kernel⟩
  · exact ⟨(rx 1 0), onCore (runI (.kNot (rx 1 0))), runI (.kNot (rx 1 0)), ready_of (by decide +kernel), by decide +kernel⟩
  · exact ⟨(rx 1 0), onCore (runI (.kClz (rx 1 0))), runI (.kClz (rx 1 0)), ready_of (by decide +kernel), by decide +kernel⟩
  · exact ⟨(rx 1 0), onCore (runI (.kPopc (rx 1 0))), runI (.kPopc (rx 1 0)), ready_of (by decide +kernel), by decide +kernel⟩
  · exact ⟨(rx 1 0), onCore (runI (.kBswap (rx 1 0))), runI (.kBswap (rx 1 0)), ready_of (by decide +kernel), by decide +kernel⟩

theorem witness_rows_KwImmediates :
    (∃ x : IArgs, ∃ s : State, ∃ r : TaskRun, Ready s x.core (.kAddi x) r ∧ r.holds x.g = true)
      ∧ (∃ x : IArgs, ∃ s : State, ∃ r : TaskRun, Ready s x.core (.kAndi x) r ∧ r.holds x.g = true)
      ∧ (∃ x : IArgs, ∃ s : State, ∃ r : TaskRun, Ready s x.core (.kOri x) r ∧ r.holds x.g = true)
      ∧ (∃ x : IArgs, ∃ s : State, ∃ r : TaskRun, Ready s x.core (.kXori x) r ∧ r.holds x.g = true)
      ∧ (∃ x : IArgs, ∃ s : State, ∃ r : TaskRun, Ready s x.core (.kShli x) r ∧ r.holds x.g = true)
      ∧ (∃ x : IArgs, ∃ s : State, ∃ r : TaskRun, Ready s x.core (.kShri x) r ∧ r.holds x.g = true)
      ∧ (∃ x : IArgs, ∃ s : State, ∃ r : TaskRun, Ready s x.core (.kSari x) r ∧ r.holds x.g = true)
      ∧ (∃ x : IArgs, ∃ s : State, ∃ r : TaskRun, Ready s x.core (.kRori x) r ∧ r.holds x.g = true)
      ∧ (∃ x : IArgs, ∃ s : State, ∃ r : TaskRun, Ready s x.core (.kCmpi x) r ∧ r.holds x.g = true) := by
  refine ⟨?_, ?_, ?_, ?_, ?_, ?_, ?_, ?_, ?_⟩
  · exact ⟨(ix 1), onCore (runI (.kAddi (ix 1))), runI (.kAddi (ix 1)), ready_of (by decide +kernel), by decide +kernel⟩
  · exact ⟨(ix 1), onCore (runI (.kAndi (ix 1))), runI (.kAndi (ix 1)), ready_of (by decide +kernel), by decide +kernel⟩
  · exact ⟨(ix 1), onCore (runI (.kOri (ix 1))), runI (.kOri (ix 1)), ready_of (by decide +kernel), by decide +kernel⟩
  · exact ⟨(ix 1), onCore (runI (.kXori (ix 1))), runI (.kXori (ix 1)), ready_of (by decide +kernel), by decide +kernel⟩
  · exact ⟨(ix 1), onCore (runI (.kShli (ix 1))), runI (.kShli (ix 1)), ready_of (by decide +kernel), by decide +kernel⟩
  · exact ⟨(ix 1), onCore (runI (.kShri (ix 1))), runI (.kShri (ix 1)), ready_of (by decide +kernel), by decide +kernel⟩
  · exact ⟨(ix 1), onCore (runI (.kSari (ix 1))), runI (.kSari (ix 1)), ready_of (by decide +kernel), by decide +kernel⟩
  · exact ⟨(ix 1), onCore (runI (.kRori (ix 1))), runI (.kRori (ix 1)), ready_of (by decide +kernel), by decide +kernel⟩
  · exact ⟨(ix 0), onCore (runI (.kCmpi (ix 0))), runI (.kCmpi (ix 0)), ready_of (by decide +kernel), by decide +kernel⟩

theorem witness_rows_KwLoadsAndStores :
    (∃ x : MArgs, ∃ s : State, ∃ r : TaskRun, ∃ l : List Byte, Ready s x.core (.kLdw x) r ∧ r.holds x.g = true ∧ x.addr r % 4 = 0 ∧ kwRead s r (x.addr r) 4 = some l)
      ∧ (∃ x : MArgs, ∃ s : State, ∃ r : TaskRun, ∃ l : List Byte, Ready s x.core (.kLdh x) r ∧ r.holds x.g = true ∧ x.addr r % 2 = 0 ∧ kwRead s r (x.addr r) 2 = some l)
      ∧ (∃ x : MArgs, ∃ s : State, ∃ r : TaskRun, ∃ l : List Byte, Ready s x.core (.kLdhu x) r ∧ r.holds x.g = true ∧ x.addr r % 2 = 0 ∧ kwRead s r (x.addr r) 2 = some l)
      ∧ (∃ x : MArgs, ∃ s : State, ∃ r : TaskRun, ∃ l : List Byte, Ready s x.core (.kLdb x) r ∧ r.holds x.g = true ∧ x.addr r % 1 = 0 ∧ kwRead s r (x.addr r) 1 = some l)
      ∧ (∃ x : MArgs, ∃ s : State, ∃ r : TaskRun, ∃ l : List Byte, Ready s x.core (.kLdbu x) r ∧ r.holds x.g = true ∧ x.addr r % 1 = 0 ∧ kwRead s r (x.addr r) 1 = some l)
      ∧ (∃ x : MArgs, ∃ s : State, ∃ r : TaskRun, Ready s x.core (.kStw x) r ∧ r.holds x.g = true ∧ x.addr r % 4 = 0 ∧ x.addr r + 4 ≤ r.node.scratchKib * 1024)
      ∧ (∃ x : MArgs, ∃ s : State, ∃ r : TaskRun, Ready s x.core (.kSth x) r ∧ r.holds x.g = true ∧ x.addr r % 2 = 0 ∧ x.addr r + 2 ≤ r.node.scratchKib * 1024)
      ∧ (∃ x : MArgs, ∃ s : State, ∃ r : TaskRun, Ready s x.core (.kStb x) r ∧ r.holds x.g = true ∧ x.addr r % 1 = 0 ∧ x.addr r + 1 ≤ r.node.scratchKib * 1024)
      ∧ (∃ x : MArgs, ∃ s : State, ∃ r : TaskRun, ∃ j : Nat, ∃ h : Nat, ∃ off : Nat, ∃ b : Buf, Ready s x.core (.kStw x) r ∧ r.holds x.g = true ∧ x.addr r % 4 = 0 ∧ r.window (x.addr r) 4 = some (.output j h off) ∧ KV.get? s.buf.bufs (h / 4096) = some b)
      ∧ (∃ x : MArgs, ∃ s : State, ∃ r : TaskRun, ∃ j : Nat, ∃ h : Nat, ∃ off : Nat, ∃ b : Buf, Ready s x.core (.kSth x) r ∧ r.holds x.g = true ∧ x.addr r % 2 = 0 ∧ r.window (x.addr r) 2 = some (.output j h off) ∧ KV.get? s.buf.bufs (h / 4096) = some b)
      ∧ (∃ x : MArgs, ∃ s : State, ∃ r : TaskRun, ∃ j : Nat, ∃ h : Nat, ∃ off : Nat, ∃ b : Buf, Ready s x.core (.kStb x) r ∧ r.holds x.g = true ∧ x.addr r % 1 = 0 ∧ r.window (x.addr r) 1 = some (.output j h off) ∧ KV.get? s.buf.bufs (h / 4096) = some b) := by
  refine ⟨?_, ?_, ?_, ?_, ?_, ?_, ?_, ?_, ?_, ?_, ?_⟩
  · exact ⟨mx, onCore (runI (.kLdw mx)), runI (.kLdw mx), (runI (.kLdw mx)).scratch.readBytes 0 4, ready_of (by decide +kernel), by decide +kernel, by decide +kernel, by decide +kernel⟩
  · exact ⟨mx, onCore (runI (.kLdh mx)), runI (.kLdh mx), (runI (.kLdh mx)).scratch.readBytes 0 2, ready_of (by decide +kernel), by decide +kernel, by decide +kernel, by decide +kernel⟩
  · exact ⟨mx, onCore (runI (.kLdhu mx)), runI (.kLdhu mx), (runI (.kLdhu mx)).scratch.readBytes 0 2, ready_of (by decide +kernel), by decide +kernel, by decide +kernel, by decide +kernel⟩
  · exact ⟨mx, onCore (runI (.kLdb mx)), runI (.kLdb mx), (runI (.kLdb mx)).scratch.readBytes 0 1, ready_of (by decide +kernel), by decide +kernel, by decide +kernel, by decide +kernel⟩
  · exact ⟨mx, onCore (runI (.kLdbu mx)), runI (.kLdbu mx), (runI (.kLdbu mx)).scratch.readBytes 0 1, ready_of (by decide +kernel), by decide +kernel, by decide +kernel, by decide +kernel⟩
  · exact ⟨mx, onCore (runI (.kStw mx)), runI (.kStw mx), ready_of (by decide +kernel), by decide +kernel, by decide +kernel, by decide +kernel⟩
  · exact ⟨mx, onCore (runI (.kSth mx)), runI (.kSth mx), ready_of (by decide +kernel), by decide +kernel, by decide +kernel, by decide +kernel⟩
  · exact ⟨mx, onCore (runI (.kStb mx)), runI (.kStb mx), ready_of (by decide +kernel), by decide +kernel, by decide +kernel, by decide +kernel⟩
  · exact ⟨mx, (onCore { slotted (runI (.kStw mx)) with g := [(2, 0x30000000)] }).modBuf fun m => { m with bufs := [(0, buf0 1)] }, { slotted (runI (.kStw mx)) with g := [(2, 0x30000000)] }, 0, 0, 0, buf0 1, ready_of (by decide +kernel), by decide +kernel, by decide +kernel, by decide +kernel, by decide +kernel⟩
  · exact ⟨mx, (onCore { slotted (runI (.kSth mx)) with g := [(2, 0x30000000)] }).modBuf fun m => { m with bufs := [(0, buf0 1)] }, { slotted (runI (.kSth mx)) with g := [(2, 0x30000000)] }, 0, 0, 0, buf0 1, ready_of (by decide +kernel), by decide +kernel, by decide +kernel, by decide +kernel, by decide +kernel⟩
  · exact ⟨mx, (onCore { slotted (runI (.kStb mx)) with g := [(2, 0x30000000)] }).modBuf fun m => { m with bufs := [(0, buf0 1)] }, { slotted (runI (.kStb mx)) with g := [(2, 0x30000000)] }, 0, 0, 0, buf0 1, ready_of (by decide +kernel), by decide +kernel, by decide +kernel, by decide +kernel, by decide +kernel⟩

theorem witness_rows_KwPredicatesAndVectors_first :
    (∃ x : CArgs, ∃ d : Fin 8, ∃ a : Fin 32, ∃ b : Fin 32, ∃ cond : BitVec 7, ∃ s : State, ∃ r : TaskRun, Ready s x.core (.kPcmp x d a b cond) r ∧ r.holds x.g = true)
      ∧ (∃ x : CArgs, ∃ d : Fin 8, ∃ cond : BitVec 7, ∃ s : State, ∃ r : TaskRun, Ready s x.core (.kPflag x d cond) r ∧ r.holds x.g = true)
      ∧ (∃ x : PArgs, ∃ s : State, ∃ r : TaskRun, Ready s x.core (.kPlogAnd x) r ∧ r.holds x.g = true)
      ∧ (∃ x : PArgs, ∃ s : State, ∃ r : TaskRun, Ready s x.core (.kPlogOr x) r ∧ r.holds x.g = true)
      ∧ (∃ x : PArgs, ∃ s : State, ∃ r : TaskRun, Ready s x.core (.kPlogXor x) r ∧ r.holds x.g = true)
      ∧ (∃ x : PArgs, ∃ s : State, ∃ r : TaskRun, Ready s x.core (.kPlogAndn x) r ∧ r.holds x.g = true)
      ∧ (∃ x : PArgs, ∃ s : State, ∃ r : TaskRun, Ready s x.core (.kPlogNot x) r ∧ r.holds x.g = true)
      ∧ (∃ x : CArgs, ∃ d : Fin 8, ∃ imm : BitVec 16, ∃ s : State, ∃ r : TaskRun, Ready s x.core (.kPset x d imm) r ∧ r.holds x.g = true)
      ∧ (∃ x : CArgs, ∃ d : Fin 8, ∃ a : Fin 32, ∃ s : State, ∃ r : TaskRun, Ready s x.core (.kPmov x d a) r ∧ r.holds x.g = true)
      ∧ (∃ x : CArgs, ∃ d : Fin 32, ∃ a : Fin 8, ∃ s : State, ∃ r : TaskRun, Ready s x.core (.kPget x d a) r ∧ r.holds x.g = true)
      ∧ (∃ x : CArgs, ∃ d : Fin 32, ∃ a : Fin 8, ∃ s : State, ∃ r : TaskRun, Ready s x.core (.kPcnt x d a) r ∧ r.holds x.g = true) := by
  refine ⟨?_, ?_, ?_, ?_, ?_, ?_, ?_, ?_, ?_, ?_, ?_⟩
  · exact ⟨cx, 1, 2, 3, 9, onCore (runI (.kPcmp cx 1 2 3 9)), runI (.kPcmp cx 1 2 3 9), ready_of (by decide +kernel), by decide +kernel⟩
  · exact ⟨cx, 1, 14, onCore (runI (.kPflag cx 1 14)), runI (.kPflag cx 1 14), ready_of (by decide +kernel), by decide +kernel⟩
  · exact ⟨(px 3), onCore (runI (.kPlogAnd (px 3))), runI (.kPlogAnd (px 3)), ready_of (by decide +kernel), by decide +kernel⟩
  · exact ⟨(px 3), onCore (runI (.kPlogOr (px 3))), runI (.kPlogOr (px 3)), ready_of (by decide +kernel), by decide +kernel⟩
  · exact ⟨(px 3), onCore (runI (.kPlogXor (px 3))), runI (.kPlogXor (px 3)), ready_of (by decide +kernel), by decide +kernel⟩
  · exact ⟨(px 3), onCore (runI (.kPlogAndn (px 3))), runI (.kPlogAndn (px 3)), ready_of (by decide +kernel), by decide +kernel⟩
  · exact ⟨(px 0), onCore (runI (.kPlogNot (px 0))), runI (.kPlogNot (px 0)), ready_of (by decide +kernel), by decide +kernel⟩
  · exact ⟨cx, 1, 5, onCore (runI (.kPset cx 1 5)), runI (.kPset cx 1 5), ready_of (by decide +kernel), by decide +kernel⟩
  · exact ⟨cx, 1, 2, onCore (runI (.kPmov cx 1 2)), runI (.kPmov cx 1 2), ready_of (by decide +kernel), by decide +kernel⟩
  · exact ⟨cx, 1, 2, onCore (runI (.kPget cx 1 2)), runI (.kPget cx 1 2), ready_of (by decide +kernel), by decide +kernel⟩
  · exact ⟨cx, 1, 2, onCore (runI (.kPcnt cx 1 2)), runI (.kPcnt cx 1 2), ready_of (by decide +kernel), by decide +kernel⟩

theorem witness_rows_KwPredicatesAndVectors_second :
    (∃ x : VArgs, ∃ s : State, ∃ r : TaskRun, Ready s x.core (.kVadd x) r ∧ r.mask x.g ≠ 0)
      ∧ (∃ x : VArgs, ∃ s : State, ∃ r : TaskRun, Ready s x.core (.kVsub x) r ∧ r.mask x.g ≠ 0)
      ∧ (∃ x : VArgs, ∃ s : State, ∃ r : TaskRun, Ready s x.core (.kVmul x) r ∧ r.mask x.g ≠ 0)
      ∧ (∃ x : VArgs, ∃ s : State, ∃ r : TaskRun, Ready s x.core (.kVand x) r ∧ r.mask x.g ≠ 0)
      ∧ (∃ x : VArgs, ∃ s : State, ∃ r : TaskRun, Ready s x.core (.kVor x) r ∧ r.mask x.g ≠ 0)
      ∧ (∃ x : VArgs, ∃ s : State, ∃ r : TaskRun, Ready s x.core (.kVxor x) r ∧ r.mask x.g ≠ 0)
      ∧ (∃ x : VArgs, ∃ s : State, ∃ r : TaskRun, Ready s x.core (.kVshl x) r ∧ r.mask x.g ≠ 0)
      ∧ (∃ x : VArgs, ∃ s : State, ∃ r : TaskRun, Ready s x.core (.kVshr x) r ∧ r.mask x.g ≠ 0)
      ∧ (∃ x : VArgs, ∃ s : State, ∃ r : TaskRun, Ready s x.core (.kVsar x) r ∧ r.mask x.g ≠ 0)
      ∧ (∃ x : VArgs, ∃ s : State, ∃ r : TaskRun, Ready s x.core (.kVmin x) r ∧ r.mask x.g ≠ 0)
      ∧ (∃ x : VArgs, ∃ s : State, ∃ r : TaskRun, Ready s x.core (.kVmax x) r ∧ r.mask x.g ≠ 0)
      ∧ (∃ x : VArgs, ∃ s : State, ∃ r : TaskRun, Ready s x.core (.kVminu x) r ∧ r.mask x.g ≠ 0)
      ∧ (∃ x : VArgs, ∃ s : State, ∃ r : TaskRun, Ready s x.core (.kVmaxu x) r ∧ r.mask x.g ≠ 0)
      ∧ (∃ x : VArgs, ∃ s : State, ∃ r : TaskRun, Ready s x.core (.kVmov x) r ∧ r.mask x.g ≠ 0)
      ∧ (∃ x : CArgs, ∃ d : Fin 32, ∃ a : Fin 16, ∃ l : Fin 16, ∃ s : State, ∃ r : TaskRun, Ready s x.core (.kVext x d a l) r ∧ r.holds x.g = true) := by
  refine ⟨?_, ?_, ?_, ?_, ?_, ?_, ?_, ?_, ?_, ?_, ?_, ?_, ?_, ?_, ?_⟩
  · exact ⟨(vx 3), onCore (runI (.kVadd (vx 3))), runI (.kVadd (vx 3)), ready_of (by decide +kernel), by decide +kernel⟩
  · exact ⟨(vx 3), onCore (runI (.kVsub (vx 3))), runI (.kVsub (vx 3)), ready_of (by decide +kernel), by decide +kernel⟩
  · exact ⟨(vx 3), onCore (runI (.kVmul (vx 3))), runI (.kVmul (vx 3)), ready_of (by decide +kernel), by decide +kernel⟩
  · exact ⟨(vx 3), onCore (runI (.kVand (vx 3))), runI (.kVand (vx 3)), ready_of (by decide +kernel), by decide +kernel⟩
  · exact ⟨(vx 3), onCore (runI (.kVor (vx 3))), runI (.kVor (vx 3)), ready_of (by decide +kernel), by decide +kernel⟩
  · exact ⟨(vx 3), onCore (runI (.kVxor (vx 3))), runI (.kVxor (vx 3)), ready_of (by decide +kernel), by decide +kernel⟩
  · exact ⟨(vx 3), onCore (runI (.kVshl (vx 3))), runI (.kVshl (vx 3)), ready_of (by decide +kernel), by decide +kernel⟩
  · exact ⟨(vx 3), onCore (runI (.kVshr (vx 3))), runI (.kVshr (vx 3)), ready_of (by decide +kernel), by decide +kernel⟩
  · exact ⟨(vx 3), onCore (runI (.kVsar (vx 3))), runI (.kVsar (vx 3)), ready_of (by decide +kernel), by decide +kernel⟩
  · exact ⟨(vx 3), onCore (runI (.kVmin (vx 3))), runI (.kVmin (vx 3)), ready_of (by decide +kernel), by decide +kernel⟩
  · exact ⟨(vx 3), onCore (runI (.kVmax (vx 3))), runI (.kVmax (vx 3)), ready_of (by decide +kernel), by decide +kernel⟩
  · exact ⟨(vx 3), onCore (runI (.kVminu (vx 3))), runI (.kVminu (vx 3)), ready_of (by decide +kernel), by decide +kernel⟩
  · exact ⟨(vx 3), onCore (runI (.kVmaxu (vx 3))), runI (.kVmaxu (vx 3)), ready_of (by decide +kernel), by decide +kernel⟩
  · exact ⟨(vx 0), onCore (runI (.kVmov (vx 0))), runI (.kVmov (vx 0)), ready_of (by decide +kernel), by decide +kernel⟩
  · exact ⟨cx, 1, 2, 15, onCore (runI (.kVext cx 1 2 15)), runI (.kVext cx 1 2 15), ready_of (by decide +kernel), by decide +kernel⟩

end Sys2Proof.Tests
end

