-- ==== Sys2Proof/Tests/WitnessMedia.lean ====
section
/-! SUPPORT. For each obligation about the media, the map and the invocations: a concrete state and operands that meet its hypotheses, clause by clause. -/

namespace Sys2Proof.Tests

open Sys2Proof Machine

set_option Elab.async false
set_option linter.all false

theorem witness_WritePath :
    (∃ c : Nat, ∃ g : Nat, ∃ id : Nat, ∃ v : Version, ∃ x : Ctx, ∃ n : NsS, ∃ old : List Byte, ∃ s : State, ((s.versionsOf c).find? (fun e => e.2.grain = g && e.2.state = .landed && ! e.2.whole) = some (id, v)) ∧ KV.get? s.media.versions id = some v ∧ s.ctx? c = some x ∧ x.state = .issued ∧ KV.get? s.media.nss v.nsx = some n ∧ grainKey v.nsx g ∉ s.map.locked ∧ s.earlierWrite c v.nsx g = false ∧ s.committedBytes n v.nsx g = some old)
      ∧ (∃ c : Nat, ∃ id : Nat, ∃ v : Version, ∃ x : Ctx, ∃ k : Nat, ∃ n : NsS, ∃ cap : Cap, ∃ r : NvmRange, ∃ fua : Bool, ∃ sl : Bool, ∃ fdp : Fdp, ∃ prp : Bool, ∃ d : List Byte, ∃ s : State, s.ctx? c = some x ∧ x.state = .issued ∧ x.waitSlc = [] ∧ x.op = .write cap r fua sl fdp prp d ∧ s.nsOf x.inst r.nsid = some (k, n) ∧ s.nextLanded c = [(id, v)] ∧ KV.get? s.media.versions id = some v ∧ v.whole = true ∧ s.earlierWrite c v.nsx v.grain = false ∧ (s.lookup v.nsx (v.grain / 512) .demand).1 = true)
      ∧ (∃ id : Nat, ∃ v : Version, ∃ s : State, KV.get? s.media.versions id = some v ∧ v.state = .committed)
      ∧ (∃ id : Nat, ∃ v : Version, ∃ s : State, Awake s ∧ KV.get? s.media.versions id = some v ∧ v.state = .committed ∧ v.reruns = 0 ∧ s.cfgB (Pg.CMP v.home) Fd.CMP_INLINE_ENABLE = true)
      ∧ (∃ st : Fin 7, ∃ slc : Bool, ∃ s : State, Calm s ∧ s.isUp Dom.FABRIC = true ∧ (s.openBands st.val slc).length < s.openLimit st.val slc ∧ ((slc = true ∨ s.media.level ≠ 3 ∨ st.val = 4)) ∧ (s.bandLanes s.media.nextBand st.val slc).length = 34)
      ∧ (∃ n : Nat, ∃ b : Band, ∃ s : State, KV.get? s.media.bands n = some b ∧ b.state = .open_ ∧ b.programming = false ∧ b.nextRow < bandRows b.slc ∧ ((∃ f ∈ b.frames, f.inRow b.nextRow = true)))
      ∧ (∃ n : Nat, ∃ b : Band, ∃ s : State, KV.get? s.media.bands n = some b ∧ b.state = .open_ ∧ b.programming = false ∧ b.nextRow < bandRows b.slc ∧ ((∃ f ∈ b.frames, f.inRow b.nextRow = true ∧ ∃ i w, f.version = some i ∧ KV.get? s.media.versions i = some w ∧ w.waitSlc = true)))
      ∧ (∃ n : Nat, ∃ id : Nat, ∃ b : Band, ∃ f : MFrame, ∃ v : Version, ∃ s : State, KV.get? s.media.bands n = some b ∧ b.state = .open_ ∧ b.programming = true ∧ (b.frames.filter (fun f => f.pages.2 = b.nextRow) = [f]) ∧ f.kind = 0 ∧ f.version = some id ∧ KV.get? s.media.versions id = some v ∧ entState (s.entryOf v.nsx v.grain) = 1 ∧ entHandle (s.entryOf v.nsx v.grain) = v.prim ∧ s.hold.flush = none ∧ s.mat.zap = [] ∧ id < s.media.nextVersion)
      ∧ (∃ n : Nat, ∃ b : Band, ∃ m : Fin 34, ∃ s : State, Awake s ∧ KV.risingFrom 0 s.media.bands = true ∧ KV.get? s.media.bands n = some b ∧ b.state = .open_ ∧ b.programming = true) := by
  refine ⟨⟨1, 0, 1, v0, ctx1 wr .issued, nsS false, (nsS false).zeroGrain, withV v0 (holding (ctx1 wr .issued)), ?_, ?_, ?_, ?_, ?_, ?_, ?_, (rfl)⟩,
    ⟨1, 1, { v0 with whole := true }, ctx1 wr .issued, 0, nsS false, iocap, rng, false, false, none, false, [], withV { v0 with whole := true } (holding (ctx1 wr .issued)), ?_, ?_, ?_, ?_, ?_, ?_, ?_, ?_, ?_, ?_⟩,
    ⟨1, { v0 with state := .committed }, withV { v0 with state := .committed } host, ?_, ?_⟩,
    ⟨1, { v0 with state := .committed }, (withV { v0 with state := .committed } host).setFld (Pg.CMP 0) Fd.CMP_INLINE_ENABLE 1, ?_, ?_, ?_, ?_, ?_⟩,
    ⟨0, false, up, ?_, ?_, ?_, ?_, (bandLanes_up)⟩,
    ⟨1, b0, withB b0 host, ?_, ?_, ?_, ?_, ?_⟩,
    ⟨1, b0, withB b0 (withV { v0 with waitSlc := true } host), ?_, ?_, ?_, ?_, (⟨f0, by decide, by decide, 1, { v0 with waitSlc := true }, rfl, rfl, rfl⟩)⟩,
    ⟨1, 1, { b0 with programming := true }, f0, v0, (withB { b0 with programming := true } (withV v0 host)).modMap fun m => { m with map := [(0, entBuffer true 0 1 1 0 0)] }, ?_, ?_, ?_, ?_, ?_, ?_, ?_, ?_, ?_, ?_, ?_, ?_⟩,
    ⟨1, { b0 with programming := true }, 33, withB { b0 with programming := true } host, ?_, ?_, ?_, ?_, ?_⟩⟩
  all_goals first
    | decide +kernel | exact authMet_of (by decide +kernel) | exact adminOk_of (by decide +kernel) | exact ok_of (by decide +kernel)
    | exact err_of (by decide +kernel) | exact calm_of (by decide +kernel) | exact ready_of (by decide +kernel) | exact current_of (by decide +kernel)
    | (simp only [Reached, AdminOk, Awake, Ready, Calm, IoOk, ConnectOk, LinkOk, DigestFree, NoItemWaits, KeyAttrOk, Admissible, Current, AdminFree, Storable, NodeWaits, ItemDone, OtherBuffer]; decide +kernel) | (intros; rfl) | trivial

theorem witness_ReadEscalationAndRebuild :
    (∃ id : Nat, ∃ m : Nat, ∃ x : MRead, ∃ s : State, KV.get? s.media.reads id = some x ∧ x.step = 1 ∧ x.who ≠ .patrol)
      ∧ (∃ id : Nat, ∃ x : MRead, ∃ s : State, KV.get? s.media.reads id = some x ∧ x.step = 1 ∧ x.who ≠ .patrol ∧ x.loc s < 8388608)
      ∧ (∃ id : Nat, ∃ m : Nat, ∃ x : MRead, ∃ s : State, KV.get? s.media.reads id = some x ∧ x.step = 1 ∧ x.who = .patrol)
      ∧ (∃ id : Nat, ∃ x : MRead, ∃ s : State, KV.get? s.media.reads id = some x ∧ x.who ≠ .patrol ∧ (x.step = 2 ∨ x.step = 3))
      ∧ (∃ id : Nat, ∃ x : MRead, ∃ b : Band, ∃ s : State, KV.get? s.media.reads id = some x ∧ KV.get? s.media.bands x.band = some b ∧ x.loc s < 8388608 ∧ x.step = 2)
      ∧ (∃ id : Nat, ∃ x : MRead, ∃ b : Band, ∃ s : State, KV.get? s.media.reads id = some x ∧ KV.get? s.media.bands x.band = some b ∧ x.loc s < 8388608 ∧ x.step = 3)
      ∧ (∃ id : Nat, ∃ x : MRead, ∃ b : Band, ∃ s : State, KV.get? s.media.reads id = some x ∧ KV.get? s.media.bands x.band = some b ∧ x.loc s < 8388608 ∧ x.step = 4 ∧ x.who ≠ .patrol ∧ s.rowLost x.band b x.row ≤ 2)
      ∧ (∃ id : Nat, ∃ x : MRead, ∃ b : Band, ∃ s : State, KV.get? s.media.reads id = some x ∧ KV.get? s.media.bands x.band = some b ∧ x.loc s < 8388608 ∧ ∃ c : Nat, ∃ p : Nat, ∃ y : Ctx, Awake s ∧ x.step = 4 ∧ x.who = .ctx c p ∧ s.ctx? c = some y ∧ Current s y ∧ y.state = .issued ∧ y.pendReads = 1 ∧ y.waitSeg = [] ∧ y.failed = none)
      ∧ (∃ id : Nat, ∃ c : Nat, ∃ p : Nat, ∃ x : MRead, ∃ y : Ctx, ∃ s : State, KV.get? s.media.reads id = some x ∧ (x.step = 6 ∨ x.step = 7) ∧ x.who = .ctx c p ∧ s.ctx? c = some y ∧ 2 ≤ y.pendReads)
      ∧ (∃ id : Nat, ∃ x : MRead, ∃ s : State, KV.get? s.media.reads id = some x ∧ x.step = 6)
      ∧ (∃ n : Nat, ∃ m : Fin 34, ∃ loc : Nat, ∃ b : Band, ∃ s : State, KV.get? s.media.bands n = some b ∧ s.rebuildBand = some n ∧ (s.memberLost b m.val = true ∨ (∃ p ∈ b.badPages, p.1 = m.val)) ∧ s.rebuildTarget b = some loc)
      ∧ (∃ n : Nat, ∃ b : Band, ∃ s : State, KV.risingFrom 0 s.media.bands = true ∧ KV.get? s.media.bands n = some b ∧ s.foldVictim = some n ∧ s.inHoldup = false)
      ∧ (∃ path : Path, ∃ b : Band, ∃ s : State, Reached s path Pg.PAR Fd.PAR_CHECK_GO_GO.off ∧ s.media.checkBusy = false ∧ KV.get? s.media.bands ((s.tickPage Pg.PAR).cfg Pg.PAR Fd.PAR_CHECK_BAND_BAND) = some b ∧ b.state = .closed)
      ∧ (∃ row : Option (Fin 4096), ∃ s : State, s.media.checkBusy = true) := by
  refine ⟨⟨1, 5, rd0, reading rd0, ?_, ?_, ?_⟩,
    ⟨1, rd0, reading rd0, ?_, ?_, ?_, ?_⟩,
    ⟨1, 5, { rd0 with who := .patrol }, reading { rd0 with who := .patrol }, ?_, ?_, ?_⟩,
    ⟨1, { rd0 with step := 3 }, reading { rd0 with step := 3 }, ?_, ?_, ?_⟩,
    ⟨1, { rd0 with step := 2 }, { b0 with state := .closed }, reading { rd0 with step := 2 }, ?_, ?_, ?_, ?_⟩,
    ⟨1, { rd0 with step := 3 }, { b0 with state := .closed }, reading { rd0 with step := 3 }, ?_, ?_, ?_, ?_⟩,
    ⟨1, { rd0 with step := 4 }, { b0 with state := .closed }, reading { rd0 with step := 4 }, ?_, ?_, ?_, ?_, ?_, ?_⟩,
    ⟨1, { rd0 with step := 4 }, { b0 with state := .closed }, reading { rd0 with step := 4 }, ?_, ?_, ?_, 1, 0, { ctx1 rd .issued with pendReads := 1 }, ?_, ?_, ?_, ?_, ?_, ?_, ?_, ?_, ?_⟩,
    ⟨1, 1, 0, { rd0 with step := 7 }, { ctx1 rd .issued with pendReads := 2 }, (reading { rd0 with step := 7 }).modCmd fun m => { m with ctxs := [(1, { ctx1 rd .issued with pendReads := 2 })] }, ?_, ?_, ?_, ?_, ?_⟩,
    ⟨1, { rd0 with step := 6 }, reading { rd0 with step := 6 }, ?_, ?_⟩,
    ⟨1, 33, 4457111, { b0 with state := .closed, unreadable := [33] }, withB { b0 with state := .closed, unreadable := [33] } host, ?_, ?_, ?_, ?_⟩,
    ⟨1, folded, retiring folded, ?_, ?_, ?_, ?_⟩,
    ⟨.mp, { b0 with state := .closed }, (withB { b0 with state := .closed } (ex Pg.PAR)).setFld Pg.PAR Fd.PAR_CHECK_BAND_BAND 1, ?_, ?_, ?_, ?_⟩,
    ⟨none, up.modMedia fun m => { m with checkBusy := true }, ?_⟩⟩
  all_goals first
    | decide +kernel | exact authMet_of (by decide +kernel) | exact adminOk_of (by decide +kernel) | exact ok_of (by decide +kernel)
    | exact err_of (by decide +kernel) | exact calm_of (by decide +kernel) | exact ready_of (by decide +kernel) | exact current_of (by decide +kernel)
    | (simp only [Reached, AdminOk, Awake, Ready, Calm, IoOk, ConnectOk, LinkOk, DigestFree, NoItemWaits, KeyAttrOk, Admissible, Current, AdminFree, Storable, NodeWaits, ItemDone, OtherBuffer]; decide +kernel) | (intros; rfl) | trivial

theorem witness_MapCache :
    (∃ quad : Quad, ∃ nsx : Nat, ∃ seg : Nat, ∃ w : Nat, ∃ m : Miss, ∃ s : State, Calm s ∧ (s.cache quad.ix).waiting = [] ∧ (s.cache quad.ix).hints = [] ∧ ((s.cache quad.ix).misses.find? (fun m => m.nsx = nsx && m.seg = seg) = some m) ∧ m.way = some w ∧ w < ((s.cache quad.ix).set m.set).ways.length)
      ∧ (∃ path : Path, ∃ s : State, ∃ w : Nat, ∃ nsx : Nat, ∃ seg : Nat, ∃ wy : Nat, ∃ n : NsS, Reached s path Pg.MAPC Fd.MAPC_HINT_GO_GO.off ∧ w = (s.tickPage Pg.MAPC).cfg Pg.MAPC Fd.MAPC_HINT_LO_WORD + 2 ^ 32 * (s.tickPage Pg.MAPC).cfg Pg.MAPC Fd.MAPC_HINT_HI_WORD ∧ bitsOf w 63 60 = 1 ∧ bitsOf w 59 48 = nsx ∧ bitsOf w 47 8 = seg ∧ w % 256 = 0 ∧ KV.get? s.media.nss nsx = some n ∧ seg < s.nsSegs nsx ∧ (s.cache (s.homeSeg nsx seg)).enabled = true ∧ s.lineThere (s.homeSeg nsx seg) nsx seg = false ∧ s.hintFills (s.homeSeg nsx seg) 0 < 16 ∧ (s.cache (s.homeSeg nsx seg)).misses.length < 256 ∧ s.segOnFlash nsx seg = true ∧ ((s.cache (s.homeSeg nsx seg)).set ((s.cache (s.homeSeg nsx seg)).setOf nsx seg)).victim = some wy ∧ (((s.cache (s.homeSeg nsx seg)).set ((s.cache (s.homeSeg nsx seg)).setOf nsx seg)).ways.getD wy .empty).dirty = false)
      ∧ (∃ path : Path, ∃ s : State, Reached s path Pg.MAPC Fd.MAPC_HINT_GO_GO.off ∧ ((bitsOf ((s.tickPage Pg.MAPC).cfg Pg.MAPC Fd.MAPC_HINT_HI_WORD) 31 28 = 0 ∨ 3 < bitsOf ((s.tickPage Pg.MAPC).cfg Pg.MAPC Fd.MAPC_HINT_HI_WORD) 31 28)))
      ∧ (∃ quad : Quad, ∃ nsx : Nat, ∃ seg : Nat, ∃ w : Nat, ∃ x : Way, ∃ s : State, ((s.cache quad.ix).set ((s.cache quad.ix).setOf nsx seg)).find nsx seg = some w ∧ ((s.cache quad.ix).set ((s.cache quad.ix).setOf nsx seg)).ways[w]? = some x ∧ x.dirty = true ∧ x.wb = false)
      ∧ (∃ s : State, s.isUp Dom.FABRIC = true ∧ s.map.ckptRunning = none)
      ∧ (∃ k : Ckpt, ∃ s : State, s.map.ckptRunning = some k)
      ∧ (∃ k : Ckpt, ∃ s : State, Awake s ∧ s.map.ckptRunning = some k)
      ∧ (∃ quad : Quad, ∃ s : State, Awake s ∧ (s.cache quad.ix).draining = true ∧ (s.cache quad.ix).resizing = false ∧ (s.cache quad.ix).drained = true)
      ∧ (∃ quad : Quad, ∃ s : State, Awake s ∧ (s.cache quad.ix).resizing = true ∧ (s.cache quad.ix).drained = true) := by
  refine ⟨⟨.spr, 0, 5, 0, ⟨5, 0, 5, some 0, .demand, 1⟩, (up.modCache 0 fun c => { c with misses := [⟨5, 0, 5, some 0, .demand, 1⟩] }), ?_, ?_, ?_, ?_, ?_, ?_⟩,
    ⟨.mp, hinting, 2 ^ 60, 0, 0, 0, nsS false, ?_, ?_, ?_, ?_, ?_, ?_, ?_, ?_, ?_, ?_, ?_, ?_, ?_, ?_, ?_⟩,
    ⟨.mp, ex Pg.MAPC, ?_, ?_⟩,
    ⟨.spr, 0, 0, 0, dirtyWay, up.modCache 0 fun c => { c with sets := [(c.setOf 0 0, ⟨dirtyWay :: List.replicate 15 .empty, 0⟩)] }, ?_, ?_, ?_, ?_⟩,
    ⟨up, ?_, ?_⟩,
    ⟨ckpt0, up.modMap fun m => { m with ckptRunning := some ckpt0 }, ?_⟩,
    ⟨ckpt0, up.modMap fun m => { m with ckptRunning := some ckpt0 }, ?_, ?_⟩,
    ⟨.spr, up.modCache 0 fun c => { c with draining := true }, ?_, ?_, ?_, ?_⟩,
    ⟨.spr, up.modCache 0 fun c => { c with resizing := true }, ?_, ?_, ?_⟩⟩
  all_goals first
    | decide +kernel | exact authMet_of (by decide +kernel) | exact adminOk_of (by decide +kernel) | exact ok_of (by decide +kernel)
    | exact err_of (by decide +kernel) | exact calm_of (by decide +kernel) | exact ready_of (by decide +kernel) | exact current_of (by decide +kernel)
    | (simp only [Reached, AdminOk, Awake, Ready, Calm, IoOk, ConnectOk, LinkOk, DigestFree, NoItemWaits, KeyAttrOk, Admissible, Current, AdminFree, Storable, NodeWaits, ItemDone, OtherBuffer]; decide +kernel) | (intros; rfl) | trivial

theorem witness_ReclaimPatrolAndRetention :
    (∃ l : Nat, ∃ at_ : Nat, ∃ s : State, Awake s ∧ s.media.levelSince = some (l, at_) ∧ s.levelFor s.availBands = l ∧ l ≠ s.media.level)
      ∧ (∃ n : Nat, ∃ wl : Bool, ∃ b : Band, ∃ s : State, KV.risingFrom 0 s.media.bands = true ∧ s.inHoldup = false ∧ s.isUp Dom.FABRIC = true ∧ s.pickVictim = some (n, wl) ∧ KV.get? s.media.bands n = some b)
      ∧ (∃ n : Nat, ∃ m : Fin 34, ∃ b : Band, ∃ s : State, Calm s ∧ KV.get? s.media.bands n = some b ∧ b.state = .erasable ∧ s.bandHeld n = false ∧ s.inHoldup = false ∧ m.val ∉ b.erased ∧ ((∀ i, i < b.members.length → s.blockState (b.members.getD i 0) = .erasable)) ∧ (s.blockRec (b.members.getD m.val 0)).wear + 32 < 32 * s.cfg Pg.MEDIA Fd.MEDIA_WL_CTRL_RETIRE_WEAR ∧ (s.blockRec (b.members.getD m.val 0)).firstRefresh < 2)
      ∧ (∃ lane : Fin 64, ∃ die : Fin 16, ∃ plane : Fin 4, ∃ block : Fin 2048, ∃ loc : Nat, ∃ n : Nat, ∃ m : Nat, ∃ b : Band, ∃ s : State, loc = ((lane.val * 16 + die.val) * 4 + plane.val) * 2048 + block.val ∧ s.bandOf loc = some (n, m) ∧ KV.get? s.media.bands n = some b ∧ b.nextRow ≠ 0 ∧ ((∀ r ∈ s.media.reads, ¬ (r.2.who = .patrol ∧ r.2.band = n ∧ r.2.member = m))) ∧ ((s.blockState loc = .member ∨ s.blockState loc = .erasable ∨ s.blockState loc = .retirePending)) ∧ b.members.getD m 0 = loc)
      ∧ (∃ s : State, Awake s ∧ s.media.catchup = true)
      ∧ (∃ s : State, s.mode.mode ≠ .off) := by
  refine ⟨⟨up.levelFor up.availBands, 0, up.modMedia (fun m => { m with levelSince := some (up.levelFor up.availBands, 0), level := up.levelFor up.availBands + 1 }), ?_, (rfl), (rfl), (Nat.ne_of_lt (Nat.lt_succ_self _))⟩,
    ⟨1, false, { folded with slc := false }, retiring { folded with slc := false }, ?_, ?_, ?_, ?_, ?_⟩,
    ⟨1, 33, { b0 with state := .erasable }, erasable, ?_, ?_, ?_, (by decide +kernel), ?_, ?_, ?_, ?_, ?_⟩,
    ⟨33, 0, 0, 900, 33 * 131072 + 900, 1, 33, { b0 with state := .closed, nextRow := 1 }, (withB { b0 with state := .closed, nextRow := 1 } up).modMedia fun m => { m with blocks := (List.range 34).map fun k => (k * 131072 + 900, { blockDefault 900 with state := .member }) }, ?_, ?_, ?_, ?_, ?_, ?_, ?_⟩,
    ⟨up.modMedia fun m => { m with catchup := true }, ?_, ?_⟩,
    ⟨up, ?_⟩⟩
  all_goals first
    | decide +kernel | exact authMet_of (by decide +kernel) | exact adminOk_of (by decide +kernel) | exact ok_of (by decide +kernel)
    | exact err_of (by decide +kernel) | exact calm_of (by decide +kernel) | exact ready_of (by decide +kernel) | exact current_of (by decide +kernel)
    | (simp only [Reached, AdminOk, Awake, Ready, Calm, IoOk, ConnectOk, LinkOk, DigestFree, NoItemWaits, KeyAttrOk, Admissible, Current, AdminFree, Storable, NodeWaits, ItemDone, OtherBuffer]; decide +kernel) | (intros; rfl) | trivial

theorem witness_FlowsAndTokens :
    (∃ c : Nat, ∃ f : Nat, ∃ k : Nat, ∃ x : Ctx, ∃ n : NsS, ∃ cap : Cap, ∃ ix : Fin 16, ∃ d : ExecDesc, ∃ bytes : Nat, ∃ s : State, c ∈ s.prog.pendOpen ∧ s.ctx? c = some x ∧ x.op = .executeProgram cap ix d bytes ∧ s.execCheck x.inst ix.val d bytes = .ok (k, n) ∧ s.pickFlow x.inst = some f)
      ∧ (∃ c : Nat, ∃ x : Ctx, ∃ st : Status, ∃ cap : Cap, ∃ ix : Fin 16, ∃ d : ExecDesc, ∃ bytes : Nat, ∃ s : State, c ∈ s.prog.pendOpen ∧ s.ctx? c = some x ∧ Current s x ∧ x.op = .executeProgram cap ix d bytes ∧ s.execCheck x.inst ix.val d bytes = .error st)
      ∧ (∃ flow : Fin 16384, ∃ quad : Quad, ∃ f : Flow, ∃ p : Prog, ∃ seq : Nat, ∃ e : Nat, ∃ s : State, s.flow? flow.val = some f ∧ f.endWith = none ∧ s.progOf f = some p ∧ f.walked.getD quad.ix 0 ≤ seq ∧ seq < min f.count (f.known.getD quad.ix 0 + 4096) ∧ s.home f.nsx (f.grain0 + seq) = quad.ix ∧ ((∀ k, f.walked.getD quad.ix 0 ≤ k → k < seq → s.home f.nsx (f.grain0 + k) ≠ quad.ix)) ∧ seq ≠ f.d.startSeq ∧ (f.grain0 + seq) % 512 ≠ 0 ∧ (s.lookup f.nsx ((f.grain0 + seq) / 512) .scan).1 = true ∧ e = s.entryOf f.nsx (f.grain0 + seq) ∧ entTag e = mapTag f.nsx (f.grain0 + seq))
      ∧ (∃ flow : Fin 16384, ∃ f : Flow, ∃ s : State, s.flow? flow.val = some f ∧ f.since ≠ 0)
      ∧ (∃ quad : Quad, ∃ flow : Fin 16384, ∃ seq : Nat, ∃ tk : Token, ∃ f : Flow, ∃ n : NsS, ∃ s : State, (s.prog.flight.find? (fun t => t.kind = 1 && t.flow = flow.val && t.seq = seq) = some tk) ∧ s.readQuad tk = quad.ix ∧ s.flow? flow.val = some f ∧ tk.gen = s.gen tk.inst ∧ KV.get? s.media.nss f.nsx = some n ∧ s.bufAlloc quad.ix f.inst 0 n.grainBytes = none)
      ∧ (∃ quad : Quad, ∃ flow : Fin 16384, ∃ seq : Nat, ∃ tk : Token, ∃ f : Flow, ∃ n : NsS, ∃ s : State, (s.prog.flight.find? (fun t => t.kind = 1 && t.flow = flow.val && t.seq = seq) = some tk) ∧ s.readQuad tk = quad.ix ∧ s.flow? flow.val = some f ∧ tk.gen = s.gen tk.inst ∧ KV.get? s.media.nss f.nsx = some n ∧ ∃ h : Nat, ∃ i : Nat, ∃ u : State, ∃ v : Version, ∃ p : Prog, s.bufAlloc quad.ix f.inst 0 n.grainBytes = some (h, u) ∧ KV.get? f.sent seq = some tk ∧ entState tk.value.toNat = 1 ∧ s.bufVersion f.nsx (tk.aux.toNat % 2 ^ 40) tk.value.toNat = some (i, v) ∧ s.progOf f = some p)
      ∧ (∃ quad : Quad, ∃ tk : Token, ∃ f : Flow, ∃ s : State, tk ∈ s.prog.flight ∧ tk.kind ≠ 1 ∧ tk.port < 0x3FD ∧ Storable s quad.ix f tk ∧ s.tokenQuad f tk.flow tk.port (s.seqQuad f tk.seq) = quad.ix ∧ (s.grantEntry quad.ix tk).1 = true ∧ NodeWaits s quad.ix f tk)
      ∧ (∃ quad : Quad, ∃ tk : Token, ∃ f : Flow, ∃ s : State, tk ∈ s.prog.flight ∧ tk.kind ≠ 1 ∧ tk.port < 0x3FD ∧ Storable s quad.ix f tk ∧ s.tokenQuad f tk.flow tk.port (s.seqQuad f tk.seq) = quad.ix ∧ (s.grantEntry quad.ix tk).1 = false)
      ∧ (∃ quad : Quad, ∃ tk : Token, ∃ f : Flow, ∃ s : State, ((s.disp quad.ix).held.find? (fun t => (s.grantEntry quad.ix t).1) = some tk) ∧ Storable s quad.ix f tk ∧ NodeWaits s quad.ix f tk)
      ∧ (∃ quad : Quad, ∃ flow : Fin 16384, ∃ seq : Nat, ∃ node : Nat, ∃ f : Flow, ∃ n : Node, ∃ s : State, Awake s ∧ s.flow? flow.val = some f ∧ s.nodeOf f node = some n ∧ ((∃ k, k < n.inputs ∧ (KV.get? (s.disp quad.ix).entries (tokenKey flow.val seq (4 * node + k))).isSome = true)) ∧ ((∃ k, k < n.inputs ∧ KV.get? (s.disp quad.ix).entries (tokenKey flow.val seq (4 * node + k)) = none)) ∧ ((∀ k e, k < n.inputs → KV.get? (s.disp quad.ix).entries (tokenKey flow.val seq (4 * node + k)) = some e → e.fired = false)))
      ∧ (∃ tk : Token, ∃ f : Flow, ∃ x : Ctx, ∃ s : State, tk ∈ s.prog.flight ∧ tk.port = portRelease ∧ s.flow? tk.flow = some f ∧ tk.gen = s.gen tk.inst ∧ ((∀ e ∈ s.prog.flows, e.2.segWait = [])) ∧ f.endWith = none ∧ f.placed ≤ tk.seq ∧ tk.seq < f.base + 4096 ∧ tk.seq < f.count ∧ KV.get? f.window tk.seq = none ∧ KV.get? f.window f.placed = none ∧ f.placed < tk.seq)
      ∧ (∃ tk : Token, ∃ f : Flow, ∃ x : Ctx, ∃ s : State, tk ∈ s.prog.flight ∧ tk.port = portRelease ∧ s.flow? tk.flow = some f ∧ tk.gen = s.gen tk.inst ∧ ((∀ e ∈ s.prog.flows, e.2.segWait = [])) ∧ f.endWith = none ∧ f.placed ≤ tk.seq ∧ tk.seq < f.base + 4096 ∧ tk.seq < f.count ∧ KV.get? f.window tk.seq = none ∧ KV.get? f.window f.placed = none ∧ tk.seq = f.placed ∧ f.window = [] ∧ f.placed + 1 < f.count ∧ tk.kind = 2 ∧ tk.buf = false ∧ f.d.outKind = 0 ∧ s.ctx? f.ctx = some x ∧ Current s x ∧ f.outUsed + 48 ≤ s.outSpace f)
      ∧ (∃ quad : Quad, ∃ flow : Fin 16384, ∃ seq : Nat, ∃ f : Flow, ∃ s : State, s.flow? flow.val = some f ∧ seq < f.base)
      ∧ (∃ flow : Fin 16384, ∃ f : Flow, ∃ at_ : Nat, ∃ nsx : Nat, ∃ ns : NsS, ∃ s : State, s.flow? flow.val = some f ∧ f.segAt = some at_ ∧ f.seg ≠ [] ∧ f.seg.length ≤ 2 ^ 30 ∧ f.endWith = none ∧ s.nsOf f.inst f.d.outNsid = some (nsx, ns))
      ∧ (∃ tk : Token, ∃ f : Flow, ∃ s : State, tk ∈ s.prog.flight ∧ tk.port = portError ∧ s.flow? tk.flow = some f ∧ tk.gen = s.gen tk.inst ∧ f.d.stopOnError = false ∧ f.d.errMrs ≠ 0xFFFF ∧ f.errUsed + 32 ≤ f.d.errLen) := by
  refine ⟨⟨1, 4096, 0, xctx, nsS false, iocap, 0, desc, 4096, (flowing [node 0 1 1 0] flow0).modProg fun p => { p with pendOpen := [1] }, ?_, ?_, ?_, ?_, ?_⟩,
    ⟨1, xctx, St.progNotActive, iocap, 0, desc, 4096, (holding xctx).modProg fun p => { p with pendOpen := [1] }, ?_, ?_, ?_, ?_, ?_⟩,
    ⟨0, .spr, { flow0 with walked := [1, 1, 1, 1] }, prog0 [node 0 1 1 0], 1, mapTag 0 1, flowing [node 0 1 1 0] { flow0 with walked := [1, 1, 1, 1] }, ?_, ?_, ?_, ?_, ?_, ?_, (fun k a b => (Nat.lt_irrefl _ (Nat.lt_of_le_of_lt a b)).elim), ?_, ?_, ?_, ?_, ?_⟩,
    ⟨0, { flow0 with since := 5 }, flowing [] { flow0 with since := 5 }, ?_, ?_⟩,
    ⟨.spr, 0, 1, rdTok, flow0, nsS false, (flying rdTok (flowing [node 0 1 1 0] flow0)).modPool 0 fun p => { p with sram := [0, 0, 0, 0, 0], dram := [0, 0, 0, 0, 0] }, ?_, ?_, ?_, ?_, ?_, ?_⟩,
    ⟨.spr, 0, 1, rdTok, { flow0 with sent := [(1, rdTok)] }, nsS false, reads, ?_, ?_, ?_, ?_, ?_, (alloc 0 0 0 16384 reads).1, 1, (alloc 0 0 0 16384 reads).2, { v0 with grain := 1 }, prog0 [node 0 1 1 0], (alloc_of (by decide +kernel)), ?_, ?_, ?_, ?_⟩,
    ⟨.spr, tok 0 2, flow0, flying (tok 0 2) (flowing [node 0 2 1 0] flow0), ?_, ?_, ?_, ?_, ?_, ?_, (⟨node 0 2 1 0, 1, by decide +kernel⟩)⟩,
    ⟨.spr, tok 0 2, flow0, fullStore 65536, ?_, ?_, ?_, (fullStore_storable _), (rfl), (fullStore_grant _ (Nat.le_refl _))⟩,
    ⟨.spr, tok 0 2, flow0, (flowing [node 0 2 1 0] flow0).modDisp 0 (fun d => { d with held := [tok 0 2] }), ?_, ?_, (⟨node 0 2 1 0, 1, by decide +kernel⟩)⟩,
    ⟨.spr, 0, 1, 0, flow0, node 0 2 1 0, (flowing [node 0 2 1 0] flow0).modDisp 0 (fun d => { d with entries := [(tokenKey 0 1 0, ⟨tok 0 2, false, 0⟩)] }), ?_, ?_, ?_, ?_, ?_, (entries_unfired (by decide +kernel))⟩,
    ⟨{ tok portRelease 2 with seq := 1 }, flow0, xctx, flying (tok portRelease 2) (flowing [node 0 1 1 0] flow0), ?_, ?_, ?_, ?_, ?_, ?_, ?_, ?_, ?_, ?_, ?_, ?_⟩,
    ⟨{ tok portRelease 2 with seq := 0 }, flow0, xctx, flying { tok portRelease 2 with seq := 0 } (flowing [node 0 1 1 0] flow0), ?_, ?_, ?_, ?_, ?_, ?_, ?_, ?_, ?_, ?_, ?_, ?_, ?_, ?_, ?_, ?_, ?_, ?_, ?_, ?_⟩,
    ⟨.spr, 0, 0, { flow0 with base := 1 }, flowing [] { flow0 with base := 1 }, ?_, ?_⟩,
    ⟨0, { flow0 with segAt := some 5, seg := [1] }, 5, 0, nsS false, flowing [] { flow0 with segAt := some 5, seg := [1] }, ?_, ?_, ?_, ?_, ?_, ?_⟩,
    ⟨{ tok portError 4 with err := 1 }, { flow0 with d := { desc with errMrs := 1, errLen := 32 } }, flying { tok portError 4 with err := 1 } (flowing [] { flow0 with d := { desc with errMrs := 1, errLen := 32 } }), ?_, ?_, ?_, ?_, ?_, ?_, ?_⟩⟩
  all_goals first
    | decide +kernel | exact authMet_of (by decide +kernel) | exact adminOk_of (by decide +kernel) | exact ok_of (by decide +kernel)
    | exact err_of (by decide +kernel) | exact calm_of (by decide +kernel) | exact ready_of (by decide +kernel) | exact current_of (by decide +kernel)
    | (simp only [Reached, AdminOk, Awake, Ready, Calm, IoOk, ConnectOk, LinkOk, DigestFree, NoItemWaits, KeyAttrOk, Admissible, Current, AdminFree, Storable, NodeWaits, ItemDone, OtherBuffer]; decide +kernel) | (intros; rfl) | trivial

theorem witness_TasksAndBuffers :
    (∃ quad : Quad, ∃ tk : Task, ∃ k : Nat, ∃ f : Flow, ∃ p : Prog, ∃ n : Node, ∃ s : State, (s.disp quad.ix).ready = [tk] ∧ tk.prio < 4 ∧ (s.disp quad.ix).cores.last = tk.inst ∧ 0 < KV.getD 0 (s.disp quad.ix).cores.credit tk.inst ∧ s.pickCore quad.ix tk = some k ∧ s.flow? tk.flow = some f ∧ s.progOf f = some p ∧ s.nodeOf f tk.node = some n ∧ ((∀ e ∈ (s.disp quad.ix).entries, e.2.fired = true)))
      ∧ (∃ core : CoreId, ∃ r : TaskRun, ∃ f : Flow, ∃ s : State, Awake s ∧ (s.core core.key).run = some r ∧ r.stallAt = none ∧ r.task.expiries = 0 ∧ s.flow? r.task.flow = some f ∧ r.task.attempt + 1 < s.cfg (Pg.TSK core.quad.ix) Fd.TSK_REEXEC_LIMIT)
      ∧ (∃ core : CoreId, ∃ r : TaskRun, ∃ f : Flow, ∃ s : State, (s.core core.key).run = some r ∧ r.stallAt = none ∧ r.task.expiries ≠ 0 ∧ s.flow? r.task.flow = some f)
      ∧ (∃ h : BitVec 41, ∃ b : Buf, ∃ s : State, KV.get? s.buf.bufs (h.toNat / 4096) = some b ∧ b.zeroing = true ∧ (s.pool (keyQuad (h.toNat / 4096))).waits = [])
      ∧ (∃ h : BitVec 41, ∃ b : Buf, ∃ s : State, KV.get? s.buf.bufs (h.toNat / 4096) = some b ∧ s.validHandle h.toNat = true ∧ b.refs < 255)
      ∧ (∃ h : BitVec 41, ∃ b : Buf, ∃ s : State, KV.get? s.buf.bufs (h.toNat / 4096) = some b ∧ s.validHandle h.toNat = true ∧ 255 ≤ b.refs ∧ b.idle = false)
      ∧ (∃ h : BitVec 41, ∃ b : Buf, ∃ s : State, KV.get? s.buf.bufs (h.toNat / 4096) = some b ∧ s.validHandle h.toNat = true ∧ 2 ≤ b.refs)
      ∧ (∃ h : BitVec 41, ∃ b : Buf, ∃ s : State, KV.get? s.buf.bufs (h.toNat / 4096) = some b ∧ s.validHandle h.toNat = true ∧ b.refs = 1)
      ∧ (∃ h : BitVec 41, ∃ b : Buf, ∃ s : State, KV.get? s.buf.bufs (h.toNat / 4096) = some b ∧ s.validHandle h.toNat = true ∧ b.refs = 0 ∧ Awake s)
      ∧ (∃ h : BitVec 41, ∃ s : State, s.validHandle h.toNat = false)
      ∧ (∃ h : BitVec 41, ∃ s : State, s.validHandle h.toNat = false)
      ∧ (∃ quad : Quad, ∃ at_ : Nat, ∃ s : State, Awake s ∧ (s.pool quad.ix).fullSince = some at_ ∧ (s.pool quad.ix).fullLogged = false)
      ∧ (∃ quad : Quad, ∃ cl : Fin 4, ∃ s : State, Awake s ∧ (s.cluster quad.ix cl.val).draining = true) := by
  refine ⟨⟨.spr, task0, 0, flow0, prog0 [node 0 1 1 0], node 0 1 1 0, (((flowing [node 0 1 1 0] flow0).modKw fun k => { k with tested := true }).modDisp 0 fun d => { d with ready := [task0], cores := ⟨[(0, 5)], 0⟩ }), ?_, ?_, ?_, ?_, ?_, ?_, ?_, ?_, ?_⟩,
    ⟨kid, run0 0, flow0, onCore (run0 0), ?_, ?_, ?_, ?_, ?_, ?_⟩,
    ⟨kid, { run0 0 with task := { task0 with expiries := 1 } }, flow0, onCore { run0 0 with task := { task0 with expiries := 1 } }, ?_, ?_, ?_, ?_⟩,
    ⟨hd, { buf0 0 with zeroing := true }, withBuf { buf0 0 with zeroing := true }, ?_, ?_, ?_⟩,
    ⟨hd, buf0 254, withBuf (buf0 254), ?_, ?_, ?_⟩,
    ⟨hd, buf0 255, withBuf (buf0 255), ?_, ?_, ?_, ?_⟩,
    ⟨hd, buf0 2, withBuf (buf0 2), ?_, ?_, ?_⟩,
    ⟨hd, buf0 1, withBuf (buf0 1), ?_, ?_, ?_⟩,
    ⟨hd, buf0 0, withBuf (buf0 0), ?_, ?_, ?_, ?_⟩,
    ⟨2 ^ 40, up, ?_⟩,
    ⟨2 ^ 40, up, ?_⟩,
    ⟨.spr, 5, up.modPool 0 fun p => { p with fullSince := some 5 }, ?_, ?_, ?_⟩,
    ⟨.spr, 0, up.modKw fun k => { k with clusters := [(0, { ClusterS.init with draining := true })] }, ?_, ?_⟩⟩
  all_goals first
    | decide +kernel | exact authMet_of (by decide +kernel) | exact adminOk_of (by decide +kernel) | exact ok_of (by decide +kernel)
    | exact err_of (by decide +kernel) | exact calm_of (by decide +kernel) | exact ready_of (by decide +kernel) | exact current_of (by decide +kernel)
    | (simp only [Reached, AdminOk, Awake, Ready, Calm, IoOk, ConnectOk, LinkOk, DigestFree, NoItemWaits, KeyAttrOk, Admissible, Current, AdminFree, Storable, NodeWaits, ItemDone, OtherBuffer]; decide +kernel) | (intros; rfl) | trivial

end Sys2Proof.Tests
end

section
/-! SUPPORT. The rules that the rows of the Kwalia cores share: what an instruction leaves that writes registers and
flags alone, and how a row follows from the body of its instruction (R322, R323, R327, R329, R331). -/

namespace Sys2Proof.KwRows

open Sys2Proof Machine Laws

/-! ## Bodies that write registers and flags alone -/

/-- Nothing but registers and flags of the task differs. -/
def RegsOnly (r r' : TaskRun) : Prop := { r with g := r'.g, p := r'.p, v := r'.v, flags := r'.flags } = r'

theorem regsOnly_setG (r : TaskRun) (d : Fin 32) (v : Word) : RegsOnly r (r.setG d v) := by
  unfold TaskRun.setG; split <;> rfl

theorem regsOnly_setP (r : TaskRun) (d : Fin 8) (v : BitVec 16) : RegsOnly r (r.setP d v) := by
  unfold TaskRun.setP; split <;> rfl

theorem regsOnly_flags (r : TaskRun) (f : Flags) : RegsOnly r { r with flags := f } := rfl

theorem regsOnly_trans {r r' r'' : TaskRun} (h : RegsOnly r r') (k : RegsOnly r' r'') : RegsOnly r r'' := by
  unfold RegsOnly at *; rw [← k, ← h]

/-- A body that writes registers and flags alone is, once completed, a scalar instruction's effect. -/
theorem scalar_iterate {r r' : TaskRun} (h : RegsOnly r r') : Scalar r r'.iterate := by
  unfold RegsOnly at h
  rw [← h]
  exact ⟨completes_of rfl rfl rfl rfl rfl rfl rfl, keepsRest_iterate rfl, iterate_scratch _⟩

/-! ## What a register write leaves -/

@[simp] theorem setG_flags (r : TaskRun) (d : Fin 32) (v : Word) : (r.setG d v).flags = r.flags := by unfold TaskRun.setG; split <;> rfl
@[simp] theorem setG_p (r : TaskRun) (d : Fin 32) (v : Word) : (r.setG d v).p = r.p := by unfold TaskRun.setG; split <;> rfl
@[simp] theorem setG_v (r : TaskRun) (d : Fin 32) (v : Word) : (r.setG d v).v = r.v := by unfold TaskRun.setG; split <;> rfl
@[simp] theorem setP_flags (r : TaskRun) (d : Fin 8) (v : BitVec 16) : (r.setP d v).flags = r.flags := by unfold TaskRun.setP; split <;> rfl
@[simp] theorem setP_g (r : TaskRun) (d : Fin 8) (v : BitVec 16) : (r.setP d v).g = r.g := by unfold TaskRun.setP; split <;> rfl
@[simp] theorem setP_v (r : TaskRun) (d : Fin 8) (v : BitVec 16) : (r.setP d v).v = r.v := by unfold TaskRun.setP; split <;> rfl
@[simp] theorem rg_flags (r : TaskRun) (f : Flags) (i : Fin 32) : { r with flags := f }.rg i = r.rg i := rfl

theorem writesG_setG (r : TaskRun) (d : Fin 32) (v : Word) : WritesG r (r.setG d v).iterate d v := fun i => by
  rw [iterate_rg, rg_setG]

theorem writesP_setP (r : TaskRun) (d : Fin 8) (v : BitVec 16) : WritesP r (r.setP d v).iterate d v := fun i => by
  rw [iterate_pg, pg_setP]

/-! ## Running a body -/

/-- A ready instruction whose body completes with the task `r'` changes the task of its core alone, to `r'` moved on. -/
theorem exec_completes {i : Instr} {s : State} {core : CoreId} {r r' : TaskRun} {w : Word} {g : Guard} {vec noRep : Bool}
    {body : State → TaskRun → KOut} (hexec : exec i s = .next (s.kStep w core g vec false noRep body)) (henc : kwEncode i = some w)
    (hr : Ready s core i r) (hon : (if vec then decide (r.mask g ≠ 0) else r.holds g) = true) (hrep : r.rep = true → noRep = false)
    (hbody : body s r = .next s r') : ∃ t, exec i s = .next t ∧ OnlyTask s t core r'.iterate :=
  ⟨s.putRun core.key r'.iterate, by rw [hexec, kStep_runs hr henc hon hrep, hbody], onlyTask_putRun s core _⟩

/-- A ready instruction whose body sets its own PC leaves the task of its core as the body says, and nothing else changes. -/
theorem exec_goes {i : Instr} {s : State} {core : CoreId} {r r' : TaskRun} {w : Word} {g : Guard} {vec noRep : Bool}
    {body : State → TaskRun → KOut} (hexec : exec i s = .next (s.kStep w core g vec false noRep body)) (henc : kwEncode i = some w)
    (hr : Ready s core i r) (hon : (if vec then decide (r.mask g ≠ 0) else r.holds g) = true) (hrep : r.rep = true → noRep = false)
    (hbody : body s r = .goto s r') : ∃ t, exec i s = .next t ∧ OnlyTask s t core r' :=
  ⟨s.putRun core.key r', by rw [hexec, kStep_runs hr henc hon hrep, hbody], onlyTask_putRun s core _⟩

/-- A ready instruction whose body ends by an exception takes it. -/
theorem exec_faults {i : Instr} {s : State} {core : CoreId} {r r' : TaskRun} {w : Word} {g : Guard} {vec noRep : Bool} {code : Nat}
    {body : State → TaskRun → KOut} (hexec : exec i s = .next (s.kStep w core g vec false noRep body)) (henc : kwEncode i = some w)
    (hr : Ready s core i r) (hon : (if vec then decide (r.mask g ≠ 0) else r.holds g) = true) (hrep : r.rep = true → noRep = false)
    (hbody : body s r = .exc code r') : exec i s = .next (s.takeExc core.key r' code) := by
  rw [hexec, kStep_runs hr henc hon hrep, hbody]

/-- A scalar instruction that writes one general register, with the value that its body gives. -/
theorem exec_writesG {i : Instr} {s : State} {core : CoreId} {r : TaskRun} {w : Word} {g : Guard} (d : Fin 32) (val : TaskRun → Word)
    (hexec : exec i s = .next (s.kStep w core g false false false fun s r => .next s (r.setG d (val r)))) (henc : kwEncode i = some w)
    (hr : Ready s core i r) (hg : r.holds g = true) :
    ∃ t r', exec i s = .next t ∧ OnlyTask s t core r' ∧ WritesG r r' d (val r) ∧ Scalar r r' ∧ r'.flags = r.flags ∧ r'.p = r.p ∧ r'.v = r.v := by
  obtain ⟨t, ht, honly⟩ := exec_completes hexec henc hr hg (fun _ => rfl) rfl
  exact ⟨t, _, ht, honly, writesG_setG _ _ _, scalar_iterate (regsOnly_setG ..), by simp, by simp, by simp⟩

end Sys2Proof.KwRows
end

section
/-! SUPPORT. The words that the arithmetic of the cores computes, as the rules of R334, R335 and R342 state them. -/

namespace Sys2Proof.KwRows

open Sys2Proof Machine Laws

/-! ## Shifts and rotations -/

theorem shlW_toNat (a b : Word) : (Alu.shlW a b).toNat = a.toNat * 2 ^ b.toNat % 2 ^ 32 := by
  unfold Alu.shlW
  split
  · rw [BitVec.toNat_shiftLeft, Nat.shiftLeft_eq]
  · have hdvd : 2 ^ 32 ∣ a.toNat * 2 ^ b.toNat := Nat.dvd_mul_left_of_dvd (Nat.pow_dvd_pow 2 (by omega)) _
    rw [Nat.mod_eq_zero_of_dvd hdvd]; rfl

theorem shrW_toNat (a b : Word) : (Alu.shrW a b).toNat = a.toNat / 2 ^ b.toNat := by
  unfold Alu.shrW
  split
  · rw [BitVec.toNat_ushiftRight, Nat.shiftRight_eq_div_pow]
  · have hlt : a.toNat < 2 ^ b.toNat := Nat.lt_of_lt_of_le a.isLt (Nat.pow_le_pow_right (by decide) (by omega))
    rw [Nat.div_eq_of_lt hlt]; rfl

/-- A negative number divided by one that is no smaller than its size rounds down to −1. -/
theorem ediv_eq_neg_one {a m : Int} (hneg : a < 0) (hle : -m ≤ a) : a / m = -1 := by
  have hm : 0 < m := by omega
  have hlow : -1 ≤ a / m := (Int.le_ediv_iff_mul_le hm).mpr (by omega)
  have hhigh : a / m < 0 := Int.ediv_neg_of_neg_of_pos hneg hm
  omega

/-- A quotient by more than the sign's place is the sign's: 0 or −1. -/
theorem toInt_div_two_pow (a : Word) {n : Nat} (h : 31 ≤ n) : a.toInt / 2 ^ n = a.toInt / 2 ^ 31 := by
  have hlo := a.le_toInt
  have hhi := a.toInt_lt
  have hpow : (2 : Int) ^ 31 ≤ 2 ^ n := by exact_mod_cast Nat.pow_le_pow_right (by decide : 0 < 2) h
  generalize (2 : Int) ^ n = m at hpow ⊢
  by_cases hs : 0 ≤ a.toInt
  · rw [Int.ediv_eq_zero_of_lt hs (by omega), Int.ediv_eq_zero_of_lt hs (by omega)]
  · rw [ediv_eq_neg_one (by omega) (by omega), ediv_eq_neg_one (by omega) (by omega)]

theorem sarW_toInt (a b : Word) : (Alu.sarW a b).toInt = a.toInt / 2 ^ b.toNat := by
  rw [Alu.sarW, BitVec.toInt_sshiftRight, Int.shiftRight_eq_div_pow]
  by_cases h : b.toNat ≤ 31
  · rw [Nat.min_eq_left h, Int.natCast_pow]; rfl
  · rw [Nat.min_eq_right (by omega), toInt_div_two_pow a (by omega)]; rfl

theorem rotateRight_getLsbD (a : Word) (n i : Nat) (hi : i < 32) : (a.rotateRight (n % 32)).getLsbD i = a.getLsbD ((i + n) % 32) := by
  rw [BitVec.getLsbD_rotateRight, Nat.mod_mod]
  by_cases h : i < 32 - n % 32
  · rw [decide_eq_true h, cond_true]; congr 1; omega
  · rw [decide_eq_false h, cond_false, decide_eq_true hi, Bool.true_and]; congr 1; omega

/-! ## Smallest and largest -/

theorem minW_toInt (a b : Word) : (Alu.minW a b).toInt = min a.toInt b.toInt := by
  unfold Alu.minW
  split
  · next h => rw [BitVec.slt_iff_toInt_lt] at h; omega
  · next h => rw [BitVec.slt_iff_toInt_lt] at h; omega

theorem maxW_toInt (a b : Word) : (Alu.maxW a b).toInt = max a.toInt b.toInt := by
  unfold Alu.maxW
  split
  · next h => rw [BitVec.slt_iff_toInt_lt] at h; omega
  · next h => rw [BitVec.slt_iff_toInt_lt] at h; omega

theorem minuW_toNat (a b : Word) : (Alu.minuW a b).toNat = min a.toNat b.toNat := by
  unfold Alu.minuW
  split
  · next h => rw [BitVec.ult_iff_lt, BitVec.lt_def] at h; omega
  · next h => rw [BitVec.ult_iff_lt, BitVec.lt_def] at h; omega

theorem maxuW_toNat (a b : Word) : (Alu.maxuW a b).toNat = max a.toNat b.toNat := by
  unfold Alu.maxuW
  split
  · next h => rw [BitVec.ult_iff_lt, BitVec.lt_def] at h; omega
  · next h => rw [BitVec.ult_iff_lt, BitVec.lt_def] at h; omega

/-! ## Result and flags of the immediate rows -/

/-- A rule of the ALU is met by a function of it, whatever the flags and the operands. -/
def Meets (rule : Flags → Word → Word → Word → Flags → Prop) (f : Flags → Word → Word → AluRes) : Prop :=
  ∀ (fl : Flags) (a b : Word), rule fl a b (f fl a b).d (fl.after (f fl a b))

theorem meets_add : Meets ruleAdd Alu.add := fun fl a b => by
  simp [ruleAdd, FlagsAre, Flags.after, Alu.add, Alu.addc]

theorem meets_sub : Meets ruleSub Alu.sub := fun fl a b => by
  simp [ruleSub, FlagsAre, Flags.after, Alu.sub, Alu.subb]

/-- A plain result sets N and Z alone. -/
theorem after_plain (fl : Flags) (d : Word) : fl.after (.plain d) = { fl with n := d.msb, z := decide (d = 0) } := by
  rw [Flags.after, AluRes.plain, Bool.or_false]; rfl

/-- A row that sets N and Z alone meets its rule where the result is as the rule says. -/
theorem meets_ruleNZ {p : Word → Word → Word → Prop} {w : Word → Word → Word} (h : ∀ a b, p a b (w a b)) :
    Meets (ruleNZ p) fun _ a b => .plain (w a b) := fun fl a b =>
  ⟨h a b, after_plain fl _⟩

theorem meets_and : Meets ruleAnd Alu.and := meets_ruleNZ (w := fun a b => a &&& b) fun _ _ _ => BitVec.getLsbD_and
theorem meets_or : Meets ruleOr Alu.or := meets_ruleNZ (w := fun a b => a ||| b) fun _ _ _ => BitVec.getLsbD_or
theorem meets_xor : Meets ruleXor Alu.xor := meets_ruleNZ (w := fun a b => a ^^^ b) fun _ _ _ => BitVec.getLsbD_xor
theorem meets_shl : Meets ruleShl Alu.shl := meets_ruleNZ shlW_toNat
theorem meets_shr : Meets ruleShr Alu.shr := meets_ruleNZ shrW_toNat
theorem meets_sar : Meets ruleSar Alu.sar := meets_ruleNZ sarW_toInt
theorem meets_ror : Meets ruleRor Alu.ror :=
  meets_ruleNZ (w := fun a b => a.rotateRight (b.toNat % 32)) fun a b i hi => rotateRight_getLsbD a b.toNat i hi

end Sys2Proof.KwRows
end

section
/-! The immediate and constant instructions (R335). -/

namespace Sys2Proof.KwRows

open Sys2Proof Machine Laws

/-- An immediate instruction whose function meets a rule is a row of that rule. -/
theorem immRow {mk : IArgs → Instr} {write : Bool} {ext : BitVec 12 → Word} {rule : Flags → Word → Word → Word → Flags → Prop}
    {f : Flags → Word → Word → AluRes} (w : IArgs → Word) (hexec : ∀ x s, exec (mk x) s = .next (s.kImm (w x) x (ext x.imm) f write))
    (henc : ∀ x, kwEncode (mk x) = some (w x)) (hrule : Meets rule f) : ImmRow mk write ext rule := by
  intro x s r hr hg
  obtain ⟨t, ht, honly⟩ := exec_completes (hexec x s) (henc x) hr hg (fun _ => rfl) rfl
  refine ⟨t, _, (f r.flags (r.rg x.a) (ext x.imm)).d, ht, honly, ?_⟩
  cases write with
  | true =>
    exact ⟨by simpa using hrule .., writesG_setG _ _ _, scalar_iterate (regsOnly_trans (regsOnly_flags r _) (regsOnly_setG ..)), by simp, by simp⟩
  | false => exact ⟨by simpa using hrule .., fun i => by simp, scalar_iterate (regsOnly_flags r _), by simp, by simp⟩

/-! ## MOVH -/

theorem lowHalfMask_getLsbD (j : Nat) : (0xFFFF#32).getLsbD j = decide (j < 16) := by
  rw [show 0xFFFF#32 = (BitVec.allOnes 16).setWidth 32 by rfl, BitVec.getLsbD_setWidth, BitVec.getLsbD_allOnes]
  grind

/-- The word of MOVH: IMM16 above the low half of the old value. -/
theorem movh_halves (imm : BitVec 17) (a : Word) :
    ((imm.zeroExtend 32 <<< 16) ||| (a &&& 0xFFFF#32)).extractLsb' 16 16 = imm.extractLsb' 0 16
      ∧ ((imm.zeroExtend 32 <<< 16) ||| (a &&& 0xFFFF#32)).extractLsb' 0 16 = a.extractLsb' 0 16 := by
  constructor <;> refine BitVec.eq_of_getLsbD_eq fun j hj => ?_
  · have hwide : 16 + j < 32 := by omega
    have hnarrow : j < 32 := by omega
    have hhigh : ¬ 16 + j < 16 := by omega
    simp [lowHalfMask_getLsbD, hj, hwide, hnarrow, hhigh, -BitVec.getLsbD_eq_getElem]
  · simp [lowHalfMask_getLsbD, hj, show j < 32 by omega, -BitVec.getLsbD_eq_getElem]

/-- Settles O3: each row's function meets the row's rule; MOVI and MOVH write their register alone. -/
theorem kwImmediates : Obligations.KwImmediates := by
  refine ⟨immRow (encI · 0x01) (fun _ _ => rfl) (fun _ => rfl) meets_add, immRow (encI · 0x02) (fun _ _ => rfl) (fun _ => rfl) meets_and,
    immRow (encI · 0x03) (fun _ _ => rfl) (fun _ => rfl) meets_or, immRow (encI · 0x04) (fun _ _ => rfl) (fun _ => rfl) meets_xor,
    immRow (encI · 0x05) (fun _ _ => rfl) (fun _ => rfl) meets_shl, immRow (encI · 0x06) (fun _ _ => rfl) (fun _ => rfl) meets_shr,
    immRow (encI · 0x07) (fun _ _ => rfl) (fun _ => rfl) meets_sar, immRow (encI · 0x08) (fun _ _ => rfl) (fun _ => rfl) meets_ror,
    immRow (encI · 0x09) (fun _ _ => rfl) (fun _ => rfl) meets_sub, ?_, ?_⟩
  · intro x s r hr hg
    exact exec_writesG x.d (fun _ => x.imm.signExtend 32) rfl rfl hr hg
  · intro x s r hr hg
    obtain ⟨t, r', ht, honly, hw, hs, hrest⟩ :=
      exec_writesG x.d (fun r => (x.imm.zeroExtend 32 <<< 16) ||| (r.rg x.d &&& 0xFFFF#32)) rfl rfl hr hg
    obtain ⟨hhi, hlo⟩ := movh_halves x.imm (r.rg x.d)
    exact ⟨t, r', _, ht, honly, hw, hs, hhi, hlo, hrest⟩

end Sys2Proof.KwRows
end

section
/-! The return stack (R330). -/

namespace Sys2Proof.KwRows

open Sys2Proof Machine Laws

/-! ## Pushing a return address -/

/-- A push with room, or onto a wrapping stack, keeps the newest 16 return addresses. -/
theorem push_of_room {r : TaskRun} (h : r.rstack.length < 16 ∨ r.rswrap = true) :
    r.push = some { r with rstack := ((r.pc + 4) :: r.rstack).take 16 } := by
  unfold TaskRun.push
  by_cases hlen : r.rstack.length < 16
  · rw [if_pos hlen, List.take_of_length_le (by rw [List.length_cons]; omega)]
  · rw [if_neg hlen, if_pos (h.resolve_left hlen)]

/-- A push onto a full stack that does not wrap overflows. -/
theorem push_full {r : TaskRun} (hlen : r.rstack.length = 16) (hwrap : r.rswrap = false) : r.push = none := by
  simp [TaskRun.push, hlen, hwrap]

/-! ## CALL, CALLR and RET -/

section
variable {s : State} {r : TaskRun} (hnorep : r.rep = false)
include hnorep

theorem allowed_of_not_rep (noRep : Bool) : r.rep = true → noRep = false := fun h => by simp [hnorep] at h

theorem exec_call_pushes {x : BArgs} (hr : Ready s x.core (.kCall x) r) (hg : r.holds x.g = true)
    (hroom : r.rstack.length < 16 ∨ r.rswrap = true) :
    ∃ t, exec (.kCall x) s = .next t ∧ OnlyTask s t x.core { r with pc := x.go r, rstack := ((r.pc + 4) :: r.rstack).take 16 } :=
  exec_goes rfl rfl hr hg (allowed_of_not_rep hnorep _) (by rw [push_of_room hroom])

theorem exec_call_overflows {x : BArgs} (hr : Ready s x.core (.kCall x) r) (hg : r.holds x.g = true)
    (hlen : r.rstack.length = 16) (hwrap : r.rswrap = false) :
    exec (.kCall x) s = .next (s.takeExc x.core.key r Exc.STACK_OVERFLOW) :=
  exec_faults rfl rfl hr hg (allowed_of_not_rep hnorep _) (by rw [push_full hlen hwrap])

theorem exec_callr_pushes {x : CArgs} {a : Fin 32} (hr : Ready s x.core (.kCallr x a) r) (hg : r.holds x.g = true)
    (hroom : r.rstack.length < 16 ∨ r.rswrap = true) (halign : (r.rg a).toNat % 4 = 0) :
    ∃ t, exec (.kCallr x a) s = .next t
      ∧ OnlyTask s t x.core { r with pc := (r.rg a).toNat, rstack := ((r.pc + 4) :: r.rstack).take 16 } :=
  exec_goes rfl rfl hr hg (allowed_of_not_rep hnorep _) (by rw [push_of_room hroom]; simp [halign])

theorem exec_callr_overflows {x : CArgs} {a : Fin 32} (hr : Ready s x.core (.kCallr x a) r) (hg : r.holds x.g = true)
    (hlen : r.rstack.length = 16) (hwrap : r.rswrap = false) :
    exec (.kCallr x a) s = .next (s.takeExc x.core.key r Exc.STACK_OVERFLOW) :=
  exec_faults rfl rfl hr hg (allowed_of_not_rep hnorep _) (by rw [push_full hlen hwrap])

theorem exec_ret_pops {x : CArgs} {p : Nat} {q : List Nat} (hr : Ready s x.core (.kRet x) r) (hg : r.holds x.g = true)
    (hstack : r.rstack = p :: q) : ∃ t, exec (.kRet x) s = .next t ∧ OnlyTask s t x.core { r with pc := p, rstack := q } :=
  exec_goes rfl rfl hr hg (allowed_of_not_rep hnorep _) (by rw [hstack])

theorem exec_ret_underflows {x : CArgs} (hr : Ready s x.core (.kRet x) r) (hg : r.holds x.g = true) (hempty : r.rstack = []) :
    exec (.kRet x) s = .next (s.takeExc x.core.key r Exc.STACK_UNDERFLOW) :=
  exec_faults rfl rfl hr hg (allowed_of_not_rep hnorep _) (by rw [hempty])

end

/-- Settles O7: a push keeps the newest 16 addresses or overflows, and RET pops or underflows. -/
theorem kwReturnStack : Obligations.KwReturnStack := by
  refine ⟨⟨?_, ?_, ?_⟩, ?_, ?_, ?_⟩
  · intro x s r hr hg hnorep hroom
    obtain ⟨t, ht⟩ := exec_call_pushes hnorep hr hg hroom
    exact ⟨t, _, ht⟩
  · intro x a s r hr hg hnorep hroom halign
    obtain ⟨t, ht⟩ := exec_callr_pushes hnorep hr hg hroom halign
    exact ⟨t, _, ht⟩
  · intro x s r p q hr hg hnorep hstack
    exact exec_ret_pops hnorep hr hg hstack
  · intro x s r hr hg hnorep hlen hwrap
    exact exec_call_overflows hnorep hr hg hlen hwrap
  · intro x a s r hr hg hnorep hlen hwrap
    exact exec_callr_overflows hnorep hr hg hlen hwrap
  · intro x s r hr hg hnorep hempty
    exact exec_ret_underflows hnorep hr hg hempty

end Sys2Proof.KwRows
end

section
/-! The predicate and vector instructions (R338). -/

namespace Sys2Proof.KwRows

open Sys2Proof Machine Laws

/-! ## Conditions -/

/-- The model's condition on two words is the one of R338; a code above 9 never holds. -/
theorem condWords_iff (code : Nat) (a b : Word) : (condWords code a b).getD false = true ↔ Holds code a b := by
  unfold condWords Holds
  split <;> simp [BitVec.slt_iff_toInt_lt, BitVec.sle_iff_toInt_le, BitVec.ult_iff_lt, BitVec.ule_iff_le, BitVec.lt_def, BitVec.le_def,
    ← Bool.not_eq_true]

/-- The model's condition on the flags is the one of R338; a code above 14 never holds. -/
theorem condFlags_iff (code : Nat) (f : Flags) : (condFlags code f).getD false = true ↔ FlagHolds code f := by
  unfold condFlags FlagHolds
  split <;> simp

theorem maskOf_boolMask {b : Bool} {c : Prop} (h : b = true ↔ c) : MaskOf c (boolMask b) := by
  rw [MaskOf, ← h, boolMask]
  cases b <;> simp

/-! ## Predicate rows -/

theorem getLsbD_and_not (p q : BitVec 16) (i : Nat) : (p &&& ~~~q).getLsbD i = (p.getLsbD i && ! q.getLsbD i) := by
  rw [BitVec.getLsbD_and, BitVec.getLsbD_not]
  by_cases h : i < 16
  · rw [decide_eq_true h, Bool.true_and]
  · rw [BitVec.getLsbD_of_ge p i (Nat.le_of_not_lt h), Bool.false_and, Bool.false_and]

/-- A scalar instruction whose body writes one predicate. -/
theorem predRow {i : Instr} {core : CoreId} {g : Guard} {d : Fin 8} {value : TaskRun → BitVec 16 → Prop} (w : Word) (val : TaskRun → BitVec 16)
    (hexec : ∀ s, exec i s = .next (s.kStep w core g false false false fun s r => .next s (r.setP d (val r)))) (henc : kwEncode i = some w)
    (hval : ∀ r, value r (val r)) : PredRow i core g d value := by
  intro s r hr hg
  obtain ⟨t, ht, honly⟩ := exec_completes (hexec s) henc hr hg (fun _ => rfl) rfl
  exact ⟨t, _, _, ht, honly, hval r, writesP_setP _ _ _, scalar_iterate (regsOnly_setP ..), by simp, by simp, by simp⟩

/-- A scalar instruction whose body writes one general register. -/
theorem genRow {i : Instr} {core : CoreId} {g : Guard} {d : Fin 32} {value : TaskRun → Word → Prop} (w : Word) (val : TaskRun → Word)
    (hexec : ∀ s, exec i s = .next (s.kStep w core g false false false fun s r => .next s (r.setG d (val r)))) (henc : kwEncode i = some w)
    (hval : ∀ r, value r (val r)) : GenRow i core g d value := by
  intro s r hr hg
  obtain ⟨t, r', ht, honly, hw, hs, hflags, hp, hv⟩ := exec_writesG d val (hexec s) henc hr hg
  exact ⟨t, r', _, ht, honly, hval r, hw, hs, hp, hflags, hv⟩

/-- The set bits that PCNT counts. -/
theorem popNat_eq_countP (n w : Nat) : popNat n w = (List.range n).countP w.testBit := by
  induction n with
  | zero => rfl
  | succ n ih =>
    rw [popNat, ih, List.range_succ, List.countP_append, List.countP_singleton, Nat.add_comm]
    cases w.testBit n <;> rfl

theorem popcount_toNat (p : BitVec 16) : (BitVec.ofNat 32 (popNat 16 p.toNat)).toNat = (List.range 16).countP p.getLsbD := by
  rw [popNat_eq_countP, BitVec.toNat_ofNat]
  have hle : (List.range 16).countP p.toNat.testBit ≤ 16 := by simpa using List.countP_le_length (l := List.range 16) (p := p.toNat.testBit)
  rw [Nat.mod_eq_of_lt (by omega)]
  rfl

/-! ## Lanes -/

theorem regsOnly_setLane (r : TaskRun) (d : Fin 16) (l : Nat) (v : Word) : RegsOnly r (r.setLane d l v) := rfl

/-- The lanes `ls` of a vector register, those of the mask, take their values. -/
theorem lane_foldl_setLane (d i : Fin 16) (m : BitVec 16) (f : Nat → Word) {l : Nat} (hl : l < 16) (ls : List Nat) (hls : ∀ k ∈ ls, k < 16)
    (r : TaskRun) :
    (ls.foldl (fun r k => if m.getLsbD k then r.setLane d k (f k) else r) r).lane i l
      = if i = d ∧ m.getLsbD l = true ∧ l ∈ ls then f l else r.lane i l := by
  induction ls generalizing r with
  | nil => simp
  | cons k ks ih =>
    have hk : k < 16 := hls k (by simp)
    rw [List.foldl_cons, ih fun j hj => hls j (by simp [hj])]
    by_cases hm : m.getLsbD k = true
    · rw [if_pos hm, lane_setLane r d i k l (f k) hk hl]
      grind
    · rw [if_neg hm]
      grind

theorem lane_setLanes (r : TaskRun) (d i : Fin 16) (m : BitVec 16) (f : Nat → Word) {l : Nat} (hl : l < 16) :
    (r.setLanes d m f).lane i l = if i = d ∧ m.getLsbD l = true then f l else r.lane i l := by
  rw [TaskRun.setLanes, lane_foldl_setLane d i m f hl _ (by simp)]
  simp [hl]

/-- Writing lanes changes the vector registers alone. -/
theorem setLanes_eq (r : TaskRun) (d : Fin 16) (m : BitVec 16) (f : Nat → Word) : r.setLanes d m f = { r with v := (r.setLanes d m f).v } := by
  unfold TaskRun.setLanes
  generalize List.range 16 = ls
  induction ls generalizing r with
  | nil => rfl
  | cons k ks ih =>
    rw [List.foldl_cons, ih]
    split <;> rfl

theorem regsOnly_setLanes (r : TaskRun) (d : Fin 16) (m : BitVec 16) (f : Nat → Word) : RegsOnly r (r.setLanes d m f) := by
  unfold RegsOnly; rw [setLanes_eq]

@[simp] theorem setLanes_g (r : TaskRun) (d : Fin 16) (m : BitVec 16) (f : Nat → Word) : (r.setLanes d m f).g = r.g := by rw [setLanes_eq]
@[simp] theorem setLanes_p (r : TaskRun) (d : Fin 16) (m : BitVec 16) (f : Nat → Word) : (r.setLanes d m f).p = r.p := by rw [setLanes_eq]
@[simp] theorem setLanes_flags (r : TaskRun) (d : Fin 16) (m : BitVec 16) (f : Nat → Word) : (r.setLanes d m f).flags = r.flags := by
  rw [setLanes_eq]

theorem writesV_setLanes (r : TaskRun) (d : Fin 16) (m : BitVec 16) (f : Nat → Word) : WritesV r (r.setLanes d m f).iterate d m f :=
  fun i l hl => by rw [iterate_lane, lane_setLanes r d i m f hl]

/-- One lane written is the write under the mask of that lane alone. -/
theorem writesV_setLane (r : TaskRun) (d n : Fin 16) (v : Word) :
    WritesV r (r.setLane d n.val v).iterate d (BitVec.ofNat 16 (2 ^ n.val)) fun _ => v := fun i l hl => by
  have hbit : (BitVec.ofNat 16 (2 ^ n.val)).getLsbD l = true ↔ l = n.val := by
    rw [BitVec.getLsbD_ofNat, Nat.testBit_two_pow]
    simp only [hl, decide_true, Bool.true_and, decide_eq_true_eq]
    exact eq_comm
  rw [iterate_lane, lane_setLane r d i n.val l v n.isLt hl]
  simp only [hbit]

/-! ## Vector rows -/

/-- A vector instruction whose body writes lanes under its mask. -/
theorem exec_writesV {i : Instr} {s : State} {core : CoreId} {r : TaskRun} {w : Word} {g : Guard} (d : Fin 16) (f : TaskRun → Nat → Word)
    (hexec : exec i s = .next (s.kStep w core g true false false fun s r => .next s (r.setLanes d (r.mask g) (f r)))) (henc : kwEncode i = some w)
    (hr : Ready s core i r) (hm : r.mask g ≠ 0) :
    ∃ t r', exec i s = .next t ∧ OnlyTask s t core r' ∧ WritesV r r' d (r.mask g) (f r) ∧ Scalar r r' ∧ r'.g = r.g ∧ r'.p = r.p
      ∧ r'.flags = r.flags := by
  obtain ⟨t, ht, honly⟩ := exec_completes hexec henc hr (by simpa using hm) (fun _ => rfl) rfl
  exact ⟨t, _, ht, honly, writesV_setLanes _ _ _ _, scalar_iterate (regsOnly_setLanes ..), by simp, by simp, by simp⟩

/-- A vector instruction whose lane function is as the row says. -/
theorem vecRow {mk : VArgs → Instr} {value : Word → Word → Word → Prop} (w : VArgs → Word) (f : Word → Word → Word)
    (hexec : ∀ x s, exec (mk x) s = .next (s.kVec (w x) x f)) (henc : ∀ x, kwEncode (mk x) = some (w x)) (hval : ∀ a b, value a b (f a b)) :
    VecRow mk value := by
  intro x s r hr hm
  obtain ⟨t, r', ht, honly, hw, hs, hrest⟩ := exec_writesV x.d (fun r l => f (r.lane x.a l) (r.lane x.b l)) (hexec x s) (henc x) hr hm
  exact ⟨t, r', _, ht, honly, fun l _ => hval .., hw, hs, hrest⟩

/-! ## VCMP and VSUM -/

/-- A sum of the powers of two of the lanes that `c` picks has those bits, and no bit above them. -/
theorem sum_two_pow_bits (c : Nat → Prop) [DecidablePred c] (n : Nat) :
    (List.range n).foldl (fun k l => k + if c l then 2 ^ l else 0) 0 < 2 ^ n
      ∧ ∀ l, ((List.range n).foldl (fun k l => k + if c l then 2 ^ l else 0) 0).testBit l = true ↔ l < n ∧ c l := by
  induction n with
  | zero => simp
  | succ n ih =>
    obtain ⟨hlt, hbits⟩ := ih
    rw [List.range_succ, List.foldl_append, List.foldl_cons, List.foldl_nil]
    generalize (List.range n).foldl _ 0 = k at hlt hbits ⊢
    have hpow : 2 ^ (n + 1) = 2 ^ n + 2 ^ n := by rw [Nat.pow_succ]; omega
    by_cases hc : c n
    · rw [if_pos hc]
      refine ⟨by omega, fun l => ?_⟩
      rw [Nat.add_comm k]
      rcases Nat.lt_trichotomy l n with h | rfl | h
      · rw [Nat.testBit_two_pow_add_gt h, hbits]; simp [h, Nat.lt_succ_of_lt h]
      · simp [Nat.testBit_two_pow_add_eq, Nat.testBit_lt_two_pow hlt, hc]
      · rw [Nat.testBit_lt_two_pow (by calc 2 ^ n + k < 2 ^ (n + 1) := by omega
          _ ≤ 2 ^ l := Nat.pow_le_pow_right (by decide) h)]
        simp [show ¬ l < n + 1 by omega]
    · rw [if_neg hc, Nat.add_zero]
      refine ⟨by omega, fun l => ?_⟩
      rw [hbits]
      grind

/-- The sum of the active lanes, as a word. -/
theorem foldl_add_toNat (m : BitVec 16) (f : Nat → Word) (ls : List Nat) (acc : Word) :
    (ls.foldl (fun (n : Word) l => if m.getLsbD l then n + f l else n) acc).toNat
      = (acc.toNat + (ls.map fun l => if m.getLsbD l then (f l).toNat else 0).sum) % 2 ^ 32 := by
  induction ls generalizing acc with
  | nil => simp [Nat.mod_eq_of_lt acc.isLt]
  | cons l ls ih =>
    rw [List.foldl_cons, ih, List.map_cons, List.sum_cons]
    split
    · rw [BitVec.toNat_add]; omega
    · rw [Nat.zero_add]

theorem exec_vcmp (x : CArgs) (d : Fin 8) (a b : Fin 16) (cond : BitVec 7) (s : State) (r : TaskRun) (hr : Ready s x.core (.kVcmp x d a b cond) r)
    (hm : r.mask x.g ≠ 0) :
    ∃ t r' p, exec (.kVcmp x d a b cond) s = .next t ∧ OnlyTask s t x.core r'
      ∧ (∀ l, l < 16 → (p.getLsbD l = true ↔ (r.mask x.g).getLsbD l = true ∧ Holds cond.toNat (r.lane a l) (r.lane b l)))
      ∧ WritesP r r' d p ∧ Scalar r r' ∧ r'.g = r.g ∧ r'.flags = r.flags ∧ r'.v = r.v := by
  obtain ⟨t, ht, honly⟩ := exec_completes (g := x.g) (vec := true) rfl rfl hr (by simpa using hm) (fun _ => rfl) (by rfl)
  refine ⟨t, _, _, ht, honly, fun l hl => ?_, writesP_setP _ _ _, scalar_iterate (regsOnly_setP ..), by simp, by simp, by simp⟩
  rw [BitVec.getLsbD_ofNat, (Bool.and_eq_true_iff ..)]
  rw [(sum_two_pow_bits _ 16).2 l, condWords_iff]
  simp [hl]

theorem exec_vsum (x : CArgs) (d : Fin 32) (a : Fin 16) (s : State) (r : TaskRun) (hr : Ready s x.core (.kVsum x d a) r) (hm : r.mask x.g ≠ 0) :
    ∃ t r' w, exec (.kVsum x d a) s = .next t ∧ OnlyTask s t x.core r'
      ∧ w.toNat = ((List.range 16).map fun l => if (r.mask x.g).getLsbD l then (r.lane a l).toNat else 0).sum % 2 ^ 32
      ∧ WritesG r r' d w ∧ r'.flags = { r.flags with n := w.msb, z := decide (w = 0) } ∧ Scalar r r' ∧ r'.p = r.p ∧ r'.v = r.v := by
  obtain ⟨t, ht, honly⟩ := exec_completes (g := x.g) (vec := true) rfl rfl hr (by simpa using hm) (fun _ => rfl) (by rfl)
  refine ⟨t, _, _, ht, honly, ?_, writesG_setG _ _ _, ?_,
    scalar_iterate (regsOnly_trans (regsOnly_flags r _) (regsOnly_setG ..)), by simp, by simp⟩
  · rw [foldl_add_toNat]; simp
  · rw [iterate_flags, setG_flags, after_plain]

/-! ## Illegal conditions -/

/-- A word is no instruction's where its opcode's rows all end below its FN. -/
theorem kwCanon_none_of_fn {w : Word} (hop : kwOp w ≠ 0x27)
    (hfn : ∀ row ∈ kwRows0 ++ kwRows1 ++ kwRows2, row.op = kwOp w → ∃ lo hi, row.fns = some (lo, hi) ∧ hi < kwFn w) : kwCanon w = none := by
  have hfind : (kwRows0 ++ kwRows1 ++ kwRows2).find? (fun row => row.takes w) = none := by
    refine List.find?_eq_none.mpr fun row hrow htakes => ?_
    simp only [KRow.takes, Bool.and_eq_true, decide_eq_true_eq] at htakes
    obtain ⟨hop, hin⟩ := htakes
    obtain ⟨lo, hi, hrange, hlt⟩ := hfn row hrow hop
    simp only [hrange, Bool.and_eq_true, decide_eq_true_eq] at hin
    omega
  rw [kwCanon, if_neg hop, hfind]

/-- Every row of an opcode takes FN values up to a bound. -/
def fnsUpTo (op top : Nat) : Bool :=
  (kwRows0 ++ kwRows1 ++ kwRows2).all fun row => row.op ≠ op || row.fns.any fun f => f.2 ≤ top

theorem kwCanon_none_of_fnsUpTo {w : Word} {op top : Nat} (hop : kwOp w = op) (h27 : op ≠ 0x27) (hrows : fnsUpTo op top = true)
    (hfn : top < kwFn w) : kwCanon w = none := by
  refine kwCanon_none_of_fn (hop ▸ h27) fun row hrow hrop => ?_
  have hrow' : decide (row.op ≠ op) = true ∨ row.fns.any (fun f => decide (f.2 ≤ top)) = true :=
    Bool.or_eq_true _ _ ▸ List.all_eq_true.mp hrows row hrow
  rcases hrow' with hne | hany
  · exact absurd (hrop.trans hop) (of_decide_eq_true hne)
  · cases hfns : row.fns with
    | none => rw [hfns] at hany; cases hany
    | some f => rw [hfns] at hany; exact ⟨f.1, f.2, rfl, Nat.lt_of_le_of_lt (of_decide_eq_true hany) hfn⟩

/-- R338: the conditions of PCMP, VCMP and PFLAG that exist. -/
theorem kwCanon_bad_condition {w : Word}
    (h : (w.toNat / 2 ^ 22 % 64 = 0x30 ∨ w.toNat / 2 ^ 22 % 64 = 0x39) ∧ 9 < w.toNat % 128
      ∨ w.toNat / 2 ^ 22 % 64 = 0x31 ∧ 14 < w.toNat % 128) :
    kwCanon w = none := by
  have hfn : kwFn w = w.toNat % 128 := by simp [kwFn, bitsOf]
  rcases h with ⟨h | h, hc⟩ | ⟨h, hc⟩
  · exact kwCanon_none_of_fnsUpTo h (by decide) (top := 9) (by decide) (hfn ▸ hc)
  · exact kwCanon_none_of_fnsUpTo h (by decide) (top := 9) (by decide) (hfn ▸ hc)
  · exact kwCanon_none_of_fnsUpTo h (by decide) (top := 14) (by decide) (hfn ▸ hc)

/-- A word that no row accepts takes ILLEGAL_OP where its guard holds (R333). -/
theorem kStep_illegal {core : CoreId} {w : Word} {s : State} {r : TaskRun} {g : Guard} {ill noRep : Bool} {body : State → TaskRun → KOut}
    (hrun : (s.core core.key).run = some r) (hstall : r.stallAt = none) (hrep : r.rep = false) (hfetch : r.fetch = some w)
    (hg : r.holds g = true) (hcanon : kwCanon w = none) :
    s.kStep w core g false ill noRep body = s.takeExc core.key r Exc.ILLEGAL_OP := by
  simp [State.kStep, hrun, hstall, hrep, hfetch, hg, hcanon]

theorem exec_unassigned_illegal {core : CoreId} {w : Word} {s : State} {r : TaskRun} (hrun : (s.core core.key).run = some r)
    (hstall : r.stallAt = none) (hrep : r.rep = false) (hfetch : r.fetch = some w)
    (hg : r.holds ⟨w.msb, Fin.ofNat 8 (w.toNat / 2 ^ 28)⟩ = true) (hcanon : kwCanon w = none) :
    exec (.kUnassigned core w) s = .next (s.takeExc core.key r Exc.ILLEGAL_OP) := by
  have hguard : Fin.ofNat 8 (bitsOf w.toNat 30 28) = Fin.ofNat 8 (w.toNat / 2 ^ 28) := by
    apply Fin.ext; simp [bitsOf]
  have hexec : exec (.kUnassigned core w) s = execKUnassigned core w s := rfl
  rw [hexec, execKUnassigned, hguard, hcanon, kStep_illegal hrun hstall hrep hfetch hg hcanon]
  rfl

/-! ## The statement -/

/-- Settles O10: each row from the value that its body writes; a condition beyond the last belongs to no instruction. -/
theorem kwPredicatesAndVectors : Obligations.KwPredicatesAndVectors := by
  refine ⟨⟨?_, ?_, ?_, ?_, ?_, ?_, ?_, ?_, ?_, ?_, ?_⟩,
    ⟨⟨?_, ?_, ?_, ?_, ?_, ?_, ?_, ?_, ?_, ?_, ?_, ?_, ?_, ?_⟩, exec_vcmp, ?_, ?_, ?_, exec_vsum⟩, ?_⟩
  -- The predicate instructions
  · exact fun x d a b cond => predRow _ _ (fun _ => rfl) rfl fun r => maskOf_boolMask (condWords_iff ..)
  · exact fun x d cond => predRow _ _ (fun _ => rfl) rfl fun r => maskOf_boolMask (condFlags_iff ..)
  · exact fun x => predRow _ (fun r => r.pg x.a &&& r.pg x.b) (fun _ => rfl) rfl fun r i => BitVec.getLsbD_and
  · exact fun x => predRow _ (fun r => r.pg x.a ||| r.pg x.b) (fun _ => rfl) rfl fun r i => BitVec.getLsbD_or
  · exact fun x => predRow _ (fun r => r.pg x.a ^^^ r.pg x.b) (fun _ => rfl) rfl fun r i => BitVec.getLsbD_xor
  · exact fun x => predRow _ (fun r => r.pg x.a &&& ~~~r.pg x.b) (fun _ => rfl) rfl fun r i => getLsbD_and_not ..
  · exact fun x => predRow _ (fun r => ~~~r.pg x.a) (fun _ => rfl) rfl fun r i hi => by simp [hi]
  · exact fun x d imm => predRow _ (fun _ => imm) (fun _ => rfl) rfl fun _ => rfl
  · exact fun x d a => predRow _ (fun r => (r.rg a).truncate 16) (fun _ => rfl) rfl fun r => BitVec.setWidth_eq_extractLsb' (by decide)
  · exact fun x d a => genRow _ (fun r => (r.pg a).zeroExtend 32) (fun _ => rfl) rfl fun r =>
      BitVec.toNat_setWidth_of_le (by decide)
  · exact fun x d a => genRow _ (fun r => BitVec.ofNat 32 (popNat 16 (r.pg a).toNat)) (fun _ => rfl) rfl fun r => popcount_toNat _
  -- The lane-by-lane instructions
  · exact vecRow (encV · 0) _ (fun _ _ => rfl) (fun _ => rfl) fun _ _ => rfl
  · exact vecRow (encV · 1) _ (fun _ _ => rfl) (fun _ => rfl) fun _ _ => rfl
  · exact vecRow (encV · 2) _ (fun _ _ => rfl) (fun _ => rfl) fun a b => BitVec.toNat_mul a b
  · exact vecRow (encV · 3) _ (fun _ _ => rfl) (fun _ => rfl) fun _ _ => rfl
  · exact vecRow (encV · 4) _ (fun _ _ => rfl) (fun _ => rfl) fun _ _ => rfl
  · exact vecRow (encV · 5) _ (fun _ _ => rfl) (fun _ => rfl) fun _ _ => rfl
  · exact vecRow (encV · 6) _ (fun _ _ => rfl) (fun _ => rfl) shlW_toNat
  · exact vecRow (encV · 7) _ (fun _ _ => rfl) (fun _ => rfl) shrW_toNat
  · exact vecRow (encV · 8) _ (fun _ _ => rfl) (fun _ => rfl) sarW_toInt
  · exact vecRow (encV · 9) _ (fun _ _ => rfl) (fun _ => rfl) minW_toInt
  · exact vecRow (encV · 10) _ (fun _ _ => rfl) (fun _ => rfl) maxW_toInt
  · exact vecRow (encV · 11) _ (fun _ _ => rfl) (fun _ => rfl) minuW_toNat
  · exact vecRow (encV · 12) _ (fun _ _ => rfl) (fun _ => rfl) maxuW_toNat
  · exact vecRow (fun x => encF x.g 0x38 x.d.val x.a.val 0 13) _ (fun _ _ => rfl) (fun _ => rfl) fun _ _ => rfl
  -- VBCAST, VEXT and VINS
  · intro x d a s r hr hm
    exact exec_writesV d (fun r _ => r.rg a) rfl rfl hr hm
  · exact fun x d a l => genRow _ (fun r => r.lane a l.val) (fun _ => rfl) rfl fun _ => rfl
  · intro x d a n s r hr hg
    obtain ⟨t, ht, honly⟩ := exec_completes (g := x.g) (vec := false) rfl rfl hr hg (fun _ => rfl) (by rfl)
    exact ⟨t, _, ht, honly, writesV_setLane r d n _, scalar_iterate (regsOnly_setLane ..), iterate_g _, iterate_p _, iterate_flags _⟩
  -- Conditions that do not exist
  · intro core w s r hrun hstall hrep hfetch hg hcond
    exact exec_unassigned_illegal hrun hstall hrep hfetch hg (kwCanon_bad_condition hcond)

end Sys2Proof.KwRows
end

section
/-! SUPPORT. Byte strings: their lengths and values, and reading back what a memory holds of a sequence of them. -/

namespace Sys2Proof.KwRows

open Sys2Proof Machine Laws

/-! ## Lengths and values -/

@[simp] theorem length_zeros (n : Nat) : (zeros n).length = n := by simp [zeros]

@[simp] theorem length_leBytes (n v : Nat) : (leBytes n v).length = n := by
  induction n generalizing v with
  | zero => rfl
  | succ n ih => rw [leBytes, List.length_cons, ih]

@[simp] theorem length_tokenBytes (t : Token) : (tokenBytes t).length = 32 := by simp [tokenBytes]

theorem leNat_leBytes (n v : Nat) : leNat (leBytes n v) = v % 256 ^ n := by
  induction n generalizing v with
  | zero => simp [leBytes, leNat, Nat.mod_one]
  | succ n ih => rw [leBytes, leNat, ih, BitVec.toNat_ofNat, Nat.pow_succ' (m := 256), Nat.mod_mul]

theorem leNat_append (l m : List Byte) : leNat (l ++ m) = leNat l + 256 ^ l.length * leNat m := by
  induction l with
  | nil => simp [leNat]
  | cons b l ih => rw [List.cons_append, leNat, ih, leNat, List.length_cons, Nat.pow_succ', Nat.mul_add, Nat.mul_assoc, Nat.add_assoc]

@[simp] theorem length_sliceB (l : List Byte) (off n : Nat) : (sliceB l off n).length = n := by
  simp only [sliceB, List.length_append, length_zeros]
  have hle := List.length_take_le n (l.drop off)
  omega

theorem sliceB_all {l : List Byte} {n : Nat} (h : l.length = n) : sliceB l 0 n = l := by
  subst h; simp [sliceB, zeros]

/-! ## Reading back -/

@[simp] theorem length_readBytes (m : Mem) (a n : Nat) : (m.readBytes a n).length = n := by
  induction n generalizing a with
  | zero => rfl
  | succ n ih => rw [Mem.readBytes, List.length_cons, ih]

theorem getElem_readBytes (m : Mem) (a n k : Nat) (hk : k < (m.readBytes a n).length) : (m.readBytes a n)[k] = m.read (a + k) := by
  induction n generalizing a k with
  | zero => simp at hk
  | succ n ih =>
    cases k with
    | zero => rfl
    | succ k => simp only [Mem.readBytes, List.getElem_cons_succ, ih, Nat.add_assoc, Nat.add_comm 1 k]

/-- Part `i` of a sequence of byte strings is read back where it was stored. -/
theorem readBytes_writeBytes_flatten (m : Mem) (a : Nat) (parts : List (List Byte)) (i : Nat) (hi : i < parts.length) :
    (m.writeBytes a parts.flatten).readBytes (a + ((parts.take i).map List.length).sum) parts[i].length = parts[i] := by
  have hcut : parts.flatten = (parts.take i).flatten ++ (parts[i] ++ (parts.drop (i + 1)).flatten) := by
    rw [← List.flatten_cons, List.getElem_cons_drop hi, ← List.flatten_append, List.take_append_drop]
  refine List.ext_getElem (length_readBytes ..) fun k hk hk' => ?_
  have hlen : ((parts.take i).map List.length).sum + k < parts.flatten.length := by
    rw [hcut, List.length_append, List.length_append, List.length_flatten]; omega
  rw [getElem_readBytes, Nat.add_assoc, mem_read_writeBytes _ _ _ _ hlen]
  simp only [hcut, ← List.length_flatten]
  rw [List.getElem_append_right (by omega), List.getElem_append_left (by omega)]
  simp

/-- Bytes that read back as zeros are zero one by one. -/
theorem read_of_readBytes_zeros {m : Mem} {a n b : Nat} (h : m.readBytes a n = zeros n) (hab : a ≤ b) (hbn : b < a + n) : m.read b = 0 := by
  obtain ⟨k, rfl⟩ := Nat.exists_eq_add_of_le hab
  have hk : k < (m.readBytes a n).length := by rw [length_readBytes]; omega
  rw [← getElem_readBytes m a n k hk]
  simp [h, zeros]

end Sys2Proof.KwRows
end

section
/-! The start of a task (R293, R324, R326). -/

namespace Sys2Proof.KwRows

open Sys2Proof Machine Laws

/-! ## The frame region (R326) -/

/-- The bytes of an input token's place in the frame region. -/
def inputBytes (toks : List (Option Token)) (j : Nat) : List Byte :=
  match toks.getD j none with | some y => tokenBytes y | none => zeros 32

@[simp] theorem length_inputBytes (toks : List (Option Token)) (j : Nat) : (inputBytes toks j).length = 32 := by
  unfold inputBytes; split <;> simp

/-- The fields of the frame region in their order. -/
def frameParts (t : Task) (f : Flow) (n : Node) (toks : List (Option Token)) : List (List Byte) :=
  [inputBytes toks 0, inputBytes toks 1, inputBytes toks 2, inputBytes toks 3, sliceB f.d.params 0 64, leBytes 5 t.seq,
    [BitVec.ofNat 8 t.node, BitVec.ofNat 8 t.inst, BitVec.ofNat 8 t.attempt, BitVec.ofNat 8 n.outputs], zeros 1,
    leBytes 2 t.flow ++ leBytes 2 f.gen, zeros 2, leBytes 4 (n.scratchKib * 1024), leBytes 4 n.budgetUs, zeros 40]

theorem frameBytes_eq (t : Task) (f : Flow) (n : Node) (toks : List (Option Token)) :
    frameBytes t f n toks = (frameParts t f n toks).flatten := by
  have hinputs : frameBytes t f n toks = (List.range 4).flatMap (inputBytes toks) ++ sliceB f.d.params 0 64 ++ leBytes 5 t.seq
      ++ [BitVec.ofNat 8 t.node, BitVec.ofNat 8 t.inst, BitVec.ofNat 8 t.attempt, BitVec.ofNat 8 n.outputs, 0]
      ++ leBytes 2 t.flow ++ leBytes 2 f.gen ++ [0, 0] ++ leBytes 4 (n.scratchKib * 1024) ++ leBytes 4 n.budgetUs ++ zeros 40 := rfl
  rw [hinputs]
  simp [frameParts, List.range_succ, zeros]

theorem frameParts_lt {t : Task} {f : Flow} {n : Node} {toks : List (Option Token)} (i : Nat) (hi : i < 13 := by decide) :
    i < (frameParts t f n toks).length := hi

section
variable {t : Task} {f : Flow} {n : Node} {im : Image} {toks : List (Option Token)} {rswrap : Bool} {now : Nat}

/-- A field of the frame region stands in the scratch of a starting task behind the fields before it. -/
theorem start_readBytes (i : Nat) (hi : i < (frameParts t f n toks).length) {off len : Nat}
    (hoff : (((frameParts t f n toks).take i).map List.length).sum = off) (hlen : (frameParts t f n toks)[i].length = len) :
    (TaskRun.start t f n im toks rswrap now).scratch.readBytes (0x3C000 + off) len = (frameParts t f n toks)[i] := by
  rw [← hoff, ← hlen]
  change (Mem.writeBytes [] 0x3C000 (frameBytes t f n toks)).readBytes _ _ = _
  rw [frameBytes_eq, readBytes_writeBytes_flatten]

theorem start_read_below {a : Nat} (ha : a < 0x3C000) : (TaskRun.start t f n im toks rswrap now).scratch.read a = 0 := by
  change (Mem.writeBytes [] 0x3C000 (frameBytes t f n toks)).read a = 0
  rw [mem_read_writeBytes_other _ _ (.inl ha)]
  rfl

theorem start_inputs (j : Nat) (hj : j < 4) :
    (TaskRun.start t f n im toks rswrap now).scratch.readBytes (0x3C000 + 32 * j) 32 = inputBytes toks j := by
  have hfield : ∃ hi : j < (frameParts t f n toks).length, (frameParts t f n toks)[j] = inputBytes toks j
      ∧ (((frameParts t f n toks).take j).map List.length).sum = 32 * j := by
    match j, hj with
    | 0, _ | 1, _ | 2, _ | 3, _ => exact ⟨frameParts_lt _, rfl, by simp [frameParts]⟩
  obtain ⟨hi, heq, hoff⟩ := hfield
  rw [start_readBytes j hi hoff (by rw [heq, length_inputBytes]), heq]

/-- The task's fields of the frame region: the parameters, the sequence, where the task comes from, its flow and its bounds. -/
theorem start_fields (hparams : f.d.params.length = 64) :
    let m := (TaskRun.start t f n im toks rswrap now).scratch
    m.readBytes 0x3C080 64 = f.d.params ∧ leNat (m.readBytes 0x3C0C0 5) = t.seq % 2 ^ 40
      ∧ leNat (m.readBytes 0x3C0C5 4) = t.node % 256 + 256 * (t.inst % 256) + 65536 * (t.attempt % 256) + 16777216 * (n.outputs % 256)
      ∧ leNat (m.readBytes 0x3C0CA 4) = t.flow % 65536 + 65536 * (f.gen % 65536)
      ∧ leNat (m.readBytes 0x3C0D0 4) = n.scratchKib * 1024 % 2 ^ 32 ∧ leNat (m.readBytes 0x3C0D4 4) = n.budgetUs % 2 ^ 32 := by
  refine ⟨?_, ?_, ?_, ?_, ?_, ?_⟩
  · rw [start_readBytes 4 (frameParts_lt 4) (off := 0x80) (by simp [frameParts]) (by simp [frameParts])]
    exact sliceB_all hparams
  · rw [start_readBytes 5 (frameParts_lt 5) (off := 0xC0) (by simp [frameParts]) (by simp [frameParts])]
    exact leNat_leBytes 5 _
  · rw [start_readBytes 6 (frameParts_lt 6) (off := 0xC5) (by simp [frameParts]) (by simp [frameParts])]
    simp only [frameParts, List.getElem_cons_succ, List.getElem_cons_zero, leNat, BitVec.toNat_ofNat]
    omega
  · rw [start_readBytes 8 (frameParts_lt 8) (off := 0xCA) (by simp [frameParts]) (by simp [frameParts])]
    simp [frameParts, leNat_append, leNat_leBytes]
  · rw [start_readBytes 10 (frameParts_lt 10) (off := 0xD0) (by simp [frameParts]) (by simp [frameParts])]
    exact leNat_leBytes 4 _
  · rw [start_readBytes 11 (frameParts_lt 11) (off := 0xD4) (by simp [frameParts]) (by simp [frameParts])]
    exact leNat_leBytes 4 _

/-- A field of zeros reads as zero. -/
theorem start_read_zeros (i : Nat) (hi : i < (frameParts t f n toks).length) {off len a : Nat}
    (hoff : (((frameParts t f n toks).take i).map List.length).sum = off) (hzero : (frameParts t f n toks)[i] = zeros len)
    (hlo : 0x3C000 + off ≤ a) (hhi : a < 0x3C000 + off + len) : (TaskRun.start t f n im toks rswrap now).scratch.read a = 0 :=
  read_of_readBytes_zeros ((start_readBytes i hi hoff (by rw [hzero, length_zeros])).trans hzero) hlo hhi

/-- The bytes of the frame region that hold nothing are zero. -/
theorem start_reserved {a : Nat} (ha : a ∈ [0x3C0C9, 0x3C0CE, 0x3C0CF] ∨ 0x3C0D8 ≤ a ∧ a < 0x3C100) :
    (TaskRun.start t f n im toks rswrap now).scratch.read a = 0 := by
  have hbyte (hlo : 0x3C0C9 ≤ a) (hhi : a < 0x3C0CA) : (TaskRun.start t f n im toks rswrap now).scratch.read a = 0 :=
    start_read_zeros 7 (frameParts_lt 7) (off := 0xC9) (by simp [frameParts]) rfl hlo hhi
  have hpair (hlo : 0x3C0CE ≤ a) (hhi : a < 0x3C0D0) : (TaskRun.start t f n im toks rswrap now).scratch.read a = 0 :=
    start_read_zeros 9 (frameParts_lt 9) (off := 0xCE) (by simp [frameParts]) rfl hlo hhi
  have htail (hlo : 0x3C0D8 ≤ a) (hhi : a < 0x3C100) : (TaskRun.start t f n im toks rswrap now).scratch.read a = 0 :=
    start_read_zeros 12 (frameParts_lt 12) (off := 0xD8) (by simp [frameParts]) rfl hlo hhi
  simp only [List.mem_cons, List.not_mem_nil, or_false] at ha
  rcases ha with (h | h | h) | ⟨hlo, hhi⟩
  · exact hbyte (by omega) (by omega)
  · exact hpair (by omega) (by omega)
  · exact hpair (by omega) (by omega)
  · exact htail hlo hhi

end

/-! ## The dispatch of the only task that waits (R293) -/

theorem readyAt_single {d : DispS} {tk : Task} (h : d.ready = [tk]) (p : Nat) : d.readyAt p = if tk.prio = p then [tk] else [] := by
  rw [DispS.readyAt, h, List.filter_cons, List.filter_nil]
  by_cases hp : tk.prio = p
  · rw [if_pos hp, if_pos (decide_eq_true hp)]
  · rw [if_neg hp, if_neg fun hd => hp (of_decide_eq_true hd)]

theorem firstPriority_single {d : DispS} {tk : Task} (h : d.ready = [tk]) (hprio : tk.prio < 4) :
    (List.range 4).find? (fun p => ! (d.readyAt p).isEmpty) = some tk.prio := by
  simp only [readyAt_single h]
  generalize tk.prio = p at hprio
  match p, hprio with
  | 0, _ | 1, _ | 2, _ | 3, _ => rfl

/-- Dropping entries under other keys leaves what a key reads. -/
theorem getD_filter_kept {α : Type} (d : α) (m : List (Nat × α)) (keep : Nat × α → Bool) (a : Nat) (h : ∀ v, keep (a, v) = true) :
    KV.getD d (m.filter keep) a = KV.getD d m a := by
  induction m with
  | nil => rfl
  | cons e m ih =>
    obtain ⟨k, v⟩ := e
    rw [List.filter_cons]
    by_cases hk : a = k
    · subst hk; rw [if_pos (h v)]; simp [KV.getD, KV.get?]
    · split <;> simpa [KV.getD, KV.get?, hk] using ih

/-- The turn stays with the one served last while it is backlogged and has credit. -/
theorem pick_last {d : Drr} {backlog : List Nat} (quantum : Nat → Nat) (hlast : d.last ∈ backlog) (hcredit : 0 < KV.getD 0 d.credit d.last) :
    Drr.pick quantum backlog (d.fuel backlog) (d.trim backlog) = some (d.last, d.trim backlog) := by
  obtain ⟨fuel, hfuel⟩ : ∃ fuel, d.fuel backlog = fuel + 1 :=
    Nat.exists_eq_succ_of_ne_zero (Nat.mul_ne_zero (Nat.succ_ne_zero _) (by omega))
  have hkept : KV.getD 0 (d.trim backlog).credit d.last = KV.getD 0 d.credit d.last :=
    getD_filter_kept 0 d.credit _ d.last fun v => by simp [hlast]
  rw [hfuel, Drr.pick, if_pos ⟨List.contains_iff_mem.mpr hlast, hkept ▸ hcredit⟩]
  rfl

/-- With no entry that waits to fire, nothing more fires. -/
theorem retryFire_of_fired {s : State} {q : Nat} (h : ∀ e ∈ (s.disp q).entries, e.2.fired = true) : s.retryFire q = s := by
  have hnone : (s.disp q).entries.filter (fun e => ! e.2.fired) = [] := List.filter_eq_nil_iff.mpr fun e he => by simp [h e he]
  rw [State.retryFire, hnone]
  rfl

theorem core_putRun (s : State) (c : Nat) (r : TaskRun) : ((s.putRun c r).core c).run = some r := by
  simp [State.putRun, State.modCore, State.core]

theorem disp_modDisp (s : State) (q : Nat) (g : DispS → DispS) : (s.modDisp q g).disp q = g (s.disp q) := by
  simp [State.modDisp, State.disp]

theorem disp_putRun (s : State) (c : Nat) (r : TaskRun) (q : Nat) : (s.putRun c r).disp q = s.disp q := rfl
theorem disp_bump (s : State) (pg : Nat) (fd : Field) (j q : Nat) : (s.bump pg fd j).disp q = s.disp q := rfl

/-- The task's inputs, in the order of its node's ports. -/
def taskInputs (s : State) (q : Nat) (tk : Task) (n : Node) : List (Option Token) :=
  (s.inputsOf q tk.flow tk.seq tk.node n.inputs).map fun e => e.map (·.tok)

/-- The only task that waits starts on the core picked for it. -/
theorem exec_taskDispatch_single {quad : Quad} {tk : Task} {k : Nat} {f : Flow} {p : Prog} {n : Node} {s : State}
    (hready : (s.disp quad.ix).ready = [tk]) (hprio : tk.prio < 4) (hlast : (s.disp quad.ix).cores.last = tk.inst)
    (hcredit : 0 < KV.getD 0 (s.disp quad.ix).cores.credit tk.inst) (hcore : s.pickCore quad.ix tk = some k) (hflow : s.flow? tk.flow = some f)
    (hprog : s.progOf f = some p) (hnode : s.nodeOf f tk.node = some n) (hfired : ∀ e ∈ (s.disp quad.ix).entries, e.2.fired = true) :
    Yields (.taskDispatch quad) s fun t => (t.core (64 * quad.ix + k)).run = some (TaskRun.start tk f n p.image (taskInputs s quad.ix tk n)
      (s.cfgB (cluPage (64 * quad.ix + k)) Fd.CLU_CORECFG_RSWRAP) s.now) := by
  have hexec : exec (.taskDispatch quad) s = execTaskDispatch quad s := rfl
  have hpick := pick_last (d := (s.disp quad.ix).cores) (backlog := [tk.inst]) s.share (by simp [hlast]) (hlast ▸ hcredit)
  have hbacklog : (([tk].map (·.inst)).foldr insNat []) = [tk.inst] := rfl
  have hready' : (s.disp quad.ix).readyAt tk.prio = [tk] := by rw [readyAt_single hready, if_pos rfl]
  rw [hlast] at hpick
  simp only [Yields, hexec, execTaskDispatch, firstPriority_single hready hprio, hready', hbacklog, hpick,
    List.find?_singleton, decide_true, if_true, hcore, hflow, hprog, hnode]
  rw [retryFire_of_fired]
  · exact ⟨_, rfl, core_putRun ..⟩
  · intro e he
    rw [disp_bump, disp_putRun, disp_modDisp] at he
    exact hfired e he

theorem getD_three_zeros (m : Nat) : ([0, 0, 0] : List Word).getD m 0 = 0 := by
  rcases m with _ | _ | _ | m <;> rfl

/-- Settles O11: the start of the only task that waits, field by field of the frame region. -/
theorem kwTaskStart : Obligations.KwTaskStart := by
  intro quad tk k f p n s hready hprio hlast hcredit hcore hflow hprog hnode hfired hparams
  obtain ⟨t, ht, hrun⟩ := exec_taskDispatch_single hready hprio hlast hcredit hcore hflow hprog hnode hfired
  obtain ⟨hp, hseq, horigin, hfl, hkib, hbudget⟩ := start_fields hparams
  refine ⟨t, ht, _, hrun, rfl, ?_, ?_, ?_, rfl, rfl, rfl, rfl, rfl, ?_, rfl, rfl, rfl, ?_, ?_, hp, hseq, horigin, hfl, hkib, hbudget, ?_⟩
  · intro i; simp [TaskRun.rg, TaskRun.start, KV.getD, KV.get?]
  · intro i hi
    have hi' : i.val ≠ 0 := fun h => hi (Fin.ext h)
    simp [TaskRun.pg, TaskRun.start, KV.getD, KV.get?, hi]
  · intro i l _; rfl
  · intro m
    exact ⟨getD_three_zeros m, getD_three_zeros m, getD_three_zeros m⟩
  · exact fun a ha => start_read_below ha
  · exact fun j hj => start_inputs j hj
  · exact fun a ha => start_reserved ha

end Sys2Proof.KwRows
end
